-- ==== Sys2Proof/Word.lean ====
section
/-!
DEFINITION. The word types, their plainest arithmetic and the type of sparse stores.
Bits are numbered from 0 at the least significant end and bytes are little-endian (R13).
-/
namespace Sys2Proof

/-- A byte of memory. -/
abbrev Byte := BitVec 8
/-- A register of the register interface (R360) and an FP32 or INT32 element. -/
abbrev W32 := BitVec 32
/-- A word of an instruction store, a hop tag, a hart register. -/
abbrev W64 := BitVec 64

/-- Keys, ciphertexts and signatures of the management port (R386): of ML-KEM-1024 an encapsulation key or a ciphertext, 1,568 B, and a secret, 32 B; of
Falcon-1024 a public key, 1,793 B, and a signature in the padded form, 1,280 B. -/
abbrev KemText := BitVec 12544
abbrev KemSecret := BitVec 256
abbrev FalconKey := BitVec 14344
abbrev FalconSig := BitVec 10240

/-- A store keyed by a number: the list of its cells, keys strictly rising, none equal to what an unlisted key reads as.
`Sparse Byte` is a list of (address, byte) pairs. -/
abbrev Sparse (α : Type) := List (Nat × α)

/-- Bits [lo+len-1:lo] of `n`. -/
def bitsOf (n lo len : Nat) : Nat := n / 2 ^ lo % 2 ^ len

/-- Bit `i` of `n`. -/
def bitOf (n i : Nat) : Bool := n / 2 ^ i % 2 == 1

/-- `n` with bits [lo+len-1:lo] replaced by `v`. -/
def withBits (n lo len v : Nat) : Nat :=
  n - bitsOf n lo len * 2 ^ lo + (v % 2 ^ len) * 2 ^ lo

/-- A Bool as 0 or 1. -/
def b2n (b : Bool) : Nat := if b then 1 else 0

/-- `n`, read as a two's complement number of `w` bits. -/
def toSigned (w n : Nat) : Int := if n % 2 ^ w < 2 ^ (w - 1) then (n % 2 ^ w : Nat) else (n % 2 ^ w : Nat) - (2 ^ w : Nat)

/-- The two's complement encoding of `z` in `w` bits. -/
def fromSigned (w : Nat) (z : Int) : Nat := (z % (2 ^ w : Nat)).toNat

/-- The little-endian bytes of `v`, `n` of them. -/
def bytesOf : Nat → Nat → List Byte
  | 0, _ => []
  | n + 1, v => BitVec.ofNat 8 v :: bytesOf n (v / 256)

/-- The number that little-endian bytes hold. -/
def ofBytes : List Byte → Nat
  | [] => 0
  | b :: bs => b.toNat + 256 * ofBytes bs

/-- Ceiling division. -/
def ceilDiv (a b : Nat) : Nat := (a + b - 1) / b

end Sys2Proof
end

