-- ==== Sys2Proof/Engine.lean ====
section
/-!
DEFINITION. The instructions of the Gouge and Skew cores as syntax (Tables 8.2, 8.4 and 8.6).
One constructor per opcode of Table 8.1, TWAIT by its forms; fields are numbers in the widths of the tables.
-/
namespace Sys2Proof

/-- An engine instruction (R199, R204, R212, R217). -/
inductive EngInstr where
  /-- END (0x01). -/
  | endProg
  /-- LOOP (0x02). -/
  | loop (level target count : Nat)
  /-- DELAY (0x03). -/
  | delay (n : Nat)
  /-- TSIG (0x04). -/
  | tsig (c drain : Bool) (die slot count : Nat)
  /-- TWAIT (0x05), form 0: count. -/
  | twaitCount (slot count : Nat)
  /-- TWAIT (0x05), form 1: tick-aligned. -/
  | twaitTick (slot count tick : Nat)
  /-- TWAIT (0x05), form 2: landing. -/
  | twaitLand (tile : Nat)
  /-- QREQ (0x06). -/
  | qreq (queue loc lenM1 addr : Nat) (axen : Bool) (ax : Nat)
  /-- QWAIT (0x07). -/
  | qwait (queue num : Nat)
  /-- BUBBLE (0x08). -/
  | bubble (w : Bool) (n : Nat)
  /-- HINT (0x09). -/
  | hint (arrays lead length : Nat) (vec : Bool)
  /-- SETOP (0x0A). -/
  | setop (point : Nat)
  /-- SEND (0x0B). -/
  | send (c mode dir near : Bool) (src xferLast retire bufLine tile : Nat)
  /-- AXSET (0x0C); the value is its 48-bit two's complement encoding. -/
  | axset (add : Bool) (reg value : Nat)
  /-- CEXP (0x0D). -/
  | cexp (path tile due : Nat)
  /-- WLD (0x10). -/
  | wld (transpose : Bool) (array fmt kM1 ncode src pitch scale : Nat)
  /-- WSWAP (0x11). -/
  | wswap (mask : Nat)
  /-- RS (0x12); with a descriptor when the EPI flag is set. -/
  | rs (swap transpose : Bool) (epi : Option Nat) (mask mode m row pitch fmt wbase scale tile : Nat)
  /-- EPI (0x13). -/
  | epi (int c : Bool) (mask wbase m ncode desc tile : Nat)
  /-- TBLD (0x14). -/
  | tbld (slot src : Nat)
  /-- CHOUT (0x15). -/
  | chout (c : Bool) (array wbase m ncode dkind bufLine retire : Nat) (dir : Bool) (tile own : Nat)
  /-- CHIN (0x16). -/
  | chin (int : Bool) (array wbase m ncode bufLine tile : Nat)
  /-- VFP (0x20). -/
  | vfp (vd va vb vc func vl : Nat)
  /-- VBF (0x21). -/
  | vbf (vd va vb vc func vl : Nat)
  /-- VINT (0x22). -/
  | vint (sat : Bool) (vd va vb vc func vl : Nat)
  /-- VSFU (0x23). -/
  | vsfu (packed : Bool) (vd va func vl : Nat)
  /-- VRED (0x24). -/
  | vred (vd va func vl : Nat)
  /-- VPERM (0x25). -/
  | vperm (vd va vb func vl : Nat)
  /-- VCVT (0x26). -/
  | vcvt (sat sr : Bool) (vd va srcFmt dstFmt vl tile : Nat)
  /-- SLD (0x27). -/
  | sld (v unit vl : Nat)
  /-- SST (0x28). -/
  | sst (v unit vl : Nat)
  /-- SPUSH (0x29). -/
  | spush (unit countM1 tag offset : Nat)
  /-- VIMM (0x2A). -/
  | vimm (vd imm vl : Nat)
  deriving DecidableEq, Repr

/-- The mnemonics of Table 8.1: TWAIT's forms are one. -/
inductive EngOp where
  | endProg | loop | delay | tsig | twait | qreq | qwait | bubble | hint | setop | send | axset | cexp
  | wld | wswap | rs | epi | tbld | chout | chin
  | vfp | vbf | vint | vsfu | vred | vperm | vcvt | sld | sst | spush | vimm
  deriving DecidableEq, Repr

/-- The mnemonic of an instruction. -/
def EngInstr.op : EngInstr → EngOp
  | .endProg => .endProg
  | .loop .. => .loop
  | .delay .. => .delay
  | .tsig .. => .tsig
  | .twaitCount .. => .twait
  | .twaitTick .. => .twait
  | .twaitLand .. => .twait
  | .qreq .. => .qreq
  | .qwait .. => .qwait
  | .bubble .. => .bubble
  | .hint .. => .hint
  | .setop .. => .setop
  | .send .. => .send
  | .axset .. => .axset
  | .cexp .. => .cexp
  | .wld .. => .wld
  | .wswap .. => .wswap
  | .rs .. => .rs
  | .epi .. => .epi
  | .tbld .. => .tbld
  | .chout .. => .chout
  | .chin .. => .chin
  | .vfp .. => .vfp
  | .vbf .. => .vbf
  | .vint .. => .vint
  | .vsfu .. => .vsfu
  | .vred .. => .vred
  | .vperm .. => .vperm
  | .vcvt .. => .vcvt
  | .sld .. => .sld
  | .sst .. => .sst
  | .spush .. => .spush
  | .vimm .. => .vimm

end Sys2Proof
end

