-- ==== Sys2Proof/Facts.lean ====
section
/-!
DEFINITION. What the surroundings supply to a command: faults, errors, measured values (log entry 5).
-/
namespace Sys2Proof

/-- Faults of the surroundings that a row stream meets (R305, R60, R61, R309). -/
inductive RowFaultKind where
  /-- The check column disagrees; of a row that it does not check this is no fault (R305). -/
  | mismatch
  /-- The two copies of an aligner, or the Accumulate adder's check, disagree (R62, R309). -/
  | aligner
  /-- A weight-register parity error. -/
  | parity
  deriving DecidableEq, Repr

/-- A fault in a row of a stream on one logical array. -/
structure RowFault where
  row : Nat
  array : Nat
  kind : RowFaultKind
  deriving DecidableEq, Repr

/-- What the surroundings do to an instruction's checks: row faults; rows of an epilogue or slices of a Skew form that
mismatch, and those that mismatch again on re-execution (R309, R311). -/
structure EngFacts where
  rowFaults : List RowFault := []
  mismatch : List Nat := []
  again : List Nat := []
  /-- Rows of a chain-in that mismatch on the spare that took over, and again there (R306, R309). -/
  onSpare : List Nat := []
  spareAgain : List Nat := []
  /-- SRAM units that the instruction reads with a double-bit error (R313), and corrected words (R312). -/
  doubleErr : List Nat := []
  corrected : Nat := 0
  /-- Double-bit errors in 64 B units of accumulators, as (logical array, unit), and of Skew registers, as (register, unit), in 64 B
  units of the instruction store or memory, and in the tables that an evaluation reads, by element (R313). -/
  accErr : List (Nat × Nat) := []
  vecErr : List (Nat × Nat) := []
  codeErr : List Nat := []
  tableErr : List Nat := []
  /-- Its first write to the buffer falls in the cycle of the write before it (R26). -/
  same : Bool := false
  deriving DecidableEq, Repr

/-- What the checks of a withheld row's re-issue find (R60, R61, R306, R307): a disagreement or a weight-parity error, of the re-issue
itself and of the row's issue to a spare that takes over at once; and words that the reload's reads correct (R312). -/
structure ReissueFacts where
  again : Bool := false
  parity : Bool := false
  onSpare : Bool := false
  parityOnSpare : Bool := false
  corrected : Nat := 0
  deriving DecidableEq, Repr

/-- What the surroundings do to a transfer at the station that copies or retires it (R33), and to an injection register's
random choice (R353). -/
structure HopFacts where
  /-- Single-bit errors corrected. -/
  corrected : Nat := 0
  tagBad : Bool := false
  /-- Units with uncorrectable data, as a mask. -/
  dataBad : Nat := 0
  deriving DecidableEq, Repr

/-- What the SRAM of a landing buffer does to the transfer that it releases (R312, R313): words corrected, and units found with a double-bit
error, as a mask. -/
structure LandFacts where
  corrected : Nat := 0
  doubleErr : Nat := 0
  deriving DecidableEq, Repr

/-- A period that the monitors of a quarter's generator see (R266): stretched or not, its length in thousandths of the nominal
period, and the duty cycle over 16 periods in thousandths. -/
structure ClockSample where
  stretched : Bool
  period : Nat
  duty : Nat
  deriving DecidableEq, Repr

/-- The regulators' inputs at a tick edge (Table 11.5, R278): `SUPPLY_ALERT_N` low, input and intermediate bus in mV, input
current in mA, a vertical stage above its current limit or above 125 °C. -/
structure SupplySample where
  carrierLow : Bool
  vin : Nat
  ibc : Nat
  iin : Nat
  stageOver : Bool
  stageHot : Bool
  deriving DecidableEq, Repr

/-- The busbar's voltage and current as measured at 1 MHz (R283): power in W, voltage in units of 10 mV, current in units of 10 mA. -/
structure PowerFacts where
  power : Nat
  vin : Nat
  iin : Nat
  deriving DecidableEq, Repr

/-- The sensors in one tick (R298, R300): the highest junction reading of each die as (die, °C), the hottest package of each Sapwood half
as (its Tailstock, °C), coolant at the inlet and at the outlet in °C, the resistance of the thermistor on `COOL_TEMP` in Ω and the reading that it converts to in °C (R433),
`LEAK_N` low in this sample and also in the one before, the cold-plate sensor wet. -/
structure SensorSample where
  junction : List (Nat × Nat) := []
  sapwood : List (Nat × Nat) := []
  inlet : Nat := 0
  outlet : Nat := 0
  carrierOhms : Nat := 10000
  carrier : Nat := 25
  leakLow : Bool := false
  leakTwice : Bool := false
  wet : Bool := false
  deriving DecidableEq, Repr

/-- Errors of one 64 B block as a controller reads it (R316, R318, R319): the block's place among those read, and the lane of each
byte in error. -/
structure BlockErr where
  block : Nat
  lanes : List Nat
  deriving DecidableEq, Repr

/-- What a Tailstock's accesses meet: block errors, transfers that link ECC corrected (R318), corrected words of the cache (R312). -/
structure SapFacts where
  errs : List BlockErr := []
  linkCorrected : Nat := 0
  /-- Single-bit errors of the cache's SRAM that the access corrects (R312). -/
  sramCorrected : Nat := 0
  deriving DecidableEq, Repr

/-- A whittle message that a Headstock core sends (Table 6.10): header fields and payload words, its `LEN` being their number; and the operating
point and cycle of the stamp of a counted token signal (R172). -/
structure HsMessage where
  arg : BitVec 16
  count : BitVec 16
  payload : List W64
  counted : Option (Nat × Nat) := none
  deriving DecidableEq, Repr

/-- A whittle message on arrival (R163): an uncorrectable header, uncorrectable payload words as a mask, and the message itself
where a Headstock core sends it. -/
structure WhittleFacts where
  headerBad : Bool := false
  bad : Nat := 0
  hs : Option HsMessage := none
  deriving DecidableEq, Repr

/-- A chunk message (Tables 5.5, 5.6): its header, and its data as one little-endian number of `bytes` bytes. -/
structure ChunkMsg where
  hdr : BitVec 128
  data : Nat := 0
  bytes : Nat := 0
  deriving DecidableEq, Repr

/-- What an HCT packet carries (R336). -/
inductive HctBody where
  | data (msgs : List ChunkMsg)
  | ack (ackPsn sack marked all : Nat)
  | ctrl (kind : Nat) (payload : BitVec 256)
  deriving DecidableEq, Repr

/-- A received HCT packet (R336): its header of Table 13.6, its chunk messages or its control message, its CRC-32C, the sender's endpoint record
(Table 13.5), and, where the module holds no rank of its own for the packet, whether `DST_RANK` names it (log entry 109). -/
structure HctIn where
  hdr : BitVec 256
  msgs : List ChunkMsg := []
  ctrl : BitVec 256 := 0
  crc : W32
  src : Nat
  rankOk : Bool := true
  deriving DecidableEq, Repr

/-- What a RoCEv2 packet asks or answers (R341, R342). -/
inductive RoceBody where
  | read (key : W32) (addr len : Nat)
  /-- Data and the poison of its 64 B units (R313). -/
  | write (key : W32) (addr len data bad : Nat)
  | send (len data : Nat)
  /-- An operation that is not implemented. -/
  | other
  /-- A positive acknowledgement, or a packet of a READ response with its data and their poison. -/
  | done (data bad : Nat)
  /-- A NAK: 0 PSN sequence, 1 invalid request, 2 remote access, 3 remote operation, 4 RNR. -/
  | nak (code : Nat)
  deriving DecidableEq, Repr

/-- A received RoCEv2 packet: whether its ICRC holds, its QP and PSN. -/
structure RoceIn where
  icrcOk : Bool
  qpn : Nat
  psn : Nat
  body : RoceBody
  deriving DecidableEq, Repr

/-- The payload of a UDP datagram. -/
inductive UdpBody where
  | hct (p : HctIn)
  | roce (p : RoceIn)
  | raw
  deriving DecidableEq, Repr

/-- The classes of a frame that Table 13.3 tells apart. -/
inductive FrameBody where
  | eapol
  /-- A PFC frame: the pause quanta of each priority that it names. -/
  | pfc (quanta : List (Nat × Nat))
  /-- A PTP event or general message over any transport, with good checksums where it has any. -/
  | ptp (sumOk : Bool)
  /-- A UDP packet: destination address, IPv4, good checksums, UDP port. -/
  | udp (dst : BitVec 128) (v4 sumOk : Bool) (port : Nat) (body : UdpBody)
  /-- Any other IP packet: destination address, IPv4, a good IPv4 header checksum. -/
  | ip (dst : BitVec 128) (v4 sumOk : Bool)
  | other
  deriving DecidableEq, Repr

/-- The MACsec tag of a frame: its AN and packet number, and whether its ICV holds under the key of that SA (R344). -/
structure SecTag where
  an : Bool
  pn : Nat
  icvOk : Bool
  deriving DecidableEq, Repr

/-- A frame that reaches a port (R331): FCS good, length and bytes, destination, VLAN tag, MACsec tag, ECN mark, the 32 bits at
`INJ_OFF`, the fraction of the tick at its start-of-frame delimiter in units of 2^-16 ns, and the codewords that the FEC corrected and
could not correct with it (Table 13.10). -/
structure FrameIn where
  fecCorrected : Nat := 0
  fecFailed : Nat := 0
  fcsOk : Bool
  len : Nat
  raw : Nat
  dst : BitVec 48
  vlan : Option Nat
  sec : Option SecTag
  ecn : Fin 4
  word : W32
  frac : Nat
  body : FrameBody
  deriving DecidableEq, Repr

/-- Whether a frame carries a CE mark (R333, RFC 3168). -/
def FrameIn.marked (f : FrameIn) : Bool := f.ecn == 3

/-- A frame that a Headstock sends through a Net station (R332, Table 13.4, kind 3). -/
structure HostTile where
  hdr : BitVec 512
  frame : Nat
  deriving DecidableEq, Repr

/-- A ring-native block on arrival (R348, R349): CRC good, sequence number, blocks that the far end acknowledges below, transfers of
credit that it returns, whether it asks for a replay, the far tag, index of the first transfer in its tile, and up to four
transfers with their poison; none in a block that only acknowledges. -/
structure NativeIn where
  crcOk : Bool
  seq : Nat
  ack : Nat
  credit : Nat
  again : Bool
  farTag : W64
  first : Nat
  xfers : List (Nat × Nat)
  deriving DecidableEq, Repr

/-- What happens to a port's link (R347, Table 13.10): loss of light, loss of the far end, or Local Fault and Remote Fault ordered sets
received or no longer received. -/
inductive LinkLoss where
  | light
  | farEnd
  | faults (localFault remoteFault : Bool)
  deriving DecidableEq, Repr

/-- What a training of a port's link finds: whether the far end runs ring-native framing, and its module's serial (R348, R349). -/
structure TrainFacts where
  native : Bool
  serial : W64
  deriving DecidableEq, Repr

/-- A stage-2 copy (R394): its magic, rollback index, stated image length and digest, the vendor's signature, the owner's key and
signature where it has one, and the image. -/
structure StageCopy where
  magic : W32
  rollback : Nat
  length : Nat
  digest : BitVec 512
  vendorSig : FalconSig
  owner : Option (FalconKey × FalconSig)
  image : List Byte
  deriving DecidableEq, Repr

/-- A configuration block (R383, R394): its 4 KiB, the addresses of the management port that it holds, whose places in it the spec leaves open, and the
owner slot, the key and the signature under which it is signed. -/
structure ConfigBlock where
  bytes : List Byte
  v4 : Option W32 := none
  v6 : List (BitVec 128) := []
  slot : Nat
  key : FalconKey
  sig : FalconSig
  deriving DecidableEq, Repr

/-- What a FLASH_WRITE writes, at an address of boot flash (R384, R394, R395, Table 15.6): the header of a stage-2 copy with the first bytes of its image,
with whether rollback fuses are to be blown and an owner boot key digest to be fused; further bytes of an image; or the configuration block. -/
inductive FlashImage where
  | stage (addr : W32) (copy : StageCopy) (blow : Bool) (ownerBoot : Option (BitVec 512))
  | more (addr : W32) (bytes : List Byte)
  | config (addr : W32) (block : ConfigBlock)
  deriving DecidableEq, Repr

/-- What a start-up step finds (Table 16.2). -/
structure StartFacts where
  /-- The step's work fails for a cause that no other field names. -/
  failed : Bool := false
  /-- Step 2. Copies A and B of boot flash as shipped. What stage 2 measures that no command changes: the OS image, the Governor firmware and the
  Faceplate engine firmware. The FRU EEPROM is unreadable, or its check or its serial is wrong. -/
  shipped : List (Option StageCopy) := []
  osImage : List Byte := []
  govFirmware : List Byte := []
  fpeFirmware : List Byte := []
  fruBad : Bool := false
  /-- Step 3. Failed lanes of channel instances as (Heartwood die, channel, lanes), and failed rows of banks as (Heartwood die, channel,
  bank, rows) (R234). -/
  lanes : List (Nat × Nat × Nat) := []
  rows : List (Nat × Nat × Nat × Nat) := []
  /-- Step 4. Transits of test transfers as measured, as (4 × die + quarter, point, hop class, receiving cycles): hop classes 1 to 29 of Table
  7.1, and 30, 31 and 32 for the whittle classes of Table 7.2 in its order; a link with too few spare wires by die and station. -/
  transits : List (Nat × Nat × Nat × Nat) := []
  linkBad : Option (Nat × Nat) := none
  /-- Step 6. Ports whose lanes could not all be placed, ports with a ring that cannot be locked, and `FPP.TUNE` by port. -/
  disabled : List Nat := []
  unlocked : List Nat := []
  tune : List (Nat × W32) := []
  /-- Step 7. Arrays that fail, as a mask, by 24 × die + core; a Skew slice that fails by die, core and slice. -/
  badArrays : List (Nat × Nat) := []
  badSlice : Option (Nat × Nat × Nat) := none
  deriving DecidableEq, Repr

/-- A request on a management connection (Table 15.1): the connection, the header's fields beside `CMD`, the payload, whose bytes are `LEN`, and the tag.
What a command's operands name is what its payload says; but for HELLO, ENCAP, ATTEST and MBOX_PUT the spec gives the payload no layout. -/
structure MgmtReq where
  conn : Nat
  ver : Byte := 1
  status : BitVec 16 := 0
  session : W32 := 0
  seq : Nat
  rsvd : W32 := 0
  payload : List Byte := []
  tag : BitVec 256 := 0
  deriving DecidableEq, Repr

/-- How the carrier addresses a target on its bus (R434): in I2C mode, or in I3C SDR mode by a dynamic address. -/
inductive BusAddr where
  | i2c (addr : BitVec 7)
  | i3c (addr : BitVec 7)
  deriving DecidableEq, Repr

/-- A register access of REG_READ or REG_WRITE: the offset in register space with its view (R359), 8 B or 4 B, and the value that a
write carries. -/
structure RegAccess where
  addr : BitVec 32
  wide : Bool
  value : W64 := 0
  deriving DecidableEq, Repr

/-- An access that a Headstock core makes to the address map (R379): 1 to 8 B, or of its DMA unit one block of 64 B to 4 KiB; a store's
value, and whether a user process makes it (R380). -/
structure HsAccess where
  addr : BitVec 48
  bytes : Nat
  store : Option Nat := none
  user : Bool := false
  deriving DecidableEq, Repr

/-- What HEADSTOCK_ACCESS_FAULT carries out for a Headstock core (R379, R380). -/
inductive HsLoad where
  /-- An access, which may fault. -/
  | access (a : HsAccess)
  /-- A load of a poisoned word from its cache, in a user process, or in the kernel or the management firmware. -/
  | poisonUser (addr : BitVec 48)
  | poisonKernel (addr : BitVec 48)
  /-- A double-bit error in the line of its cache that holds an address of the carve-out (R314). -/
  | cacheError (addr : BitVec 48) (dirty : Bool)
  /-- What the image does with the mailboxes in the carve-out (R391): it takes the oldest inbound entry, or adds an outbound one addressed
  to a session or to 0. -/
  | mailTake
  | mailPut (session : Nat) (bytes : List Byte)
  deriving DecidableEq, Repr

end Sys2Proof
end

