-- ==== Sys2Proof/Syntax.lean ====
section
/-!
DEFINITION. The commands of the block, one constructor for each row of the command table. The table gives no operand
fields; operands are where a command acts and what the surroundings supply to it (log entry 5).
-/
namespace Sys2Proof

/-- A command of the block: one row of the command table. -/
inductive Instr where
  /-- TRANSFER_HOP (R18). -/
  | transferHop (d : Fin 8) (path : Fin 4) (st : Fin 30) (f : HopFacts)
  /-- STARVE_ASSERT (R20). -/
  | starveAssert (d : Fin 8) (dir : Fin 2) (st : Fin 30)
  /-- PORT_TILE_ARRIVE (R28). -/
  | portTileArrive (d : Fin 8) (st : Fin 30)
  /-- CREDIT_RETURN (R28). -/
  | creditReturn (d : Fin 8) (st : Fin 30)
  /-- TRANSFER_RELEASE (R259). -/
  | transferRelease (d : Fin 8) (path : Fin 4) (st : Fin 30) (same : Bool) (f : LandFacts)
  /-- SLIP_HOLD (R261). -/
  | slipHold (d : Fin 8) (q : Fin 4)
  /-- COUNTED_TILE_WAIT_END (R260). -/
  | countedTileWaitEnd (d : Fin 8) (path : Fin 4) (st : Fin 30)
  /-- STARVE_MAX_CLR (R34). -/
  | starveMaxClr (d : Fin 8) (st : Fin 30) (v : W32)
  /-- END (R205). -/
  | endProgram (d : Fin 8) (c : Fin 24) (corrected : Nat)
  /-- LOOP (R205). -/
  | loop (d : Fin 8) (c : Fin 24) (corrected : Nat)
  /-- DELAY (R205). -/
  | delay (d : Fin 8) (c : Fin 24) (corrected : Nat)
  /-- DELAY_EXPIRE (R205). -/
  | delayExpire (d : Fin 8) (c : Fin 24)
  /-- TSIG (R207). -/
  | tsig (d : Fin 8) (c : Fin 24) (corrected : Nat)
  /-- TSIG_DRAIN_DEPART (R207). -/
  | tsigDrainDepart (d : Fin 8) (c : Fin 24)
  /-- TWAIT (R208). -/
  | twait (d : Fin 8) (c : Fin 24) (corrected : Nat)
  /-- WAIT_SATISFIED (R156). -/
  | waitSatisfied (d : Fin 8) (q : Fin 4) (slot : Fin 512)
  /-- PHASE_START (R168). -/
  | phaseStart (d : Fin 8) (q : Fin 4)
  /-- QREQ (R206). -/
  | qreq (d : Fin 8) (c : Fin 24) (f : EngFacts)
  /-- QWAIT (R179). -/
  | qwait (d : Fin 8) (c : Fin 24) (corrected : Nat)
  /-- QUEUE_REQUEST_COMPLETE (R178). -/
  | queueRequestComplete (d : Fin 8) (c : Fin 24) (k : Fin 12) (same : Bool)
  /-- BUBBLE (R190). -/
  | bubble (d : Fin 8) (c : Fin 24) (corrected : Nat)
  /-- BACKFILL_SUSPEND (R192). -/
  | backfillSuspend (d : Fin 8) (c : Fin 24)
  /-- BUBBLE_WINDOW_END (R190). -/
  | bubbleWindowEnd (d : Fin 8) (c : Fin 24)
  /-- HINT (R290). -/
  | hint (d : Fin 8) (c : Fin 24) (corrected : Nat)
  /-- SETOP (R174). -/
  | setop (d : Fin 8) (c : Fin 24) (same : Bool) (corrected : Nat)
  /-- SEND (R210). -/
  | send (d : Fin 8) (c : Fin 24) (f : EngFacts)
  /-- AXSET (R205). -/
  | axset (d : Fin 8) (c : Fin 24) (corrected : Nat)
  /-- CEXP (R443). -/
  | cexp (d : Fin 8) (c : Fin 24) (corrected : Nat)
  /-- WLD (R37). -/
  | wld (d : Fin 8) (c : Fin 24) (f : EngFacts)
  /-- WSWAP (R40). -/
  | wswap (d : Fin 8) (c : Fin 24) (f : EngFacts)
  /-- RS (R41). -/
  | rs (d : Fin 8) (c : Fin 24) (f : EngFacts)
  /-- ROW_REISSUE (R60). -/
  | rowReissue (d : Fin 8) (c : Fin 24) (f : ReissueFacts)
  /-- WEIGHT_RELOAD_DONE (R61). -/
  | weightReloadDone (d : Fin 8) (c : Fin 24) (f : ReissueFacts)
  /-- EPI (R54). -/
  | epi (d : Fin 8) (c : Fin 24) (f : EngFacts)
  /-- PUSH_TILE_SEND (R106). -/
  | pushTileSend (d : Fin 8) (c : Fin 24) (corrected : Nat)
  /-- TBLD (R56). -/
  | tbld (d : Fin 8) (c : Fin 24) (f : EngFacts)
  /-- CHOUT (R58). -/
  | chout (d : Fin 8) (c : Fin 24) (f : EngFacts)
  /-- CHIN (R59). -/
  | chin (d : Fin 8) (c : Fin 24) (f : EngFacts)
  /-- CHAIN_IN_START (R59). -/
  | chainInStart (d : Fin 8) (c : Fin 24)
  /-- VFP (R140). -/
  | vfp (d : Fin 8) (c : Fin 24) (f : EngFacts)
  /-- VBF (R140). -/
  | vbf (d : Fin 8) (c : Fin 24) (f : EngFacts)
  /-- VINT (R140). -/
  | vint (d : Fin 8) (c : Fin 24) (f : EngFacts)
  /-- VSFU (R141). -/
  | vsfu (d : Fin 8) (c : Fin 24) (f : EngFacts)
  /-- VRED (R142). -/
  | vred (d : Fin 8) (c : Fin 24) (f : EngFacts)
  /-- VPERM (R143). -/
  | vperm (d : Fin 8) (c : Fin 24) (f : EngFacts)
  /-- VCVT (R144). -/
  | vcvt (d : Fin 8) (c : Fin 24) (f : EngFacts)
  /-- SLD (R220). -/
  | sld (d : Fin 8) (c : Fin 24) (f : EngFacts)
  /-- SST (R220). -/
  | sst (d : Fin 8) (c : Fin 24) (f : EngFacts)
  /-- SPUSH (R146). -/
  | spush (d : Fin 8) (c : Fin 24) (f : EngFacts)
  /-- VIMM (R217). -/
  | vimm (d : Fin 8) (c : Fin 24) (f : EngFacts)
  /-- HART_START (R148). -/
  | hartStart (d : Fin 8) (q h : Fin 4)
  /-- HART_STOP (R148). -/
  | hartStop (d : Fin 8) (q h : Fin 4)
  /-- HART_INSTRUCTION (R148). -/
  | hartInstruction (d : Fin 8) (q h : Fin 4) (f : EngFacts)
  /-- HART_EXTERNAL_ACCESS (R149). -/
  | hartExternalAccess (d : Fin 8) (q h : Fin 4)
  /-- QPUSH (R222). -/
  | qpush (d : Fin 8) (q h : Fin 4)
  /-- HART_QWAIT (R150). -/
  | hartQwait (d : Fin 8) (q h : Fin 4)
  /-- TKSIG (R155). -/
  | tksig (d : Fin 8) (q h : Fin 4)
  /-- TKWAIT (R156). -/
  | tkwait (d : Fin 8) (q h : Fin 4)
  /-- CB_TAKE (R156). -/
  | cbTake (d : Fin 8) (q h : Fin 4)
  /-- CB_READ (R150). -/
  | cbRead (d : Fin 8) (q h : Fin 4)
  /-- CB_SET (R156). -/
  | cbSet (d : Fin 8) (q h : Fin 4)
  /-- CB_MASK (R157). -/
  | cbMask (d : Fin 8) (q h : Fin 4)
  /-- CB_LOG (R158). -/
  | cbLog (d : Fin 8) (q h : Fin 4)
  /-- SE_START (R152). -/
  | seStart (d : Fin 8) (q h : Fin 4)
  /-- SE_STAT (R150). -/
  | seStat (d : Fin 8) (q h : Fin 4)
  /-- WSEND (R161). -/
  | wsend (d : Fin 8) (q h : Fin 4)
  /-- WSEND_TIMEOUT (R163). -/
  | wsendTimeout (d : Fin 8) (q h : Fin 4)
  /-- WRECV (R150). -/
  | wrecv (d : Fin 8) (q h : Fin 4) (bad : BitVec 32)
  /-- TICK (R150). -/
  | tick (d : Fin 8) (q h : Fin 4)
  /-- STREAM_REQUEST_GRANT (R245). -/
  | streamRequestGrant (d : Fin 8) (q : Fin 4) (e : Fin 2)
  /-- STREAM_ENTRY_COMPLETE (R243). -/
  | streamEntryComplete (d : Fin 8) (q : Fin 4) (t : Fin 32)
  /-- PARTING_RECEIVE (R153). -/
  | partingReceive (d : Fin 8) (q path : Fin 4)
  /-- EPOCH_RETRY (R246). -/
  | epochRetry (d : Fin 8) (q : Fin 4) (t : Fin 32)
  /-- DEADLINE_MISS (R247). -/
  | deadlineMiss (d : Fin 8) (q : Fin 4) (t : Fin 32)
  /-- BOARD_ARRIVAL (R155). -/
  | boardArrival (d : Fin 8) (q : Fin 4) (err : Bool)
  /-- MAIL (R161). -/
  | mail (src dst : Byte) (f : WhittleFacts)
  /-- SLOT_ADD (R161). -/
  | slotAdd (src dst : Byte) (f : WhittleFacts)
  /-- WRITE (R161). -/
  | whittleWrite (src dst : Byte) (f : WhittleFacts)
  /-- REFUSE (R161). -/
  | refuse (src dst : Byte) (f : WhittleFacts)
  /-- CE_OPEN (R112). -/
  | ceOpen (src dst : Byte) (f : WhittleFacts)
  /-- PUSH_TILE_ARRIVE (R115). -/
  | pushTileArrive (d : Fin 8)
  /-- PARKED_TILE_PROCEED (R115). -/
  | parkedTileProceed (d : Fin 8)
  /-- FORWARDED_VALUES_ARRIVE (R113). -/
  | forwardedValuesArrive (d : Fin 8)
  /-- CHUNK_CONVERT (R118). -/
  | chunkConvert (d : Fin 8) (slot : Fin 1024) (k : Nat)
  /-- GRAIN_CHUNK (R124). -/
  | grainChunk (d : Fin 8)
  /-- OVERFLOW (R126). -/
  | overflow (d : Fin 8)
  /-- PREPASS (R120). -/
  | prepass (d : Fin 8)
  /-- GRAIN_RESULT (R124). -/
  | grainResult (d : Fin 8)
  /-- REDO (R127). -/
  | redo (d : Fin 8)
  /-- BF16_CHUNK (R127). -/
  | bf16Chunk (d : Fin 8)
  /-- BF16_RESULT (R127). -/
  | bf16Result (d : Fin 8)
  /-- SCALE_BYTES (R119). -/
  | scaleBytes (d : Fin 8)
  /-- GATHER_CHUNK (R129). -/
  | gatherChunk (d : Fin 8)
  /-- BUCKET_STALLED (R134). -/
  | bucketStalled (d : Fin 8) (slot : Fin 1024)
  /-- FB_LOG_BASE_WRITE (R421). -/
  | fbLogBaseWrite (d : Fin 8) (hi : Bool) (v : W32)
  /-- LOAD_IMAGE (R186). -/
  | loadImage (job : Nat) (d : Fin 8) (rank : Nat) (layout : List Nat) (points : List (Fin 8)) (bytes : List Byte)
  /-- JOB_UNLOAD (R186). -/
  | jobUnload
  /-- PART_ADMIT (R229). -/
  | partAdmit (d : Fin 8) (c : Fin 24) (same : Bool)
  /-- PART_SERVE (R231). -/
  | partServe (d : Fin 8) (c : Fin 24) (bank : Fin 32) (errs : List BlockErr)
  /-- REFRESH (R231). -/
  | refresh (d : Fin 8) (c : Fin 24) (bank : Fin 32)
  /-- SCRUB_READ (R235). -/
  | scrubRead (d : Fin 8) (c : Fin 24) (lanes : List Nat)
  /-- READ_AHEAD_FILL (R236). -/
  | readAheadFill (d : Fin 8) (c : Fin 24) (requester : Fin 37) (errs : List BlockErr)
  /-- READ_AHEAD_LAND (R236). -/
  | readAheadLand (d : Fin 8) (c : Fin 24)
  /-- SAPWOOD_REQUEST (R239). -/
  | sapwoodRequest (t : Fin 2) (src : Fin 9) (f : SapFacts)
  /-- SAPWOOD_MISS_FILL (R240). -/
  | sapwoodMissFill (t : Fin 2) (f : SapFacts)
  /-- SAPWOOD_PREFETCH (R241). -/
  | sapwoodPrefetch (t : Fin 2) (j : Fin 64)
  /-- PREFETCH_LAND (R241). -/
  | prefetchLand (t : Fin 2) (f : SapFacts)
  /-- SRAM_WRITEBACK (R312). -/
  | sramWriteback (d : Fin 8) (c : Fin 24)
  /-- CACHE_LINE_REFETCH (R314). -/
  | cacheLineRefetch (t : Fin 2) (line : Nat) (f : SapFacts)
  /-- OP_REQ_WRITE (R255). -/
  | opReqWrite (d : Fin 8) (q : Fin 4) (v : W32)
  /-- RAIL_RAMP_COMPLETE (R257). -/
  | railRampComplete (d : Fin 8) (q : Fin 4)
  /-- REGION_HOLD_BEGIN (R257). -/
  | regionHoldBegin (d : Fin 8) (q : Fin 4)
  /-- GENERATOR_LOCK (R257). -/
  | generatorLock (d : Fin 8) (q : Fin 4)
  /-- REGION_HOLD_RESUME (R257). -/
  | regionHoldResume (d : Fin 8) (q : Fin 4)
  /-- HOLD_OVERRUN (R266). -/
  | holdOverrun (d : Fin 8) (q : Fin 4)
  /-- OP_CHANGE_STALLED (R267). -/
  | opChangeStalled (d : Fin 8) (q : Fin 4)
  /-- PERIOD_STRETCH (R264). -/
  | periodStretch (d : Fin 8) (q : Fin 4) (eighths : Fin 9)
  /-- DROOP_FLAG_CLEAR (R265). -/
  | droopFlagClear (d : Fin 8) (q : Fin 4)
  /-- DROOP_LIMIT_RELEASE (R265). -/
  | droopLimitRelease (d : Fin 8) (q : Fin 4)
  /-- REGION_CLOCK_FAULT (R266). -/
  | regionClockFault (d : Fin 8) (q : Fin 4) (c : ClockSample)
  /-- REGULATOR_ALERT (R295). -/
  | regulatorAlert (f : SupplySample)
  /-- ALERT_CLEAR_INTERVAL_END (R296). -/
  | alertClearIntervalEnd
  /-- ALERT_RELEASE (R296). -/
  | alertRelease (v : W32)
  /-- TICK_SET (R269). -/
  | tickSet (v : W32)
  /-- ADJ_PHASE (R269). -/
  | adjPhase (v : W32)
  /-- HOLDOVER (R270). -/
  | holdover
  /-- SLIP_MAX_CLR (R275). -/
  | slipMaxClr (d : Fin 8) (q : Fin 4) (v : W32)
  /-- GOVERNOR_PERIOD (R285). -/
  | governorPeriod
  /-- GOVERNOR_RESULTS_EFFECT (R282). -/
  | governorResultsEffect
  /-- SHARE_UPDATE (R292). -/
  | shareUpdate
  /-- CAP_UNMET (R287). -/
  | capUnmet
  /-- GOV_CAP_WRITE (R286). -/
  | govCapWrite (v : W32)
  /-- GOV_FAIL (R281). -/
  | govFail (g : Fin 2)
  /-- GOVERNOR_MISSING (R281). -/
  | governorMissing
  /-- POWER_SAMPLE (R283). -/
  | powerSample (f : PowerFacts)
  /-- CAP_STATUS_SEND (R293). -/
  | capStatusSend
  /-- CAP_STATUS (R293). -/
  | capStatus
  /-- EXCHANGE_TARGETS (R293). -/
  | exchangeTargets
  /-- VIN_OVER (R278). -/
  | vinOver (mv : Nat)
  /-- POWER_LOSS (R278). -/
  | powerLoss (mv ticks : Nat)
  /-- OVERCURRENT_STOP (R279). -/
  | overcurrentStop (ma ticks : Nat)
  /-- TRIP (R300). -/
  | trip (f : SensorSample)
  /-- FRAME_RECEIVE (R331). -/
  | frameReceive (p : Fin 104) (f g : FrameIn)
  /-- PFC_FRAME (R333). -/
  | pfcFrame (p : Fin 104)
  /-- HOST_FRAME (R332). -/
  | hostFrame (d : Fin 8) (hs : Option HostTile) (frac : Nat)
  /-- REMOTE_REQUEST (R334). -/
  | remoteRequest (d : Fin 8)
  /-- RING_NATIVE_SEND (R348). -/
  | ringNativeSend (d : Fin 8)
  /-- RING_NATIVE_BLOCK (R348). -/
  | ringNativeBlock (p : Fin 104) (b g : NativeIn)
  /-- HCT_ACK (R337). -/
  | hctAck (d : Fin 8)
  /-- HCT_ACK_SEND (R337). -/
  | hctAckSend (d : Fin 8) (rank : Nat) (ce : Fin 8)
  /-- HCT_RETRANSMIT_TIMEOUT (R337). -/
  | hctRetransmitTimeout (d : Fin 8) (rank : Nat) (ce : Fin 8)
  /-- FLOW_FATAL (R340). -/
  | flowFatal (d : Fin 8) (rank : Nat) (ce : Fin 8)
  /-- FLOW_EVICT (R337). -/
  | flowEvict (d : Fin 8) (rank : Nat) (ce : Fin 8)
  /-- CC_INCREASE (R339). -/
  | ccIncrease (d : Fin 8) (rank : Nat) (ce : Fin 8)
  /-- ROCE_READ_REQUEST (R342). -/
  | roceReadRequest (d : Fin 8)
  /-- ROCE_WRITE_REQUEST (R342). -/
  | roceWriteRequest (d : Fin 8)
  /-- ROCE_SEND_REQUEST (R342). -/
  | roceSendRequest (d : Fin 8)
  /-- ROCE_RESPONSE (R334). -/
  | roceResponse (d : Fin 8)
  /-- ROCE_ACK_TIMEOUT (R343). -/
  | roceAckTimeout (d : Fin 8) (q : Fin 1024)
  /-- SAK_LOAD (R344). -/
  | sakLoad (p : Fin 104) (v : W32)
  /-- TBL_STORE (R355). -/
  | tblStore (e : Fin 4) (v : W32)
  /-- LASER_INSERT (R327). -/
  | laserInsert (d : Fin 8) (grid lowPower : Bool)
  /-- LASER_REMOVE (R327). -/
  | laserRemove (d : Fin 8)
  /-- LASER_FAULT (R327). -/
  | laserFault (d : Fin 8) (lowPower : Bool)
  /-- RING_DITHER (R328). -/
  | ringDither (p : Fin 104) (margin : W32) (relocked : Option W32)
  /-- LINK_TRAIN_COMPLETE (R347). -/
  | linkTrainComplete (p : Fin 104) (f : TrainFacts)
  /-- LINK_DOWN (R347). -/
  | linkDown (p : Fin 104) (k : LinkLoss)
  /-- BYPASS_OPEN (R347). -/
  | bypassOpen (n : Fin 8)
  /-- BYPASS_CLOSE (R346). -/
  | bypassClose (n : Fin 8)
  /-- PACKAGE_LINK_REFUSE (R351). -/
  | packageLinkRefuse (d : Fin 8) (st : Fin 30)
  /-- FPP_INJ (R353). -/
  | fppInj (p : Fin 104) (v : W32)
  /-- BED_INJ (R357). -/
  | bedInj (d : Fin 8) (st : Fin 30) (v : W32)
  /-- GOUGE_CHK_INJ (R321). -/
  | gougeChkInj (d : Fin 8) (c : Fin 24) (v : W32)
  /-- SKEW_CHK_INJ (R321). -/
  | skewChkInj (d : Fin 8) (c : Fin 24) (v : W32)
  /-- REGISTER_WRITE (R366). -/
  | registerWrite (core : Fin 64) (a : RegAccess)
  /-- THROUGH_ACCESS_TIMEOUT (R362). -/
  | throughAccessTimeout
  /-- SHADOW_REFRESH (R361). -/
  | shadowRefresh
  /-- APPLY_MASK (R367). -/
  | applyMask (v : W32)
  /-- APPLY_STROBE (R367). -/
  | applyStrobe
  /-- CNT_CLR (R371). -/
  | cntClr (z : Fin 32) (idx : Fin 128) (v : W32)
  /-- LOCK (R369). -/
  | lock (z : Fin 32) (idx : Fin 128)
  /-- GRP_LOCK (R369). -/
  | grpLock (z : Fin 32) (idx : Fin 128)
  /-- SNAP_AT_TICK (R370). -/
  | snapAtTick (v : W32)
  /-- SNAPSHOT_LATCH (R370). -/
  | snapshotLatch
  /-- STATUS_RECORD_BUILD (R390). -/
  | statusRecordBuild
  /-- MGMT_CONNECT (R383). -/
  | mgmtConnect (conn : Nat)
  /-- MGMT_DISCONNECT (R385). -/
  | mgmtDisconnect (conn : Nat)
  /-- SESSION_TIMEOUT (R385). -/
  | sessionTimeout (conn : Nat)
  /-- HELLO (R386). -/
  | hello (r : MgmtReq) (nonce : BitVec 256) (want slot : Byte)
  /-- ENCAP (R387). -/
  | encap (r : MgmtReq) (ct : KemText) (signed : Option (FalconKey × FalconSig))
  /-- CLOSE (R388). -/
  | closeSession (r : MgmtReq)
  /-- STATUS (R390). -/
  | statusCmd (r : MgmtReq)
  /-- REG_READ (R388). -/
  | regRead (r : MgmtReq) (l : List RegAccess)
  /-- REG_WRITE (R389). -/
  | regWrite (r : MgmtReq) (l : List RegAccess)
  /-- ATTEST (R398). -/
  | attest (r : MgmtReq)
  /-- ELOG_READ (R388). -/
  | elogRead (r : MgmtReq) (seq n : Nat)
  /-- MBOX_PUT (R391). -/
  | mboxPut (r : MgmtReq)
  /-- MBOX_GET (R391). -/
  | mboxGet (r : MgmtReq)
  /-- SNAPSHOT (R370). -/
  | snapshotCmd (r : MgmtReq) (t : W64)
  /-- APPLY (R367). -/
  | applyCmd (r : MgmtReq) (v : W32)
  /-- CAP_SET (R286). -/
  | capSet (r : MgmtReq) (v : W32)
  /-- RESET_ENGINE (R404). -/
  | resetEngine (r : MgmtReq) (mask : BitVec 8) (keep : Bool)
  /-- ENGINE_RESET_TIMEOUT (R404). -/
  | engineResetTimeout
  /-- RESET_WARM (R401). -/
  | resetWarm (r : MgmtReq)
  /-- SLOT_ENROL (R392). -/
  | slotEnrol (r : MgmtReq) (k : Nat) (digest : BitVec 512) (max : Nat)
  /-- SLOT_REVOKE (R392). -/
  | slotRevoke (r : MgmtReq) (k : Nat)
  /-- CLAIM (R393). -/
  | claim (r : MgmtReq) (digest : BitVec 512) (max : Nat)
  /-- FLASH_WRITE (R394). -/
  | flashWrite (r : MgmtReq) (m : FlashImage)
  /-- OWNER_LOCK (R388). -/
  | ownerLock (r : MgmtReq) (noDebug : Bool)
  /-- JTAG_OPEN (R397). -/
  | jtagOpen (r : MgmtReq)
  /-- JTAG_UNLOCK (R397). -/
  | jtagUnlock (v : W32)
  /-- RECOVERY_FLASH_WRITE (R396). -/
  | recoveryFlashWrite (r : MgmtReq) (copy : StageCopy)
  /-- HRX_BASE_WRITE (R400). -/
  | hrxBaseWrite (hs : Fin 2) (r : Fin 3) (v : W32)
  /-- WDOG_ARM (R420). -/
  | wdogArm (period : BitVec 8)
  /-- WDOG_KICK (R420). -/
  | wdogKick
  /-- WDOG_EXPIRE (R420). -/
  | wdogExpire
  /-- COLD_RESET (R401). -/
  | coldReset (mv : Nat)
  /-- RESET_N_ASSERT (R402). -/
  | resetNAssert (twice : Bool)
  /-- RESET_N_RELEASE (R402). -/
  | resetNRelease
  /-- STARTUP_STEP_COMPLETE (R405). -/
  | startupStepComplete (f : StartFacts)
  /-- STARTUP_STEP_TIMEOUT (R405). -/
  | startupStepTimeout (f : StartFacts)
  /-- LATCH_OPEN (R425). -/
  | latchOpen
  /-- LATCH_CLOSE (R425). -/
  | latchClose
  /-- SETDASA (R434). -/
  | setdasa (bus a : BitVec 7)
  /-- STATUS_TARGET_OFFSET (R434). -/
  | statusTargetOffset (bus : BusAddr) (bytes : List Byte)
  /-- STATUS_TARGET_READ (R434). -/
  | statusTargetRead (bus : BusAddr) (n : Nat)
  /-- FRU_READ (R435). -/
  | fruRead (bus : BusAddr) (off : BitVec 13) (n : Nat)
  /-- ALERT_SOURCE_CHANGE (R296). -/
  | alertSourceChange (f : SupplySample)
  /-- ENGINE_RESET_COMPLETE (R404). -/
  | engineResetComplete
  /-- BYPASS_ELEMENT_SWITCHED (R346). -/
  | bypassElementSwitched (n : Fin 8)
  /-- TRANSCEIVER_INSERT (R437). -/
  | transceiverInsert (media : Fin 4)
  /-- TRANSCEIVER_REMOVE (R437). -/
  | transceiverRemove
  /-- MGMT_FRAME_RECEIVE (R383). -/
  | mgmtFrameReceive (kind : Fin 4) (target : BitVec 128)
  /-- UNKNOWN_COMMAND (R384). -/
  | unknownCommand (r : MgmtReq) (cmd : Byte)
  /-- HEADSTOCK_ACCESS_FAULT (R380). -/
  | headstockAccessFault (core : Fin 64) (k : HsLoad)
  /-- ILLEGAL_ENCODING (R203). -/
  | illegalEncoding (d : Fin 8) (c : Fin 24) (f : EngFacts)
  deriving DecidableEq, Repr

end Sys2Proof
end

