-- ==== Sys2Proof/WellFormed.lean ====
section
/-!
DEFINITION. Well-formed engine instructions: every field in its width and no value that R201 makes an illegal encoding.
-/
namespace Sys2Proof

/-- Formats with block scales (Table 3.1). -/
def fmtScaled (f : Nat) : Bool := decide (5 ≤ f) && decide (f ≤ 9)

/-- `a < 2 ^ n`. -/
def fits (n a : Nat) : Bool := decide (a < 2 ^ n)

/-- Opcodes of Table 8.1 that a Gouge core lists (`true`) or a Skew core lists (`false`). -/
def EngOp.onCore (gouge : Bool) : EngOp → Bool
  | .wld | .wswap | .rs | .epi | .tbld | .chout | .chin => gouge
  | .vfp | .vbf | .vint | .vsfu | .vred | .vperm | .vcvt | .sld | .sst | .spush | .vimm => !gouge
  | _ => true

/-- Functions of Table 8.7 that are legal for VFP and VBF. -/
def fpFuncOk (f : Nat) : Bool := decide (f ≤ 11)
/-- Functions of Table 8.7 that are legal for VINT. -/
def intFuncOk (f : Nat) : Bool := decide (f ≤ 9)

/-- The field ranges of Tables 8.2, 8.4 and 8.6 and the illegal values of R201, for the instruction at word `pc` of a
Gouge (`true`) or a Skew core. -/
def EngInstr.wf (gouge : Bool) (pc : Nat) (i : EngInstr) : Bool :=
  i.op.onCore gouge &&
  match i with
  | .endProg => true
  | .loop level target count =>
      fits 2 level && fits 14 target && fits 16 count && decide (target < pc) && decide (count ≠ 0)
  | .delay n => fits 20 n && decide (n ≠ 0)
  | .tsig _ _ die slot count => fits 3 die && fits 16 slot && fits 16 count && decide (count ≠ 0)
  | .twaitCount slot count => fits 9 slot && fits 16 count && decide (count ≠ 0)
  | .twaitTick slot count tick => fits 9 slot && fits 16 count && fits 27 tick
  | .twaitLand tile => fits 16 tile
  | .qreq queue loc lenM1 addr _ ax =>
      decide (queue < 12) && fits (if gouge then 17 else 16) loc && fits 6 lenM1 && fits 48 addr &&
      decide (addr % 64 = 0) && fits 2 ax
  | .qwait queue num => decide (queue < 12) && fits 16 num
  | .bubble _ n => fits 20 n && decide (64 ≤ n)
  | .hint arrays lead length _ => decide (arrays ≤ 12) && fits 20 lead && fits 16 length
  | .setop point => fits 3 point
  | .send _ mode _ near src xferLast retire bufLine tile =>
      fits 17 src && decide (src % 8 = 0) && fits 8 xferLast && fits 5 retire && fits 14 bufLine && fits 16 tile &&
      (!near || (!mode && decide (retire = 0)))
  | .axset _ reg value => fits 2 reg && fits 48 value
  | .cexp path tile due => fits 2 path && fits 16 tile && fits 20 due
  | .wld _ array fmt kM1 ncode src pitch scale =>
      fits 2 array && fits 8 fmt && fits 7 kM1 && decide (ncode < 3) && fits 17 src && fits 10 pitch &&
      decide (pitch ≠ 0) && fits 17 scale && (fmtScaled fmt || decide (scale = 0))
  | .wswap mask => fits 4 mask && decide (mask ≠ 0)
  | .rs _ _ ed mask mode m row pitch fmt wbase scale tile =>
      fits 4 mask && decide (mask ≠ 0) && fits 2 mode && fits 16 m && decide (m ≠ 0) && fits 17 row && fits 10 pitch &&
      decide (pitch ≠ 0) && fits 8 fmt && fits 14 wbase && fits 17 scale && (fmtScaled fmt || decide (scale = 0)) &&
      fits 16 tile && (match ed with | some d => fits 17 d && decide (2 ≤ mode) | none => true)
  | .epi _ _ mask wbase m ncode desc tile =>
      fits 4 mask && decide (mask ≠ 0) && fits 14 wbase && fits 16 m && decide (m ≠ 0) && decide (ncode < 3) &&
      fits 17 desc && fits 16 tile
  | .tbld slot src => fits 2 slot && fits 17 src
  | .chout _ array wbase m ncode dkind bufLine retire _ tile own =>
      fits 2 array && fits 14 wbase && fits 16 m && decide (ncode < 3) && fits 2 dkind && fits 14 bufLine &&
      fits 5 retire && fits 16 tile && fits 17 own
  | .chin _ array wbase m ncode bufLine tile =>
      fits 2 array && fits 14 wbase && fits 16 m && decide (ncode < 3) && fits 14 bufLine && fits 16 tile
  | .vfp vd va vb vc func vl =>
      fits 6 vd && fits 6 va && fits 6 vb && fits 6 vc && fpFuncOk func && fits 12 vl
  | .vbf vd va vb vc func vl =>
      fits 6 vd && fits 6 va && fits 6 vb && fits 6 vc && fpFuncOk func && fits 12 vl
  | .vint _ vd va vb vc func vl =>
      fits 6 vd && fits 6 va && fits 6 vb && fits 6 vc && intFuncOk func && fits 12 vl
  | .vsfu _ vd va func vl => fits 6 vd && fits 6 va && decide (func < 6) && fits 12 vl
  | .vred vd va func vl => fits 6 vd && fits 6 va && decide (func < 3) && fits 12 vl
  | .vperm vd va vb func vl =>
      fits 6 vd && fits 6 va && fits (if func = 1 then 4 else 6) vb && decide (func < 3) && fits 12 vl
  | .vcvt _ _ vd va srcFmt dstFmt vl tile =>
      fits 6 vd && fits 6 va && fits 8 srcFmt && fits 8 dstFmt && fits 12 vl && fits 16 tile
  | .sld v unit vl => fits 6 v && fits 16 unit && fits 12 vl
  | .sst v unit vl => fits 6 v && fits 16 unit && fits 12 vl
  | .spush unit countM1 tag offset =>
      fits 16 unit && decide (unit % 8 = 0) && fits 7 countM1 && fits 16 tag && fits 32 offset && decide (offset % 128 = 0)
  | .vimm vd imm vl => fits 6 vd && fits 32 imm && fits 12 vl

end Sys2Proof
end

