-- ==== Sys2Proof/Decode.lean ====
section
/-!
DEFINITION. Decoding. The command table gives no row bits, so no word spells a command; the 64-bit words of the
engine programs are decoded and encoded here from Tables 8.1, 8.2, 8.4 and 8.6.
-/
namespace Sys2Proof

/-- The command that a word spells by the table's bits: the table gives no row bits. -/
def decodeTableWord (_nbits _w : Nat) : Option Instr := none

/-- The opcode of Table 8.1. -/
def EngOp.code : EngOp → Nat
  | .endProg => 0x01 | .loop => 0x02 | .delay => 0x03 | .tsig => 0x04 | .twait => 0x05 | .qreq => 0x06 | .qwait => 0x07
  | .bubble => 0x08 | .hint => 0x09 | .setop => 0x0A | .send => 0x0B | .axset => 0x0C | .cexp => 0x0D
  | .wld => 0x10 | .wswap => 0x11 | .rs => 0x12 | .epi => 0x13 | .tbld => 0x14 | .chout => 0x15 | .chin => 0x16
  | .vfp => 0x20 | .vbf => 0x21 | .vint => 0x22 | .vsfu => 0x23 | .vred => 0x24 | .vperm => 0x25 | .vcvt => 0x26
  | .sld => 0x27 | .sst => 0x28 | .spush => 0x29 | .vimm => 0x2A

/-- The marker of an extension word (R199). -/
def extMark : Nat := 0xFF * 2 ^ 56

/-- The words of an instruction (R199): its first word and its extension words. -/
def encodeEng (i : EngInstr) : List Nat :=
  let o := i.op.code * 2 ^ 56
  match i with
  | .endProg => [o]
  | .loop level target count => [o + level * 2 ^ 50 + target * 2 ^ 36 + count * 2 ^ 20]
  | .delay n => [o + n * 2 ^ 32]
  | .tsig c drain die slot count =>
      [o + b2n c * 2 ^ 55 + b2n drain * 2 ^ 54 + die * 2 ^ 49 + slot * 2 ^ 33 + count * 2 ^ 17]
  | .twaitCount slot count => [o + slot * 2 ^ 43 + count * 2 ^ 27]
  | .twaitTick slot count tick => [o + 1 * 2 ^ 52 + slot * 2 ^ 43 + count * 2 ^ 27 + tick]
  | .twaitLand tile => [o + 2 * 2 ^ 52 + tile * 2 ^ 36]
  | .qreq queue loc lenM1 addr axen ax =>
      [o + queue * 2 ^ 48 + loc * 2 ^ 31 + lenM1 * 2 ^ 25, extMark + addr * 2 ^ 8 + b2n axen * 2 ^ 7 + ax * 2 ^ 5]
  | .qwait queue num => [o + queue * 2 ^ 48 + num * 2 ^ 32]
  | .bubble w n => [o + b2n w * 2 ^ 55 + n * 2 ^ 32]
  | .hint arrays lead length vec => [o + arrays * 2 ^ 48 + lead * 2 ^ 28 + length * 2 ^ 12 + b2n vec * 2 ^ 11]
  | .setop point => [o + point * 2 ^ 49]
  | .send c mode dir near src xferLast retire bufLine tile =>
      [o + b2n c * 2 ^ 55 + b2n mode * 2 ^ 54 + b2n dir * 2 ^ 53 + b2n near * 2 ^ 52 + src * 2 ^ 35 + xferLast * 2 ^ 27 +
        retire * 2 ^ 22, extMark + bufLine * 2 ^ 42 + tile * 2 ^ 26]
  | .axset add reg value => [o + b2n add * 2 ^ 55 + reg * 2 ^ 50 + value]
  | .cexp path tile due => [o + path * 2 ^ 50 + tile * 2 ^ 34 + due * 2 ^ 14]
  | .wld transpose array fmt kM1 ncode src pitch scale =>
      [o + b2n transpose * 2 ^ 55 + array * 2 ^ 50 + fmt * 2 ^ 42 + kM1 * 2 ^ 35 + ncode * 2 ^ 33 + src * 2 ^ 16 +
        pitch * 2 ^ 6, extMark + scale * 2 ^ 39]
  | .wswap mask => [o + mask * 2 ^ 48]
  | .rs swap transpose epi mask mode m row pitch fmt wbase scale tile =>
      [o + b2n swap * 2 ^ 55 + b2n transpose * 2 ^ 54 + b2n epi.isSome * 2 ^ 53 + mask * 2 ^ 48 + mode * 2 ^ 46 +
        m * 2 ^ 30 + row * 2 ^ 13 + pitch * 2 ^ 3,
        extMark + fmt * 2 ^ 48 + wbase * 2 ^ 34 + scale * 2 ^ 17 + tile * 2] ++
      (match epi with | some desc => [extMark + desc * 2 ^ 39] | none => [])
  | .epi int c mask wbase m ncode desc tile =>
      [o + b2n int * 2 ^ 55 + b2n c * 2 ^ 54 + mask * 2 ^ 48 + wbase * 2 ^ 34 + m * 2 ^ 18 + ncode * 2 ^ 16,
        extMark + desc * 2 ^ 39 + tile * 2 ^ 23]
  | .tbld slot src => [o + slot * 2 ^ 50 + src * 2 ^ 33]
  | .chout c array wbase m ncode dkind bufLine retire dir tile own =>
      [o + b2n c * 2 ^ 55 + array * 2 ^ 50 + wbase * 2 ^ 36 + m * 2 ^ 20 + ncode * 2 ^ 18 + dkind * 2 ^ 16,
        extMark + bufLine * 2 ^ 42 + retire * 2 ^ 37 + b2n dir * 2 ^ 36 + tile * 2 ^ 20 + own * 2 ^ 3]
  | .chin int array wbase m ncode bufLine tile =>
      [o + b2n int * 2 ^ 55 + array * 2 ^ 50 + wbase * 2 ^ 36 + m * 2 ^ 20 + ncode * 2 ^ 18 + bufLine * 2 ^ 4,
        extMark + tile * 2 ^ 40]
  | .vfp vd va vb vc func vl =>
      [o + vd * 2 ^ 46 + va * 2 ^ 40 + vb * 2 ^ 34 + vc * 2 ^ 28 + func * 2 ^ 22 + vl * 2 ^ 10]
  | .vbf vd va vb vc func vl =>
      [o + vd * 2 ^ 46 + va * 2 ^ 40 + vb * 2 ^ 34 + vc * 2 ^ 28 + func * 2 ^ 22 + vl * 2 ^ 10]
  | .vint sat vd va vb vc func vl =>
      [o + b2n sat * 2 ^ 55 + vd * 2 ^ 46 + va * 2 ^ 40 + vb * 2 ^ 34 + vc * 2 ^ 28 + func * 2 ^ 22 + vl * 2 ^ 10]
  | .vsfu packed vd va func vl => [o + b2n packed * 2 ^ 55 + vd * 2 ^ 46 + va * 2 ^ 40 + func * 2 ^ 22 + vl * 2 ^ 10]
  | .vred vd va func vl => [o + vd * 2 ^ 46 + va * 2 ^ 40 + func * 2 ^ 22 + vl * 2 ^ 10]
  | .vperm vd va vb func vl => [o + vd * 2 ^ 46 + va * 2 ^ 40 + vb * 2 ^ 34 + func * 2 ^ 22 + vl * 2 ^ 10]
  | .vcvt sat sr vd va srcFmt dstFmt vl tile =>
      [o + b2n sat * 2 ^ 55 + b2n sr * 2 ^ 54 + vd * 2 ^ 46 + va * 2 ^ 40 + srcFmt * 2 ^ 32 + dstFmt * 2 ^ 24 +
        vl * 2 ^ 10, extMark + tile * 2 ^ 40]
  | .sld v unit vl => [o + v * 2 ^ 46 + unit * 2 ^ 30 + vl * 2 ^ 10]
  | .sst v unit vl => [o + v * 2 ^ 46 + unit * 2 ^ 30 + vl * 2 ^ 10]
  | .spush unit countM1 tag offset =>
      [o + unit * 2 ^ 36 + countM1 * 2 ^ 29, extMark + tag * 2 ^ 40 + offset * 2 ^ 8]
  | .vimm vd imm vl => [o + vd * 2 ^ 46 + imm * 2 ^ 14 + vl * 2 ^ 2]

/-- The opcodes that Table 8.1 lists. -/
def engOps : List EngOp :=
  [.endProg, .loop, .delay, .tsig, .twait, .qreq, .qwait, .bubble, .hint, .setop, .send, .axset, .cexp,
    .wld, .wswap, .rs, .epi, .tbld, .chout, .chin,
    .vfp, .vbf, .vint, .vsfu, .vred, .vperm, .vcvt, .sld, .sst, .spush, .vimm]

/-- The mnemonic of an opcode; `none` for one that Table 8.1 does not list. -/
def opOfCode (n : Nat) : Option EngOp := engOps.find? fun o => decide (o.code = n)

/-- The fields that the words hold in the places of the tables, whatever the other bits hold. -/
def engOperands (op : EngOp) (w0 w1 w2 : Nat) : Option EngInstr :=
  let f := bitsOf w0
  let g := bitsOf w1
  let fl := bitOf w0
  match op with
  | .endProg => some .endProg
  | .loop => some (.loop (f 50 2) (f 36 14) (f 20 16))
  | .delay => some (.delay (f 32 20))
  | .tsig => some (.tsig (fl 55) (fl 54) (f 49 3) (f 33 16) (f 17 16))
  | .twait =>
      match f 52 2 with
      | 0 => some (.twaitCount (f 43 9) (f 27 16))
      | 1 => some (.twaitTick (f 43 9) (f 27 16) (f 0 27))
      | 2 => some (.twaitLand (f 36 16))
      | _ => none
  | .qreq => some (.qreq (f 48 4) (f 31 17) (f 25 6) (g 8 48) (bitOf w1 7) (g 5 2))
  | .qwait => some (.qwait (f 48 4) (f 32 16))
  | .bubble => some (.bubble (fl 55) (f 32 20))
  | .hint => some (.hint (f 48 4) (f 28 20) (f 12 16) (fl 11))
  | .setop => some (.setop (f 49 3))
  | .send => some (.send (fl 55) (fl 54) (fl 53) (fl 52) (f 35 17) (f 27 8) (f 22 5) (g 42 14) (g 26 16))
  | .axset => some (.axset (fl 55) (f 50 2) (f 0 48))
  | .cexp => some (.cexp (f 50 2) (f 34 16) (f 14 20))
  | .wld => some (.wld (fl 55) (f 50 2) (f 42 8) (f 35 7) (f 33 2) (f 16 17) (f 6 10) (g 39 17))
  | .wswap => some (.wswap (f 48 4))
  | .rs => some (.rs (fl 55) (fl 54) (if fl 53 then some (bitsOf w2 39 17) else none) (f 48 4) (f 46 2) (f 30 16)
      (f 13 17) (f 3 10) (g 48 8) (g 34 14) (g 17 17) (g 1 16))
  | .epi => some (.epi (fl 55) (fl 54) (f 48 4) (f 34 14) (f 18 16) (f 16 2) (g 39 17) (g 23 16))
  | .tbld => some (.tbld (f 50 2) (f 33 17))
  | .chout => some (.chout (fl 55) (f 50 2) (f 36 14) (f 20 16) (f 18 2) (f 16 2) (g 42 14) (g 37 5) (bitOf w1 36)
      (g 20 16) (g 3 17))
  | .chin => some (.chin (fl 55) (f 50 2) (f 36 14) (f 20 16) (f 18 2) (f 4 14) (g 40 16))
  | .vfp => some (.vfp (f 46 6) (f 40 6) (f 34 6) (f 28 6) (f 22 6) (f 10 12))
  | .vbf => some (.vbf (f 46 6) (f 40 6) (f 34 6) (f 28 6) (f 22 6) (f 10 12))
  | .vint => some (.vint (fl 55) (f 46 6) (f 40 6) (f 34 6) (f 28 6) (f 22 6) (f 10 12))
  | .vsfu => some (.vsfu (fl 55) (f 46 6) (f 40 6) (f 22 6) (f 10 12))
  | .vred => some (.vred (f 46 6) (f 40 6) (f 22 6) (f 10 12))
  | .vperm => some (.vperm (f 46 6) (f 40 6) (f 34 6) (f 22 6) (f 10 12))
  | .vcvt => some (.vcvt (fl 55) (fl 54) (f 46 6) (f 40 6) (f 32 8) (f 24 8) (f 10 12) (g 40 16))
  | .sld => some (.sld (f 46 6) (f 30 16) (f 10 12))
  | .sst => some (.sst (f 46 6) (f 30 16) (f 10 12))
  | .spush => some (.spush (f 36 16) (f 29 7) (g 40 16) (g 8 32))
  | .vimm => some (.vimm (f 46 6) (f 14 32) (f 2 12))

/-- The instruction whose opcode and fields the words hold. -/
def engFields (w0 w1 w2 : Nat) : Option EngInstr :=
  match opOfCode (bitsOf w0 56 8) with
  | some op => engOperands op w0 w1 w2
  | none => none

/-- The words that `n` words of the store at `pc` are; a word beyond the store is zero. -/
def takeWords (n : Nat) (w0 w1 w2 : Nat) : List Nat := [w0, w1, w2].take n

/-- The instruction at word `pc` of a Gouge (`true`) or Skew core whose words there are `w0 w1 w2`; `none` is an
illegal encoding (R201). A reserved bit that is set, or a missing extension word, makes the words differ from the
encoding of the fields they hold. -/
def decodeEng (gouge : Bool) (pc w0 w1 w2 : Nat) : Option EngInstr :=
  match engFields w0 w1 w2 with
  | none => none
  | some i =>
      if i.wf gouge pc && decide (encodeEng i = takeWords (encodeEng i).length w0 w1 w2) then some i else none

/-- Words of an instruction (Table 8.1). -/
def engLength (i : EngInstr) : Nat := (encodeEng i).length

end Sys2Proof
end

