-- ==== Sys2Proof/Machine/Numbers.lean ====
section
/-!
DEFINITION. Formats, exact values and rounding (R64 to R67, R73, R81, R82, Tables 3.1, 3.2, 3.9).
An exact value is a signed dyadic number; every operation is formed exactly and rounded once.
-/
namespace Sys2Proof.Machine

/-- An exact value: NaN, an infinity, or (−1)^neg × mag × 2^exp. -/
inductive FVal where
  | nan
  | inf (neg : Bool)
  | fin (neg : Bool) (mag : Nat) (exp : Int)
  deriving DecidableEq, Repr

/-- Position of the leading bit of a nonzero number. -/
def leadBit (n : Nat) : Nat := Nat.log2 n

/-- `n × 2^e` truncated to an integer, and whether a nonzero bit was lost. -/
def shiftTrunc (n : Nat) (e : Int) : Nat × Bool :=
  match e with
  | .ofNat k => (n * 2 ^ k, false)
  | .negSucc k => (n / 2 ^ (k + 1), decide (n % 2 ^ (k + 1) ≠ 0))

/-- The layout of a floating-point format (Table 3.2). -/
structure FloatFmt where
  ebits : Nat
  mbits : Nat
  bias : Nat
  /-- Magnitude code of the largest finite value. -/
  maxCode : Nat
  /-- Magnitude code of infinity, if the format has one. -/
  infCode : Option Nat
  /-- Magnitude code of the NaN it produces, if it has one. -/
  nanCode : Option Nat
  deriving DecidableEq, Repr

def fmtFP32 : FloatFmt := ⟨8, 23, 127, 0x7F7FFFFF, some 0x7F800000, some 0x7FC00000⟩
def fmtBF16 : FloatFmt := ⟨8, 7, 127, 0x7F7F, some 0x7F80, some 0x7FC0⟩
def fmtFP16 : FloatFmt := ⟨5, 10, 15, 0x7BFF, some 0x7C00, some 0x7E00⟩
def fmtE4M3 : FloatFmt := ⟨4, 3, 7, 0x7E, none, some 0x7F⟩
def fmtE5M2 : FloatFmt := ⟨5, 2, 15, 0x7B, some 0x7C, some 0x7E⟩
def fmtE3M2 : FloatFmt := ⟨3, 2, 3, 0x1F, none, none⟩
def fmtE2M3 : FloatFmt := ⟨2, 3, 1, 0x1F, none, none⟩
def fmtE2M1 : FloatFmt := ⟨2, 1, 1, 0x7, none, none⟩

/-- The element layout of a format code, for the codes whose elements are floating point (Table 3.1). -/
def floatOf (code : Nat) : Option FloatFmt :=
  match code with
  | 0x00 => some fmtFP32
  | 0x01 => some fmtBF16
  | 0x02 => some fmtFP16
  | 0x03 => some fmtE4M3
  | 0x04 => some fmtE5M2
  | 0x05 => some fmtE4M3
  | 0x06 => some fmtE3M2
  | 0x07 => some fmtE2M3
  | 0x08 => some fmtE2M1
  | _ => none

/-- Element bits of a format code (Table 3.1). -/
def fmtBits (code : Nat) : Nat :=
  match code with
  | 0x00 => 32
  | 0x01 => 16
  | 0x02 => 16
  | 0x03 => 8
  | 0x04 => 8
  | 0x05 => 8
  | 0x06 => 6
  | 0x07 => 6
  | 0x08 => 4
  | 0x09 => 8
  | 0x0A => 8
  | 0x0B => 4
  | 0x0C => 32
  | 0x0D => 32
  | _ => 0

/-- Codes that may be array operands (Table 3.1). -/
def fmtOperand (code : Nat) : Bool := decide (1 ≤ code) && decide (code ≤ 0x0B)
/-- Codes that may be epilogue outputs (Table 3.1). -/
def fmtOutput (code : Nat) : Bool := decide (code ≤ 0x0C)
/-- Integer formats. -/
def fmtInt (code : Nat) : Bool := code == 0x0A || code == 0x0B || code == 0x0C
/-- Formats with block scales. -/
def fmtMX (code : Nat) : Bool := decide (5 ≤ code) && decide (code ≤ 9)

/-- The value of a floating-point element (R65). -/
def decodeFloat (f : FloatFmt) (w : Nat) : FVal :=
  let neg := bitOf w (f.ebits + f.mbits)
  let m := w % 2 ^ (f.ebits + f.mbits)
  let e := m / 2 ^ f.mbits
  let frac := m % 2 ^ f.mbits
  if f.infCode = some m then .inf neg
  else if decide (f.maxCode < m) && f.nanCode.isSome then .nan
  else if e = 0 then .fin neg frac (1 - (f.bias : Int) - f.mbits)
  else .fin neg (2 ^ f.mbits + frac) ((e : Int) - f.bias - f.mbits)

/-- The value of an integer element of `w` bits, scaled by 2^-sh (R66). -/
def decodeInt (w sh n : Nat) : FVal :=
  let z := toSigned w n
  .fin (decide (z < 0)) z.natAbs (-(sh : Int))

/-- The value of an element of a format code, without its block scale (R65, R66). -/
def decodeElem (code w : Nat) : FVal :=
  match floatOf code with
  | some f => decodeFloat f w
  | none => if code = 0x09 then decodeInt 8 6 w else decodeInt (fmtBits code) 0 w

/-- The value of an FP32 word. -/
def f32 (w : W32) : FVal := decodeFloat fmtFP32 w.toNat

/-- The produced NaN of FP32 (Table 3.2). -/
def nan32 : W32 := 0x7FC00000#32

/-- A signed integer as an exact value; zero is +0. -/
def ofInt (z : Int) (e : Int) : FVal := .fin (decide (z < 0)) z.natAbs e

/-- The signed integer that `fin neg mag exp` is in units of 2^q, where q ≤ exp. -/
def unitsAt (q : Int) (neg : Bool) (mag : Nat) (exp : Int) : Int :=
  let n : Int := ((mag * 2 ^ (exp - q).toNat : Nat) : Int)
  if neg then -n else n

/-- The exact sum, by IEEE 754 rules for special values and signed zeros (R72). -/
def FVal.add (a b : FVal) : FVal :=
  match a, b with
  | .nan, _ => .nan
  | _, .nan => .nan
  | .inf s, .inf t => if s = t then .inf s else .nan
  | .inf s, .fin .. => .inf s
  | .fin .., .inf t => .inf t
  | .fin s m e, .fin t n f =>
      let q := min e f
      let z := unitsAt q s m e + unitsAt q t n f
      if z = 0 then .fin (s && t && m == 0 && n == 0) 0 0 else ofInt z q

/-- The exact product, by IEEE 754 rules for special values. -/
def FVal.mul (a b : FVal) : FVal :=
  match a, b with
  | .nan, _ => .nan
  | _, .nan => .nan
  | .inf s, .inf t => .inf (s != t)
  | .inf s, .fin t n _ => if n = 0 then .nan else .inf (s != t)
  | .fin s m _, .inf t => if m = 0 then .nan else .inf (s != t)
  | .fin s m e, .fin t n f => .fin (s != t) (m * n) (e + f)

/-- The negation. -/
def FVal.neg : FVal → FVal
  | .nan => .nan
  | .inf s => .inf (!s)
  | .fin s m e => .fin (!s) m e

/-- The value times 2^k. -/
def FVal.scale (k : Int) : FVal → FVal
  | .nan => .nan
  | .inf s => .inf s
  | .fin s m e => .fin s m (e + k)

/-- How a rounding rounds: to nearest even, or stochastically with its 16-bit draw (R73). -/
inductive Round where
  | rne
  | sr (rho : Nat)
  deriving DecidableEq, Repr

/-- Units of the last place of `mag × 2^exp` in a format with an unbounded exponent range, and that place. -/
def lastPlace (f : FloatFmt) (mag : Nat) (exp : Int) : Int :=
  max ((leadBit mag : Int) + exp - f.mbits) (1 - (f.bias : Int) - f.mbits)

/-- `mag × 2^exp` rounded to a number of units of 2^q (R73; IEEE 754 for nearest even). -/
def roundUnits (r : Round) (mag : Nat) (exp q : Int) : Nat :=
  match exp - q with
  | .ofNat k => mag * 2 ^ k
  | .negSucc k =>
      let u := 2 ^ (k + 1)
      let lo := mag / u
      let rem := mag % u
      match r with
      | .sr rho => if rem = 0 then lo else if decide (65536 ≤ rem * 65536 / u + rho) then lo + 1 else lo
      | .rne => if decide (u < 2 * rem) || (decide (2 * rem = u) && lo % 2 == 1) then lo + 1 else lo

/-- The magnitude code of `n × 2^q`, where `n` is at most 2^(mbits+1) units of the last place; codes above the largest
finite one are overflow. -/
def packMag (f : FloatFmt) (n : Nat) (q : Int) : Nat :=
  if n < 2 ^ f.mbits then n
  else (q + f.mbits + f.bias - 1).toNat * 2 ^ f.mbits + n

/-- The sign bit of a format. -/
def signOf (f : FloatFmt) (neg : Bool) : Nat := b2n neg * 2 ^ (f.ebits + f.mbits)

/-- The code of a NaN; formats without one give zero. -/
def nanOf (f : FloatFmt) : Nat := f.nanCode.getD 0

/-- A finite or infinite value that overflowed (Table 3.9): `isInf` for an infinity in. -/
def overflowCode (f : FloatFmt) (sat neg isInf : Bool) : Nat :=
  if sat then signOf f neg + f.maxCode
  else
    match f.infCode with
    | some c => signOf f neg + c
    | none =>
      match f.nanCode with
      | some c => if isInf then c else signOf f neg + c
      | none => signOf f neg + f.maxCode

/-- An exact value converted to a floating-point format (R81, Table 3.9). -/
def toFloat (f : FloatFmt) (sat : Bool) (r : Round) (v : FVal) : Nat :=
  match v with
  | .nan => nanOf f
  | .inf neg => overflowCode f sat neg true
  | .fin neg mag exp =>
      if mag = 0 then signOf f neg
      else
        let q := lastPlace f mag exp
        let c := packMag f (roundUnits r mag exp q) q
        if f.maxCode < c then overflowCode f sat neg false else signOf f neg + c

/-- An exact value rounded to FP32, overflow to infinity. -/
def toF32 (r : Round) (v : FVal) : W32 := BitVec.ofNat 32 (toFloat fmtFP32 false r v)

/-- An exact value rounded to an integer of `w` bits and saturated; NaN gives 0 (Table 3.9). -/
def toIntSat (w : Nat) (r : Round) (v : FVal) : Nat :=
  match v with
  | .nan => 0
  | .inf neg => if neg then 2 ^ (w - 1) else 2 ^ (w - 1) - 1
  | .fin neg mag exp =>
      let n := roundUnits r mag exp 0
      if neg then (if 2 ^ (w - 1) < n then 2 ^ (w - 1) else fromSigned w (-(n : Int)))
      else if 2 ^ (w - 1) ≤ n then 2 ^ (w - 1) - 1 else n

/-- An FP32 value converted to an element format without block scales (R81). -/
def convertElem (code : Nat) (sat : Bool) (r : Round) (v : FVal) : Nat :=
  match floatOf code with
  | some f => toFloat f sat r v
  | none => toIntSat (fmtBits code) r v

/-- e_max of a block-scaled element format (R82). -/
def mxEmax (code : Nat) : Int :=
  match code with
  | 0x05 => 8
  | 0x06 => 4
  | 0x07 => 2
  | 0x08 => 2
  | _ => 0

/-- The exponent of the leading bit of a finite nonzero value. -/
def FVal.lead : FVal → Option Int
  | .fin _ mag exp => if mag = 0 then none else some ((leadBit mag : Int) + exp)
  | _ => none

/-- The largest of the leading exponents. -/
def maxLead (vs : List FVal) : Option Int :=
  vs.foldl (fun acc v => match acc, v.lead with
    | some a, some b => some (max a b)
    | none, some b => some b
    | a, none => a) none

/-- An infinity replaced by the largest finite FP32 value of its sign (R82). -/
def clipInf : FVal → FVal
  | .inf neg => .fin neg (2 ^ 24 - 1) 104
  | v => v

/-- Whether a value is a NaN. -/
def FVal.isNan : FVal → Bool
  | .nan => true
  | _ => false

/-- Whether a value is an infinity. -/
def FVal.isInf : FVal → Bool
  | .inf _ => true
  | _ => false

/-- Whether a value is a zero. -/
def FVal.isZero : FVal → Bool
  | .fin _ mag _ => mag == 0
  | _ => false

/-- A block of values in a block-scaled format: its scale byte and its elements (R82). -/
def convertBlock (code : Nat) (sat : Bool) (rs : List Round) (vs : List FVal) : Nat × List Nat :=
  let vs := if sat then vs.map clipInf else vs
  if vs.any fun v => v.isNan || v.isInf then (0xFF, vs.map fun _ => 0)
  else
    match maxLead vs with
    | none => (0, vs.map fun _ => 0)
    | some m =>
      let x := max (-127) (min 127 (m - mxEmax code))
      let one (p : Round × FVal) : Nat :=
        let y := p.2.scale (-x)
        match floatOf code with
        | some f => toFloat f true p.1 y
        | none => toIntSat 8 p.1 (y.scale 6)
      ((x + 127).toNat, (rs.zip vs).map one)

/-- A row's elements packed little-endian at `w` bits each (R67). -/
def packBits (w : Nat) : List Nat → Nat
  | [] => 0
  | v :: vs => v % 2 ^ w + 2 ^ w * packBits w vs

/-- Element `i` of `w` bits of a packed row (R67). -/
def elemAt (w : Nat) (row : Nat) (i : Nat) : Nat := row / 2 ^ (w * i) % 2 ^ w

/-- FP32 addition, nearest even. -/
def fadd (a b : W32) : W32 := toF32 .rne ((f32 a).add (f32 b))
/-- FP32 multiplication, nearest even. -/
def fmul (a b : W32) : W32 := toF32 .rne ((f32 a).mul (f32 b))
/-- FP32 fused multiply-add: one rounding, nearest even. -/
def ffma (a b c : W32) : W32 := toF32 .rne (((f32 a).mul (f32 b)).add (f32 c))
/-- An INT32 value converted to FP32, nearest even (R53). -/
def i2f (a : W32) : W32 := toF32 .rne (ofInt a.toInt 0)
/-- Saturating INT32 addition (R72). -/
def satAdd32 (a : W32) (t : Int) : W32 × Bool :=
  let z := a.toInt + t
  if 2147483647 < z then (0x7FFFFFFF#32, true)
  else if z < -2147483648 then (0x80000000#32, true)
  else (BitVec.ofInt 32 z, false)

/-- The mixing function of the rounding generator (R74). -/
def mix64 (x : W64) : W64 :=
  let x := x ^^^ (x >>> 31)
  let x := x * 0xD6E8FEB86659FD93#64
  let x := x ^^^ (x >>> 29)
  let x := x * 0xA5CB3A1D47F29E61#64
  x ^^^ (x >>> 32)

/-- One shift of the generator. -/
def lfsr1 (g : W64) : W64 := if g.getLsbD 0 then (g >>> 1) ^^^ 0xD800000000000000#64 else g >>> 1

/-- `n` shifts of the generator. -/
def lfsrN : Nat → W64 → W64
  | 0, g => g
  | n + 1, g => lfsrN n (lfsr1 g)

/-- One step of the generator (R74). -/
def genStep (g : W64) : W64 := lfsrN 64 g

/-- The 16-bit draw for column `n` (R74). -/
def genDraw (g : W64) (n : Nat) : Nat := (mix64 (g + BitVec.ofNat 64 n)).toNat % 65536

/-- The state a reseed gives (R74): the sequence, tile, kind, array, ordinal and die. -/
def genSeed (seed : W64) (seq tile kind array ordinal die : Nat) : W64 :=
  let x := BitVec.ofNat 64 (seq + tile * 2 ^ 32 + kind * 2 ^ 48 + array * 2 ^ 50 + ordinal * 2 ^ 52 + die * 2 ^ 56)
  let g := mix64 (seed ^^^ mix64 x)
  if g = 0#64 then 1#64 else g

/-- The residue modulo 15 of ±mag × 2^exp (R303). -/
def residue (neg : Bool) (mag : Nat) (exp : Int) : Nat :=
  let r := (mag % 15) * 2 ^ ((exp % 4).toNat) % 15
  if neg then (15 - r) % 15 else r

end Sys2Proof.Machine
end

