-- ==== Sys2Proof/Config.lean ====
section
/-!
DEFINITION. What one module fixes and the free values: constants without a body.
Nothing in Lean can evaluate them, so a statement about them holds for every value.
-/
namespace Sys2Proof

/-- FREE VALUE. The `n`-th value of `w` bits that the spec leaves open (log entry 7). -/
opaque Config.freeBits : (w : Nat) → Nat → BitVec w

/-- FREE VALUE. The `n`-th choice that the spec leaves open (log entry 7). -/
opaque Config.freeBool : Nat → Bool

/-- FREE VALUE. The sine (`false`) or cosine (`true`) the unit gives for an FP32 argument, where it lies within the accuracy of R141 (log entry
9). -/
opaque Config.sfuTrig : Bool → W32 → W32

/-- FREE VALUE. Which neighbour the special-function unit gives: `true` for the upper one (R141, log entry 8). -/
opaque Config.sfuUp : Nat → W32 → Bool

/-- FREE VALUE. Word `j` of a hazard record with given fields, whose places the spec does not state (R196, log entry 7). -/
opaque Config.hazWord : (j : Nat) → List Nat → W32

/-- FREE VALUE. What a core reads at a byte address beyond the end of its operand buffer or scratch (log entry 7). -/
opaque Config.beyond : Nat → BitVec 8

/-- FREE VALUE. Which multiple of its size the first address of a Parting core's data memory is, and of its instruction memory, among
the 48-bit addresses that its harts load from and store to (R147 to R149, R224, log entry 18). -/
opaque Config.dmemPage : BitVec 30
opaque Config.imemPage : BitVec 31

/-- The SHAKE256 digest of 64 bytes that the manual uses throughout (R417), as a number (log entry 10). -/
opaque Config.shake256 : List Byte → BitVec 512

/-- KMAC256 with a key, a message and a label, `n` bits (R385, R386; log entry 10). -/
opaque Config.kmac : (n : Nat) → List Byte → List Byte → List Byte → BitVec n

/-- Whether a Falcon-1024 signature verifies: public key, message, signature (R386; log entry 10). -/
opaque Config.sigValid : FalconKey → List Byte → FalconSig → Bool

/-- The identity key's signature over a message (R386; log entry 10). -/
opaque Config.identitySign : List Byte → FalconSig

/-- ML-KEM-1024 decapsulation: key index and ciphertext to the shared secret (R386; log entry 10). -/
opaque Config.kemSecret : Nat → KemText → KemSecret

/-- The session key pair's public key of generation `n` (R386; log entry 10). -/
opaque Config.kemPublic : Nat → KemText

/-- The module's serial number, fixed in its fuses (Table 15.6). -/
opaque Config.serial : W64

/-- What the FRU EEPROM holds beyond what Table 17.8 states (R435): bits [47:7] of the MAC base with the first octet most significant,
the manufacture date, and whether the module shipped with its eight ELSFP modules. -/
opaque Config.macHigh : BitVec 41
opaque Config.madeOn : W32
opaque Config.shippedL8 : Bool

/-- The vendor root public key in boot ROM, its digest in the fuses, and the identity public key with its vendor certificate's
signature (R386, R395, Table 15.6; log entry 10). -/
opaque Config.vendorKey : FalconKey
opaque Config.vendorDigest : BitVec 512
opaque Config.identityKey : FalconKey
opaque Config.vendorCert : FalconSig

/-- FREE VALUE. The bytes that are measured of the fuse state (0) and of the slot table (1), from what they hold: the spec gives them no layout (R397,
log entry 68). -/
opaque Config.measuredBytes : Nat → List Nat → List Byte

/-- FREE VALUE. The IPv6 link-local address of a MAC address, whose formation the spec leaves to IPv6 (R383, log entry 63). -/
opaque Config.linkLocal : Nat → BitVec 128

/-- The ICRC of a RoCEv2 packet with these fields: the spec names it and gives no layout of the bytes that it covers (R341, log entry 108). -/
opaque Config.icrc : List Nat → W32

/-- FREE VALUE. Byte offsets of the tie-table entries in the contents of an image's section, by its index: the spec does not say how the loader
finds them (R102, log entry 22). -/
opaque Config.tieEntries : List Byte → Nat → List Nat

/-- First addresses of the two memories for their own harts. -/
def Config.dmemBase : Nat := Config.dmemPage.toNat * 2 ^ 18
def Config.imemBase : Nat := Config.imemPage.toNat * 2 ^ 17

end Sys2Proof
end

