-- ==== Sys2Proof/Machine/MemTypes.lean ====
section
/-!
DEFINITION. Requests, parts, Heartwood controllers and Tailstocks (chapters 9 and 12).
-/
namespace Sys2Proof.Machine

/-- A memory request in progress (R178, R228, R239). -/
structure MemReq where
  id : Nat
  /-- The requester's Lathe die, its index of Table 9.3 there, and which of its queues or streams it is of (R230). -/
  die : Nat
  requester : Nat
  lane : Nat
  addr : Nat
  units : Nat
  write : Bool
  /-- Bytes as one number, and the poison of each 64 B block as a mask: to be written, or read so far. -/
  data : Nat
  poison : Nat
  /-- Bytes of an access within one block, from `addr` on; 0 for whole blocks. -/
  bytes : Nat := 0
  /-- No-allocate (R240). -/
  na : Bool := false
  /-- Parts not yet served. -/
  left : Nat
  failed : Bool := false
  deriving DecidableEq, Repr

/-- A part: the blocks of a request in one home bank (R228). -/
structure Part where
  req : Nat
  /-- The controller: Lathe die and core. -/
  die : Nat
  core : Nat
  /-- The requester at that controller (Table 9.3), and the queue that waits with the part: requester's die, index, lane. -/
  requester : Nat
  fromDie : Nat
  fromIdx : Nat
  lane : Nat
  bank : Nat
  /-- First block of the request and blocks that it covers. -/
  first : Nat
  units : Nat
  write : Bool
  /-- Number of the controller cycle in which it was admitted (R231). -/
  cycle : Nat := 0
  /-- Its wait at the limit of 8 has been reported (R230). -/
  told : Bool := false
  deriving DecidableEq, Repr

/-- Memory that a unit of the module reads or writes: its first byte, its bytes, and the requests for it, each with the offset of its first
byte. -/
structure Span where
  addr : Nat := 0
  bytes : Nat := 0
  ids : List (Nat × Nat) := []
  deriving DecidableEq, Repr

/-- A read-ahead entry (R236): its 4 KiB span of the home range. -/
structure RaEntry where
  span : Nat
  deriving DecidableEq, Repr

/-- A read-ahead fill on its way (R236). -/
structure RaFill where
  span : Nat
  /-- A write to one of its blocks has been admitted. -/
  spoiled : Bool
  deriving DecidableEq, Repr

/-- A Heartwood controller (R229 to R236, R319). Its registers stand on its page. -/
structure Ctl where
  /-- Controller cycles in which parts were admitted, counted (the MODEL's own count, for R231). -/
  cycle : Nat := 0
  /-- Tick at which a refresh of a bank ends (R231). -/
  refresh : Sparse Nat := []
  /-- The last span a requester read, and how many in ascending order (R236). -/
  spans : Sparse (Nat × Nat) := []
  /-- Read-ahead entries, least recently used first. -/
  ra : List RaEntry := []
  fills : List RaFill := []
  /-- Next block of the scrub, the tick in which its pass began, and a corrected block that waits for its write-back (R235). -/
  scrub : Nat := 0
  passAt : Nat := 0
  scrubBack : Option (Nat × Nat) := none
  /-- Corrected symbols of the pass by lane, and the lanes already suspect (R319). -/
  hits : Sparse Nat := []
  suspects : List Nat := []
  deriving DecidableEq, Repr

/-- A line of the Sapwood cache (R240): its 256 B line number in the half. -/
structure CLine where
  line : Nat
  dirty : Bool
  deriving DecidableEq, Repr

/-- A request at a Tailstock (R239). -/
structure SapReq where
  write : Bool
  addr : Nat
  units : Nat
  na : Bool
  data : Nat
  poison : Nat
  /-- The requester's Lathe die; 8 for a Headstock core (R379). -/
  die : Nat
  /-- The Lathe die at whose Sapwood station its tile retired; of a Headstock's request the tick of its arrival. -/
  via : Nat := 0
  /-- The internal request it is of, and the first of that request's blocks that it covers; or the reply's station, direction and tag. -/
  req : Option Nat
  first : Nat := 0
  retStation : Nat := 0
  retDir : Bool := false
  tag : Nat := 0
  bytes : Nat := 0
  deriving DecidableEq, Repr

/-- A prefetch on its way (R241). -/
structure Prefetch where
  line : Nat
  /-- The line has received a write since its issue. -/
  wrote : Bool
  deriving DecidableEq, Repr

/-- A tracked access stream (R241): its last missed line, and its direction once two misses were adjacent. -/
structure Track where
  last : Nat
  up : Option Bool
  deriving DecidableEq, Repr

/-- A Tailstock (R237 to R241). -/
structure Tail where
  /-- Requests in order of arrival. -/
  queue : List SapReq := []
  /-- The cache, least recently used first. -/
  cache : List CLine := []
  /-- Reads that wait for the fill of their lines, with the lines still missing, oldest first. -/
  filling : List (SapReq × List Nat) := []
  prefetches : List Prefetch := []
  tracks : List Track := []
  deriving DecidableEq, Repr

end Sys2Proof.Machine
end

