-- ==== Sys2Proof/Machine/FabricTypes.lean ====
section
/-!
DEFINITION. What travels on the Bed ring and the near lanes, and what a station holds (chapter 1; 10 R260; 13 R351).
-/
namespace Sys2Proof.Machine

/-- A hop tag (Table 1.3). -/
structure HopTag where
  src : Nat
  retire : Nat
  /-- Against the grain. -/
  dir : Bool
  /-- Copy-and-forward. -/
  mode : Bool
  xfer : Nat
  xferLast : Nat
  bufLine : Nat
  tile : Nat
  /-- Reserved bits [63:58]. -/
  rsvd : Nat := 0
  deriving DecidableEq, Repr

/-- A counted stamp (R260): the sender's point and its departure cycle modulo 2^20. -/
structure Stamp where
  point : Nat
  cycle : Nat
  /-- Was in flight across the crossing when a region hold began: released in the first cycle after it (R175). -/
  freed : Bool := false
  deriving DecidableEq, Repr

/-- A message's way on one die: the stations it starts and retires at, by a ring direction or a near lane (R30, R226). -/
structure Leg where
  src : Nat
  retire : Nat
  /-- Against the grain; of a near lane, to the lower neighbour. -/
  dir : Bool
  near : Bool := false
  deriving DecidableEq, Repr

/-- Where forwarded values are (R113, R115): held at the forwarding engine, on their way, or arrived at the stripe engine's die. -/
inductive ForwardStage where
  | held | sent | here
  deriving DecidableEq, Repr

/-- Values of one chunk that the pushing die's engine forwards to the chunk's stripe engine (R113): the pushing die, the first element in
the chunk, the number of values, the values and the poison of each. -/
structure Forward where
  dst : Nat
  origin : Nat
  tag : Nat
  step : Nat
  chunk : Nat
  start : Nat
  count : Nat
  data : Nat
  bad : Nat
  stage : ForwardStage := .held
  deriving DecidableEq, Repr

/-- What a message of the fabric is (R30, R113, R226, R239). -/
inductive MsgBody where
  /-- A part on its way to its controller: transfer 0 asks, and a write's data follow. -/
  | part (p : Part)
  /-- Blocks of a request of the model's name `req`, from block `first` on, to a Tailstock, under the onward header of Table 9.5; of an access within
  a block the offset of its first byte there, and its bytes. -/
  | sapwood (req first off bytes : Nat)
  /-- Blocks of a section of a die program, from block `first` on, from the loader to a core (R27). -/
  | section_ (req first units : Nat)
  /-- The reply for `units` blocks of a request from block `first` on: completion of a write, or data. -/
  | reply (req first units : Nat) (write failed : Bool)
  /-- A tile that becomes an ordinary one on its last die. -/
  | tile
  /-- Values that a collective engine forwards to a stripe engine (R113). -/
  | values (f : Forward)
  deriving DecidableEq, Repr

/-- A message: the model's number of it, and its way on the dies after the one it is on. -/
structure MemMsg where
  num : Nat
  body : MsgBody
  legs : List Leg
  deriving DecidableEq, Repr

/-- A transfer of 512 B (R18); a near-lane transfer holds up to four lines (R210). -/
structure Xfer where
  tag : HopTag
  /-- Bytes as one number, little-endian, `lines` × 512 of them. -/
  data : Nat
  /-- Poison of each 64 B unit, as a mask (R313). -/
  poison : Nat
  lines : Nat := 1
  stamp : Option Stamp := none
  /-- Nominal periods of the receiving quarter when it reached the crossing (R259, R261). -/
  came : Nat := 0
  /-- Carried by a near lane. -/
  near : Bool := false
  /-- Sent under a credit of the port station it retires at (R28). -/
  credit : Bool := false
  /-- Units whose data a station has found uncorrectable (R33). -/
  bad : Nat := 0
  /-- A request to memory, a reply, or a tile on its way over other dies (R30, R226). -/
  msg : Option MemMsg := none
  deriving DecidableEq, Repr

/-- One direction of a Bed station (R20, R24). -/
structure RingPort where
  /-- Transfers that pass, oldest first. -/
  through : List Xfer := []
  /-- Transfers that wait for injection, oldest first. -/
  inject : List Xfer := []
  /-- Moving slots the head of `inject` has been refused. -/
  waited : Nat := 0
  /-- Starve asserted by this station. -/
  starve : Bool := false
  /-- The transfer that must be copied or retired here and waits for room in the landing buffer (R24). -/
  held : Option Xfer := none
  deriving DecidableEq, Repr

/-- A Bed station. -/
structure Station where
  /-- With the grain and against it. -/
  wg : RingPort := {}
  ag : RingPort := {}
  /-- Landing buffers: 0 with the grain, 1 against it, 2 near lane from station n − 1, 3 from station n + 1 (R24). -/
  land : Sparse (List Xfer) := []
  /-- Near-lane transfers that wait at this, the sending, station: 2 to n + 1, 3 to n − 1 (R24). -/
  near : Sparse (List Xfer) := []
  /-- Messages that wait to start here: for credit, or at a port station for a place in a bank (R28, R230); each with the queue
  that waits with it. -/
  msgs : List (Nat × List Xfer) := []
  /-- Port stations: transfers that arrived and have not left the die. -/
  arrived : List Xfer := []
  /-- Port stations: tiles that left by the station's link and wait to be served there, oldest first, each with the tick
  in which it left: the Tailstock at Sapwood, the Faceplate and the collective engine at Net, the Headstock at Control (Table 1.4). -/
  left : List (Nat × List Xfer) := []
  /-- Port stations: transfers that left, whose credit has not returned (R28). -/
  drained : Nat := 0
  /-- Port stations: successive refusals of the transfer on the link (R351). -/
  refusals : Nat := 0
  /-- Port stations: transfers that an injected fault holds back, with the transfers that must still pass (R353). -/
  heldBack : List (Xfer × Nat) := []
  deriving DecidableEq, Repr

end Sys2Proof.Machine
end

