-- ==== Sys2Proof/Machine/CoreTypes.lean ====
section
/-!
DEFINITION. What a Gouge or Skew core holds besides its register page (chapters 2, 3, 6, 7 and 8).
-/
namespace Sys2Proof.Machine

/-- A weight tile in a buffer of a weight register (R37, R304). The reset tile has no format. -/
structure WTile where
  fmt : Option Nat := none
  k : Nat := 128
  n : Nat := 128
  /-- Element codes by 128 × row + column; zero where none is listed (R37). -/
  elems : Sparse Nat := []
  /-- E8M0 scale bytes by 128 × scale row + column (R37). -/
  scales : Sparse Nat := []
  /-- The check column's residues by register row (R304). -/
  check : Sparse Nat := []
  /-- Words of 32 columns that a poisoned line of the load touched, as a mask of four (R62). -/
  poison : Nat := 0
  /-- The source of the load: unit, pitch, scale unit, transposed (R61). -/
  src : Nat := 0
  pitch : Nat := 1
  scale : Nat := 0
  transposed : Bool := false
  deriving DecidableEq, Repr

/-- A rounding generator: its state, the state that a suspended back-fill instruction keeps (R192), and its sequence counters, main
and back-fill (R74, R193). -/
structure Gen where
  state : W64 := 0
  stateB : W64 := 0
  seq : Nat := 0
  seqB : Nat := 0
  deriving DecidableEq, Repr

/-- A row withheld from Accumulate (R60, R61): what it needs to be issued again. -/
structure Withheld where
  /-- Of the back-fill program's stream. -/
  bf : Bool
  array : Nat
  row : Nat
  kind : RowFaultKind
  /-- Streamed element codes and scale bytes. -/
  xs : List Nat
  scales : List Nat
  /-- A poisoned line entered the row (R62). -/
  bad : Bool
  /-- The generator state its draws come from (R75). -/
  gen : W64
  /-- The physical array it was issued to: one retry there, then the next array (R306). -/
  phys : Nat
  /-- An armed injection makes its re-issue mismatch too (R321). -/
  again : Bool := false
  /-- A check of it on that physical array has disagreed, so that the next disagreement there is its second (R306, R307). -/
  missed : Bool := false
  deriving DecidableEq, Repr

/-- An entry of a unit's queue (R36). -/
structure UEntry where
  /-- Program order of dispatch, over both programs. -/
  seq : Nat
  instr : EngInstr
  facts : EngFacts
  /-- Of the back-fill program (R190). -/
  backfill : Bool
  /-- Word index and first word (R203). -/
  word : Nat
  first : Nat
  /-- Started, not yet finished. -/
  started : Bool := false
  /-- A chain-in whose tile has landed (R59). -/
  landed : Bool := false
  /-- Cycles that a suspended back-fill instruction has had in its unit (R192). -/
  done : Nat := 0
  /-- Cycle count of its quarter at its dispatch: it starts no earlier than the cycle after (R36). -/
  since : Nat := 0
  deriving DecidableEq, Repr

/-- An epilogue descriptor (Table 2.5). -/
structure EpiDesc where
  cscale : Option Nat
  bias : Option Nat
  tscale : Option W32
  table : Option Nat
  sr : Bool
  sat : Bool
  dest : Nat
  fmt : Nat
  pitch : Nat
  addr : Nat
  /-- `DEST_EXT`. -/
  ext : Nat
  deriving DecidableEq, Repr

/-- A row of one array as it leaves the epilogue: element codes, scale bytes, and the poison of each 64 B accumulator unit of 16 columns
that it was formed from (R62, R313). -/
structure OutPart where
  codes : List Nat
  scales : List Nat
  bads : List Bool
  deriving DecidableEq, Repr

/-- An epilogue under way, unfused or of a fused stream (R43, R53 to R55): its descriptor as read at its start, and how far it is. -/
structure EpiRun where
  desc : EpiDesc
  int : Bool
  counted : Bool
  tile : Nat
  m : Nat
  /-- The masked arrays, ascending, each with its columns. -/
  cols : List (Nat × Nat)
  /-- First accumulator word of an unfused one: its pushes hold words until they have read them (R106). -/
  wbase : Option Nat
  /-- The descriptor, its scales, its biases or its table are poisoned: so is every output (R62). -/
  bad : Bool
  /-- Output rows that later output needs: row, phase cycle of its read, and its parts. -/
  kept : List (Nat × Nat × List OutPart) := []
  /-- Rows taken, and phase cycle in which the next may be read (R54). -/
  rows : Nat := 0
  at_ : Nat := 0
  /-- Ring transfers, or data transfers of pushes, that have been formed. -/
  sent : Nat := 0
  /-- A second mismatch, or a word of the other class, has stopped it (R212, R309). -/
  stopped : Bool := false
  deriving DecidableEq, Repr

/-- An instruction under way in the epilogue unit or the chain port: rows or beats done, the phase cycle in which the next may be read,
and the epilogue that it is (R48, R192, R215). -/
structure Work where
  /-- Unit 2 or 3. -/
  unit : Nat
  entry : UEntry
  next : Nat := 0
  at_ : Nat := 0
  epi : Option EpiRun := none
  /-- Lines that a sending instruction has read and not sent: those of a near-lane transfer that is not full (R210, R211). -/
  lines : List (Nat × Nat) := []
  /-- The record of a poisoned line of a chain-in has been made (R62). -/
  noted : Bool := false
  deriving DecidableEq, Repr

/-- A stored row of a block in the transpose buffer (R51): its 128 elements as one number, and the poisoned units that they lay in. -/
structure StoredRow where
  data : Nat
  bads : List Nat
  deriving DecidableEq, Repr

/-- What holds a program's dispatch. -/
inductive Hold where
  /-- DELAY until a quarter cycle (R205). -/
  | delay (until_ : Nat)
  /-- TSIG with DRAIN (R207). -/
  | drain (i : EngInstr)
  /-- TWAIT, form 0, and form 1 before its take (R208). -/
  | token (slot count : Nat) (tick : Option Nat)
  /-- TWAIT, form 1, for its phase start at a tick (R168). -/
  | phase (tick : Nat)
  /-- TWAIT, form 2 (R176). -/
  | landing (tile : Nat)
  /-- QWAIT (R179): the number of requests of the queue that must have completed. -/
  | queue (q target : Nat)
  /-- BUBBLE until every unit has finished (R190). -/
  | bubble (n : Nat) (w : Bool)
  /-- END until every unit has finished (R205). -/
  | finish
  deriving DecidableEq, Repr

/-- A program's own state: loop counters and address registers (R205). -/
structure Prog where
  loops : List Nat := [0, 0, 0, 0]
  ax : List Nat := [0, 0, 0, 0]
  hold : Option Hold := none
  /-- Tick in which the hold began. -/
  since : Nat := 0
  deriving DecidableEq, Repr

/-- A loaded back-fill program on a core (R190, R191). -/
structure Backfill where
  pc : Nat
  ended : Bool := false
  prog : Prog := {}
  deriving DecidableEq, Repr

/-- A row stream under way (R41, R44, R60, R61, R192): its entry, the next row to issue, and whether the record of a poisoned line has
been made (R62). -/
structure Run where
  entry : UEntry
  next : Nat := 0
  /-- Cycle count of the quarter from which it may issue, and issue cycles that its next row has had (R44, R46). -/
  at_ : Nat := 0
  part : Nat := 0
  /-- Cycles of a transposed stream's first fill that are still to run (R51, R192). -/
  fill : Nat := 0
  /-- K_s of a transposed stream, and stored rows that its transpose buffer holds: of the block that streams, and of the next (R50, R51). -/
  ks : Nat := 0
  block : List StoredRow := []
  ahead : List StoredRow := []
  /-- The fused epilogue (R43). -/
  epi : Option EpiRun := none
  noted : Bool := false
  deriving DecidableEq, Repr

/-- An open bubble window (R190): its length, the cycle before its first, and the window cycle through which each unit is busy with
back-fill work (R192). -/
structure Window where
  n : Nat
  w : Bool
  base : Nat
  busy : Sparse Nat := []
  deriving DecidableEq, Repr

/-- A memory request of a queue (R178). -/
structure QReq where
  num : Nat
  /-- Unit of the local block in the operand buffer, the scratch or the data memory. -/
  loc : Nat
  units : Nat
  addr : Nat
  store : Bool
  backfill : Bool
  /-- The request in the memory system; none for one refused at the bounds, which is complete with failure (R181). -/
  id : Option Nat
  deriving DecidableEq, Repr

/-- A store of an epilogue with `DEST` 1 that waits for its queue (R54, R180). -/
structure EpiStore where
  queue : Nat
  addr : Nat
  units : Nat
  data : Nat
  poison : Nat
  backfill : Bool
  deriving DecidableEq, Repr

/-- A queue: the number its next request takes, and the requests not yet retired, oldest first. -/
structure MQueue where
  next : Nat := 0
  /-- Requests issued and completed since program start, not wrapped (R179). -/
  issued : Nat := 0
  retired : Nat := 0
  reqs : List QReq := []
  /-- Requests that failed, counted from program start (Table 8.8). -/
  fails : List Nat := []
  deriving DecidableEq, Repr

/-- A counted-tile entry of a crossing path (R260). -/
structure CountedTile where
  tile : Nat
  r0 : Nat
  c0 : Nat
  declared : Bool
  started : Bool := false
  /-- Index of the tile's next transfer to reach the crossing. -/
  next : Nat := 0
  /-- Its transfer 0 came undeclared and after its R_0, or has been released (R261, R443). -/
  late : Bool := false
  released : Bool := false
  /-- Index of its last transfer. -/
  last : Nat := 0
  deriving DecidableEq, Repr

/-- A tile that a unit has formed and that waits for credit (R28, R106): a reduction push, or output to a port station. -/
structure OutTile where
  push : Bool
  /-- Unit that sends it: 2 the epilogue unit, 3 the chain port or scratch port. -/
  unit : Nat
  xfers : List Xfer
  /-- Transfers of the whole tile: those not in `xfers` are still to be formed (R192). -/
  total : Nat := 0
  /-- Accumulator words that a push has still to read: array, first word, words (R106). -/
  words : Option (Nat × Nat × Nat) := none
  /-- Of the back-fill program: it leaves in a window only (R192). -/
  bf : Bool := false
  deriving DecidableEq, Repr

/-- A granted range of the back-fill program (R191, kind 6): resource, first, count. -/
structure Grant where
  res : Nat
  first : Nat
  count : Nat
  deriving DecidableEq, Repr

/-- A bounds window of a program (R181, R185): base, bytes, writable. -/
structure Bound where
  base : Nat
  bytes : Nat
  write : Bool
  deriving DecidableEq, Repr

/-- A Gouge or Skew core. -/
structure Core where
  /-- Operand buffer or scratch (R35, R138), and the poison of its 64 B units (R313). -/
  buf : Sparse Byte := []
  bufPoison : Sparse Bool := []
  /-- Instruction store (R185). -/
  store : Sparse Nat := []
  storePoison : Sparse Bool := []
  /-- Accumulators by (array × 16384 + word) × 32 + lane (R42), class by word (R212), and by 64 B unit, (array × 16384 + word) × 2 + half, the
  poison and whether no uncontained record covers it yet (R313). -/
  acc : Sparse W32 := []
  accInt : Sparse Bool := []
  accPoison : Sparse Bool := []
  accNew : Sparse Bool := []
  /-- Active and shadow buffers by physical array (R37); shadow loads not yet swapped in. -/
  active : Sparse WTile := []
  shadow : Sparse WTile := []
  /-- Activation tables: word 0 is the header's first 64 bits, then slope and intercept (R56). -/
  tables : Sparse W32 := []
  tableBad : Sparse Bool := []
  /-- G_acc, G_chain, G_epi of array a at 3a, 3a + 1, 3a + 2; G_skew at 0 (R74, R144). -/
  gens : Sparse Gen := []
  /-- Skew registers by 2048 × register + lane (R138), and by 64 B unit, 128 × register + unit, their poison and whether no uncontained
  record covers it yet (R313). -/
  vregs : Sparse W32 := []
  vpoison : Sparse Bool := []
  vNew : Sparse Bool := []
  /-- The main program and the back-fill program. -/
  prog : Prog := {}
  backfill : Option Backfill := none
  window : Option Window := none
  suspended : Bool := false
  /-- Dispatch count. -/
  seq : Nat := 0
  /-- Unit queues: 0 row streamer or vector, 1 weight loader or special function, 2 epilogue or permute,
  3 chain port or scratch port (R36). -/
  units : Sparse (List UEntry) := []
  withheld : List Withheld := []
  /-- The row streams under way, of the main and of the back-fill program: with rows withheld, or with rows still to issue (R60, R61,
  R192). -/
  stream : Option Run := none
  streamB : Option Run := none
  /-- Cycle count of the quarter after the last issue cycle of the last stream (R45). -/
  rsFree : Nat := 0
  /-- Instructions under way in the epilogue unit and the chain port, of both programs. -/
  works : List Work := []
  /-- A second mismatch has stopped the epilogue unit (R309). -/
  epiDead : Bool := false
  /-- Rows of fused streams that wait for a withheld part: values by (array × 65536 + row) × 128 + column, arrays of the back-fill program
  from 4 on; their poison, and the state of G_epi that each draws from, by array × 65536 + row (R43, R75). -/
  rows : Sparse W32 := []
  rowPoison : Sparse Bool := []
  rowGens : Sparse W64 := []
  outQ : List OutTile := []
  epiOut : List EpiStore := []
  queues : Sparse MQueue := []
  /-- Landing tracker, oldest first (R25). -/
  landed : List Nat := []
  /-- Counted-tile entries by path (R260). -/
  counted : Sparse (List CountedTile) := []
  /-- Bounds and grants of the programs (R181, R191). -/
  bounds : List Bound := []
  boundsB : List Bound := []
  grants : List Grant := []
  /-- Check injections armed: array or slice, and reports left (R321). -/
  inject : List (Nat × Nat) := []
  /-- Ranges of the operand buffer or scratch written in the present cycle, each with the place of its writer in R26's order:
  (place, address, bytes). -/
  cycleWrites : List (Nat × Nat × Nat) := []
  /-- A hazard halted dispatch (R196). -/
  halted : Bool := false
  /-- A push waits under R180: of a QREQ, and of an epilogue's store. -/
  stalled : Bool := false
  epiStalled : Bool := false
  /-- The next Skew instruction waits at dispatch for a register (R139). -/
  rawWait : Bool := false
  deriving DecidableEq, Repr

end Sys2Proof.Machine
end

