-- ==== Sys2Proof/Machine/PartTypes.lean ====
section
/-!
DEFINITION. A Parting core: harts, completion board, mailbox, streams, and whittle messages (chapters 6 and 9).
-/
namespace Sys2Proof.Machine

/-- A whittle message (Table 6.10). -/
structure WMsg where
  dst : Nat
  src : Nat
  len : Nat
  type : Nat
  arg : Nat
  count : Nat
  payload : List W64
  /-- Payload words that are uncorrectable, as a mask (R163). -/
  poison : Nat := 0
  /-- Source index of Table 6.8 and source die, for a slot signal. -/
  idx : Nat
  die : Nat
  /-- The hart whose WSEND waits. -/
  hart : Option Nat := none
  /-- The stamp of a counted token signal (R172, R260). -/
  stamp : Option Stamp := none
  deriving DecidableEq, Repr

/-- An arrival on its way to a board of the same quarter (R155). -/
structure Arrival where
  /-- Slot address (Table 6.7). -/
  addr : Nat
  count : Nat
  idx : Nat
  die : Nat
  deriving DecidableEq, Repr

/-- A record of the arrival log (R158). -/
structure ArrRec where
  slot : Nat
  idx : Nat
  die : Nat
  count : Nat
  tick : Nat
  deriving DecidableEq, Repr

/-- A record of the deadline-miss log (R248). -/
structure DlRec where
  stream : Nat
  entry : Nat
  bucket : Nat
  late : Nat
  due : Nat
  deriving DecidableEq, Repr

/-- A hart's access outside its core's memories (R149). -/
structure HartAccess where
  addr : Nat
  bytes : Nat
  /-- A store's value; none for a load. -/
  store : Option W64
  /-- Destination register of a load and whether it is sign-extended. -/
  rd : Nat
  signed : Bool
  /-- The memory request, once issued. -/
  req : Option Nat := none
  /-- Tick in which the hart met it. -/
  since : Nat
  deriving DecidableEq, Repr

/-- What a hart waits for. -/
inductive HartWait where
  | access (a : HartAccess)
  /-- QWAIT: queue, requests that must have completed, destination. -/
  | queue (q target rd : Nat)
  /-- TKWAIT: slot, count, destination. -/
  | token (slot n rd : Nat)
  /-- WSEND: destination, and the tick of sending (R163). -/
  | send (rd since : Nat)
  /-- WSEND whose acceptance waits at the crossing of its held quarter (R258): destination. -/
  | accepted (rd : Nat)
  deriving DecidableEq, Repr

/-- A hart (R148). Its run state stands in `PART.HART_STATE`. -/
structure Hart where
  /-- Byte offset in instruction memory. -/
  pc : Nat := 0
  /-- x1 to x31; x0 is never listed. -/
  regs : Sparse W64 := []
  /-- Reservation of LR: a data-memory address. -/
  resv : Option Nat := none
  wait : Option HartWait := none
  /-- Tick in which a wait for a queue or a token began (Table 15.4). -/
  since : Nat := 0
  deriving DecidableEq, Repr

/-- A request of a stream in progress (R243). -/
structure SReq where
  /-- Entry it is of, and first byte and bytes of the entry that it moves. -/
  entry : Nat
  off : Nat
  bytes : Nat
  /-- The request of the memory system or of the network; none while it waits for its next grant. -/
  id : Option Nat
  /-- 0 reads the data, 1 has read them, 2 writes them, 3 is done; an epoch chunk reads its tag at 4 and again at 5 (R246). -/
  phase : Nat
  /-- Data read or to be written, with the poison of their 64 B units. -/
  data : Nat := 0
  poison : Nat := 0
  /-- The first tag read (R246). -/
  tag : Nat := 0
  deriving DecidableEq, Repr

/-- An entry that a stream has begun: its index, its 256 bits, the bytes issued, the destination of a copy, whether its tiles have
been injected (R243, R152). -/
structure SEntry where
  index : Nat
  bits : Nat
  issued : Nat := 0
  dst : Nat := 0
  injected : Bool := false
  deriving DecidableEq, Repr

/-- A fetched tile whose last transfer its retire station has not acknowledged (R152): the stream and the entry that it is of, the stream
number 32 once that stream has been started again, and what the acknowledgement names. -/
structure SentTile where
  stream : Nat
  entry : Nat
  tile : Nat
  retire : Nat
  dir : Bool
  line : Nat
  xferLast : Nat
  deriving DecidableEq, Repr

/-- A stream (R151 to R153, R243 to R247). Its run state stands in `PART.SE_STATE`. -/
structure Stream where
  /-- The start record (Table 6.6). -/
  cfg : Nat := 0
  /-- T_s (R247). -/
  start : Nat := 0
  /-- Entries begun and not complete, oldest first. -/
  entries : List SEntry := []
  /-- Next entry to begin, and entries completed. -/
  next : Nat := 0
  completed : Nat := 0
  reqs : List SReq := []
  /-- The read of the next entry of its block list, on its way (R243). -/
  fetch : Option Nat := none
  /-- Requests still in progress that it issued before it was started again in the error state (R151, R244). -/
  left : List Nat := []
  /-- Next tile identifier and line of a fetch (R152). -/
  tile : Nat := 0
  line : Nat := 0
  /-- Received 64 B units not yet written, with their poison (R153). -/
  inbox : List (Nat × Bool) := []
  /-- Epoch form: the tick at which the current chunk is fetched again (R246). -/
  retryAt : Option Nat := none
  /-- The entry that put the stream into the error state (R244). -/
  stop : Option Nat := none
  deriving DecidableEq, Repr

/-- A block carried over RDMA for a stream (R243, R341): the network side completes it. -/
structure RemoteReq where
  id : Nat
  die : Nat
  quarter : Nat
  stream : Nat
  rank : Nat
  addr : Nat
  bytes : Nat
  write : Bool
  bucket : Nat
  data : Nat := 0
  poison : Nat := 0
  /-- Handed to a queue pair. -/
  sent : Bool := false
  done : Bool := false
  failed : Bool := false
  deriving DecidableEq, Repr

/-- A Parting core's own state. -/
structure Parting where
  imem : Sparse Byte := []
  imemPoison : Sparse Bool := []
  dmem : Sparse Byte := []
  dmemPoison : Sparse Bool := []
  harts : Sparse Hart := []
  /-- Source masks of the board's slots (R154, R157); the counters are `PART.CB_SLOTn`. -/
  masks : Sparse Nat := []
  /-- Poisoned 64 B units of the board's counters, sixteen slots each (R312, R313). -/
  slotPoison : Sparse Bool := []
  /-- Signals on their way to the board, oldest first. -/
  arrivals : List Arrival := []
  /-- Arrival log, newest first (R158). -/
  log : List ArrRec := []
  mailbox : List WMsg := []
  streams : Sparse Stream := []
  /-- Fetched tiles on their way, oldest first (R152). -/
  sent : List SentTile := []
  /-- The stream that each engine served last (R151), and units served by engine and class, 3 × engine + class: read, write,
  remote (R245). -/
  last : Sparse Nat := []
  served : Sparse Nat := []
  /-- Miss log, newest first (R248). -/
  misses : List DlRec := []
  deriving DecidableEq, Repr

end Sys2Proof.Machine
end

