-- ==== Sys2Proof/Machine/NetTypes.lean ====
section
/-!
DEFINITION. Collective engines, transport, ports, queue pairs, bypass pairs, and what leaves the module (chapters 5 and 13).
-/
namespace Sys2Proof.Machine

/-! ### Collective engines -/

/-- Where a chunk stands at its stripe engine (R115 to R127). -/
inductive ChunkPhase where
  /-- Contributions arrive. -/
  | wait
  /-- Its retained contributions and its scale byte are being read (R117). -/
  | reading
  /-- Its own byte has gone into its group's prepass (R120). -/
  | prepass
  /-- Converted, or found to overflow; the Grain sum waits for the children (R124). -/
  | grain
  /-- In the BF16 fall-back, or under `POLICY` 1 (R127). -/
  | redo
  /-- A poisoned contribution was met: it never completes (R115). -/
  | stuck
  /-- Its result or scale byte has arrived and is being written (R124). -/
  | writing
  | done
  deriving DecidableEq, Repr

/-- A chunk at its stripe engine. -/
structure CeChunk where
  phase : ChunkPhase := .wait
  /-- Elements that have arrived, by contribution index, as masks of 256. -/
  got : Sparse Nat := []
  /-- Values that the engine holds under `POLICY` 1 and 3 (R127, Table 5.2), by 256 × contribution + element, and their poison. -/
  held : Sparse W32 := []
  heldBad : Sparse Bool := []
  /-- Counted in `CE.FCAST_WAIT_CNT`. -/
  waited : Bool := false
  /-- M and F (R117). -/
  base : Int := 0
  fexp : Int := 0
  ovf : Bool := false
  special : Bool := false
  /-- The own Grain-32 sum. -/
  own : List Int := []
  /-- The contributions for the BF16 reduction, once read (R127). -/
  vals : Option (List (List W32)) := none
  /-- Upward messages of child 2p + 1 and 2p + 2: Grain or overflow, and BF16. -/
  up : Sparse (Option ChunkMsg) := []
  bf : Sparse (Option Nat) := []
  sentUp : Bool := false
  sentBf : Bool := false
  deriving DecidableEq, Repr

/-- A group of chunks of a stripe (R120). -/
structure CGroup where
  /-- Own bytes by chunk, and the children's bytes as numbers. -/
  own : Sparse (Option Nat) := []
  child : Sparse (Option Nat) := []
  /-- Some chunk of the group runs a prepass. -/
  pre : Bool := false
  sent : Bool := false
  got : Bool := false
  /-- New scale bytes that the root has formed, by chunk, with `RESULT` = 1. -/
  closed : Sparse (Option Nat) := []
  deriving DecidableEq, Repr

/-- An open bucket at an engine (R109 to R112): descriptor, step and version, tick of the slot's opening. -/
structure Bucket where
  desc : Nat
  step : Nat
  version : Nat
  since : Nat
  stalled : Bool := false
  chunks : Sparse CeChunk := []
  groups : Sparse CGroup := []
  /-- Chunks finished at this engine. -/
  finished : Nat := 0
  /-- Its place in the order in which the engine opened its buckets (R132). -/
  order : Nat := 0
  deriving DecidableEq, Repr

/-- What waits in an engine's parking area of 256 transfers (R115). -/
inductive Parked where
  /-- A push tile: its lines. -/
  | tile (lines : List (Nat × Nat))
  | values (f : Forward)
  deriving DecidableEq, Repr

/-- Transfers that a parked tile, or parked values, count as. -/
def parkedSize : Parked → Nat
  | .tile ls => ls.length
  | .values _ => 1

/-- A chunk message from the network: the sender, the port that it came by and its bytes in that port's buffer. -/
structure ChunkIn where
  msg : ChunkMsg
  rank : Nat
  ce : Nat
  port : Nat
  deriving DecidableEq, Repr

/-- A message that waits for its flow's window: a chunk message of a bucket, or a control message. -/
structure HctMsg where
  tag : Nat
  step : Nat
  /-- Endpoint record (Table 13.5), and the sender's rank. -/
  dest : Nat
  me : Nat
  body : HctBody
  /-- A chunk of a gather (R132). -/
  gather : Bool := false
  /-- Its bucket's place in the order in which the engine opened its buckets (R132). -/
  order : Nat := 0
  deriving DecidableEq, Repr

/-- What an engine goes on with once its requests to memory have been served; a chunk is named by tag, step and number. -/
inductive CeAct where
  /-- An open message, relayed by an engine or not: its descriptor has been read (R112). -/
  | opened (m : WMsg) (relayed : Bool)
  /-- A chunk's retained contributions, and behind them its scale byte, have been read (R117). -/
  | convert (tag step k : Nat)
  /-- A chunk's contributions have been read again (R127). -/
  | redo (tag step k : Nat)
  /-- A chunk's result and scale byte have been written (R124). -/
  | written (tag step k : Nat)
  /-- The root's chunk of a gather has been read (R129). -/
  | gather (tag step k : Nat)
  /-- The tags of a gather's chunk are clear; its data and poison follow (R246). -/
  | tagsClear (tag step k version data bad : Nat)
  /-- The data of a gather's chunk are written; its tags follow (R246). -/
  | dataThere (tag step k version : Nat)
  /-- The endpoint record of a rank has been read: a message goes there (R110). -/
  | send (rank : Nat) (m : HctMsg)
  /-- An entry of the fall-back log has been written (R421). -/
  | logged
  | nothing
  deriving DecidableEq, Repr

/-- Accesses of an engine to memory on their way, and what follows them. -/
structure CeJob where
  spans : List Span
  act : CeAct
  deriving DecidableEq, Repr

/-- A collective engine (R108). -/
structure Engine where
  /-- Open buckets in the order they were opened. -/
  buckets : List Bucket := []
  parked : List Parked := []
  netParked : List ChunkIn := []
  /-- Messages that HCT has delivered, oldest first. -/
  inbox : List ChunkIn := []
  /-- Tag and step of buckets whose open this engine has refused for a busy slot and that other engines still hold (R112). -/
  refused : List (Nat × Nat) := []
  /-- Accesses to memory on their way, oldest first. -/
  jobs : List CeJob := []
  /-- Buckets opened so far. -/
  opened : Nat := 0
  deriving DecidableEq, Repr

/-! ### HCT -/

/-- A packet that is not yet acknowledged. -/
structure HctPkt where
  psn : Nat
  dest : Nat
  me : Nat
  body : HctBody
  /-- Tick of its first sending, retries so far, entropy value of its last sending. -/
  first : Nat
  retries : Nat := 0
  entropy : Nat := 0
  /-- Retransmitted once for later PSNs received. -/
  fast : Bool := false
  deriving DecidableEq, Repr

/-- A flow's sending side (R337 to R339). -/
structure TxFlow where
  rank : Nat
  ce : Nat
  next : Nat := 0
  waiting : List HctMsg := []
  unacked : List HctPkt := []
  /-- Packets of the rotation so far; ticks until which an entropy value is left unused. -/
  turn : Nat := 0
  resting : Sparse Nat := []
  /-- b_f in Gbit/s, as a fraction; ticks of the last decrease and of the start of the interval without a mark; such intervals. -/
  rateNum : Nat := 800
  rateDen : Nat := 1
  cutAt : Option Nat := none
  calmFrom : Nat := 0
  calm : Nat := 0
  used : Nat := 0
  /-- Time at which its packets so far have gone at b_f, in ps. -/
  paidTo : Nat := 0
  deriving DecidableEq, Repr

/-- A flow's receiving side. -/
structure RxFlow where
  rank : Nat
  ce : Nat
  /-- This module's rank as the peer names it. -/
  me : Nat
  low : Nat := 0
  beyond : List Nat := []
  /-- Marked packets and packets since the last ACK, and the tick of the oldest not acknowledged. -/
  marked : Nat := 0
  all : Nat := 0
  pend : Nat := 0
  oldest : Nat := 0
  used : Nat := 0
  /-- The peer's endpoint record, and acknowledgements sent so far. -/
  peer : Nat := 0
  turn : Nat := 0
  deriving DecidableEq, Repr

/-- An ACK that has arrived. -/
structure AckIn where
  rank : Nat
  ce : Nat
  ackPsn : Nat
  sack : Nat
  marked : Nat
  all : Nat
  port : Nat
  deriving DecidableEq, Repr

/-- A RoCEv2 packet that has arrived, with its port, its timestamp, whether it came under MACsec, and its ECN bits. -/
structure RocePkt where
  pkt : RoceIn
  port : Nat
  stamp : Nat := 0
  sec : Bool := false
  ecn : Nat := 0
  deriving DecidableEq, Repr

/-- An answer of a queue pair to a peer that waits for the die's memory, or for the answers before it: what is read or written for it, its
PSN and its code: 3 an ACK, 4 a READ response of packets of `mtu` bytes, 8 + c a NAK (R342). -/
structure PeerJob where
  qp : Nat
  span : Span
  psn : Nat
  code : Nat
  mtu : Nat := 0
  deriving DecidableEq, Repr

/-- The transport of one Lathe die (R335 to R343). -/
structure Net where
  tx : List TxFlow := []
  rx : List RxFlow := []
  /-- The last chunk sent was one of a gather (R132). -/
  lastGather : Bool := false
  acks : List AckIn := []
  roce : List RocePkt := []
  /-- Answers to peers that wait for memory, in the order of their requests. -/
  jobs : List PeerJob := []
  /-- CAP_STATUS messages for CE0 that the Governors have not taken (R293, R336). -/
  ctrl : List (BitVec 256) := []
  deriving DecidableEq, Repr

/-! ### RoCEv2 -/

/-- Who waits for a request's reply: a stream's block, or a tile at a Net station (R334). -/
inductive RoceOwner where
  | remote (id : Nat)
  | tile (station : Nat) (dir : Bool) (tag : Nat)
  deriving DecidableEq, Repr

/-- A request that a QP has sent and that is not answered: 0 READ, 1 WRITE, 2 SEND; the peer's rank where it was named; its first
PSN and PSNs; for a READ the packets of the response so far, whose data gather in `data`. -/
structure QpReq where
  owner : RoceOwner
  rank : Nat
  op : Nat
  addr : Nat
  bytes : Nat
  data : Nat
  bad : Nat
  psn : Nat
  count : Nat
  got : Nat := 0
  /-- Bucket tag of a stream's block (Table 9.6). -/
  bucket : Nat := 0
  deriving DecidableEq, Repr

/-- The running state of a queue pair; its context stands in the tables (R342). -/
structure Qp where
  port : Option Nat := none
  sendPsn : Nat := 0
  recvPsn : Nat := 0
  work : List QpReq := []
  since : Nat := 0
  retries : Nat := 0
  deriving DecidableEq, Repr

/-! ### Ports and bypass pairs -/

/-- A MACsec secure association (R344). -/
structure Sa where
  key : Nat
  salt : Nat
  ssci : Nat
  /-- Transmit: the next packet number. Receive: the next one expected. -/
  pn : Nat := 1
  deriving DecidableEq, Repr

/-- A frame or block as the module sends it. -/
inductive TxBody where
  | host (len frame : Nat)
  /-- An HCT packet: endpoint record, entropy value, the 32 B header, its messages, its control payload. -/
  | hct (dest entropy hdr : Nat) (body : HctBody)
  /-- A RoCEv2 request or response: the peer as the queue pair's context names it (address, IPv4, UDP source port), QP, PSN, operation
  (0 READ, 1 WRITE, 2 SEND, 3 ACK, 4 READ response, 8 + code NAK), key, data and their poison, and the bucket tag of a stream's block
  (Table 9.6). -/
  | roce (peer qpn psn op key addr bytes data bad : Nat) (bucket : Nat := 0)
  /-- A PFC frame for a priority: its pause, or the pause's end (R333). -/
  | pfc (pcp : Nat) (on : Bool)
  deriving DecidableEq, Repr

/-- The addresses and marks of a frame that the hardware originates (R330, R333, R335, R341): destination and source MAC, PCP and identifier of its
VLAN tag, DSCP and ECN field, the source endpoint's address and whether it is IPv4, the UDP destination port, and the packet's CRC-32C or ICRC. -/
structure Wire where
  dst : Nat
  src : Nat
  vlan : Option (Nat × Nat)
  dscp : Nat
  ecn : Nat
  endpoint : Nat
  v4 : Bool
  udp : Nat
  check : W32
  deriving DecidableEq, Repr

/-- A ring-native block (R348): sequence number, far tag, first transfer's index, transfers. -/
structure NativeBlock where
  seq : Nat
  farTag : Nat
  first : Nat
  xfers : List (Nat × Nat)
  deriving DecidableEq, Repr

/-- What leaves the module: the MODEL's own record of outputs. -/
inductive Emit where
  /-- A frame on a port: its addresses where the hardware originates it, its AN and packet number where MACsec protects it, and the bit
  that an injected fault flips, with whether it does so after the FCS is formed (R353). -/
  | frame (port : Nat) (wire : Option Wire) (sec : Option (Nat × Nat)) (corrupt : Option (Nat × Bool)) (body : TxBody)
  /-- A ring-native block, with the bit that an injected fault flips, and whether it does so after the CRC is formed (R348, R353). -/
  | native (port : Nat) (corrupt : Option (Nat × Bool)) (b : NativeBlock)
  /-- A ring-native acknowledgement with returned credit, or a request to replay. -/
  | nativeAck (port seq credit : Nat) (again : Bool)
  /-- A record in a host receive ring (R332): Headstock, port, frame length (0 for an egress timestamp), timestamp in units of
  2^-16 ns, MACsec passed, checksums good, ECN bits, tag. -/
  | hostRecord (hs port len stamp : Nat) (sec sum : Bool) (ecn tag : Nat)
  /-- A reply on the management port: command, status, session, sequence number, payload bytes, and the tag where it has one (R384). -/
  | reply (cmd status session seq : Nat) (payload : List Byte) (tag : Option (BitVec 256))
  /-- The inbound mailbox entry that the image takes: its session and its bytes (R391). -/
  | mail (session : Nat) (bytes : List Byte)
  /-- A management connection closed. -/
  | closed (conn : Nat)
  /-- A reply to ARP, neighbour solicitation or ICMP echo, from the management port's MAC address. -/
  | answer (mac kind : Nat) (addr : BitVec 128)
  /-- The loader's report to its caller: code (0 for a program that it loaded), die, index of the offending entry (R189). -/
  | loader (code die : Nat) (index : Option Nat)
  /-- An access of a Headstock core completes: the core, its address, and what a load read with the poison of its blocks (R379). -/
  | hsDone (core addr : Nat) (store failed : Bool) (data poison : Nat)
  /-- A Headstock core takes a precise access-fault exception (R380). -/
  | hsFault (core : Nat)
  /-- Bytes that the carrier reads, or a write acknowledged on the carrier bus; or what it sent is not acknowledged (R434). -/
  | bus (bytes : List Byte)
  | busNack
  deriving DecidableEq, Repr

/-- A port (R330 to R333, R344, R353). -/
structure Port where
  /-- Key, salt and SSCI registers by offset: write-only (Table 13.10). -/
  keys : Sparse W32 := []
  rxSa : Sparse (Option Sa) := []
  txSa : Sparse (Option Sa) := []
  /-- Frames held while paused, and the tick at which the pause ends. -/
  txq : List TxBody := []
  pausedTo : Option Nat := none
  /-- The priority on which this port has paused its peer (R333). -/
  pausing : Option Nat := none
  /-- PFC frames that have arrived: quanta of the port's priority. -/
  pfcIn : List Nat := []
  /-- Frames that an injected fault holds back, with the frames that must still pass. -/
  heldRx : List (FrameIn × Nat) := []
  heldTx : List (TxBody × Nat) := []
  /-- Ring-native: next sequence numbers, blocks not acknowledged, transfers of credit left. -/
  txSeq : Nat := 0
  rxSeq : Nat := 0
  unacked : List NativeBlock := []
  credit : Nat := 256
  /-- Blocks that an injected fault holds back, with those that must still pass (R353), and a replay that waits for the port to send again (R407). -/
  heldBlocksRx : List (NativeIn × Nat) := []
  heldBlocksTx : List (NativeBlock × Nat) := []
  replayDue : Bool := false
  /-- Runs ring-native framing since its last training. -/
  ringNative : Bool := false
  /-- Disabled at bring-up: its lanes could not all be placed (R326). -/
  disabled : Bool := false
  deriving DecidableEq, Repr

end Sys2Proof.Machine
end

