-- ==== Sys2Proof/Machine/MgmtTypes.lean ====
section
/-!
DEFINITION. The management port, the fuses and boot flash, and the pins (chapters 15 to 17).
-/
namespace Sys2Proof.Machine

/-- A management session, from its connection on (R383 to R388). -/
structure Session where
  conn : Nat
  /-- Identifier, assigned at HELLO; 0 before. -/
  id : Nat := 0
  /-- Privilege granted at ENCAP: 0 observer, 1 operator, 2 owner, 3 debug. -/
  priv : Option Nat := none
  /-- Granted by an unclaimed module: CLAIM, ATTEST, STATUS and CLOSE only (R393). -/
  unclaimed : Bool := false
  /-- HELLO's privilege and slot, and the payloads of messages 1 and 2 (R386). -/
  want : Nat := 0
  slot : Nat := 0
  transcript : List Byte := []
  /-- K_req and K_rsp. -/
  kReq : BitVec 256 := 0
  kRsp : BitVec 256 := 0
  /-- Last accepted `SEQ` and the reply to it, and consecutive discards (R385). -/
  seq : Nat := 0
  cached : Option Emit := none
  discards : Nat := 0
  /-- Tick of the last valid request. -/
  lastAt : Nat
  deriving DecidableEq, Repr

/-- A mailbox entry (R391). -/
structure MailEntry where
  session : Nat
  bytes : List Byte
  deriving DecidableEq, Repr

/-- An image that LOAD_IMAGE has given to the loader (R186): the operands of the command; whether it has been accepted and its sections are on
their way (R27); and their transfers, each with the section's index. -/
structure Load where
  job : Nat
  die : Fin 8
  rank : Nat
  layout : List Nat
  points : List (Fin 8)
  bytes : List Byte
  begun : Bool := false
  spans : List (Nat × Span) := []
  deriving DecidableEq, Repr

/-- The register accesses of a request that the management firmware carries out (R361 to R363, R385): the connection, the session, the command and its `SEQ`; the
status that its reply will have; the accesses left, each with whether it is a write; the bytes read; and the tick from which the first of them waits. -/
structure RegWork where
  conn : Nat
  session : Nat
  cmd : Nat
  seq : Nat
  status : Nat
  left : List (Bool × RegAccess)
  got : List Byte := []
  since : Nat
  deriving DecidableEq, Repr

/-- The management firmware's own state, and that of the operating-system image (R381, R383 to R391). -/
structure Mgmt where
  sessions : List Session := []
  /-- Identifier of the next session (the MODEL's own choice, log entry 23). -/
  nextId : Nat := 1
  /-- Ticks of the ENCAPs refused in the last 60 s, and the tick up to which every HELLO is refused (R387). -/
  refusals : List Nat := []
  helloFrom : Nat := 0
  /-- The request whose register accesses are under way, and the requests that have arrived since, oldest first (R385). -/
  work : Option RegWork := none
  waiting : List Instr := []
  /-- The status record that the last tick edge built (R390). -/
  record : Option Nat := none
  inbox : List MailEntry := []
  outbox : List MailEntry := []
  /-- Inbound entries that the image has taken, by which jobs reach the loader (R381), and the images that the loader has before it, oldest first. -/
  taken : Nat := 0
  loads : List Load := []
  /-- Key pairs generated: one at each cold reset (R386). -/
  keyGen : Nat := 0
  deriving DecidableEq, Repr

/-- An owner slot (R392). -/
structure OwnerSlot where
  digest : BitVec 512
  max : Nat
  revoked : Bool := false
  deriving DecidableEq, Repr

/-- The fuses that commands can blow (Table 15.6). -/
structure Fuses where
  slots : Sparse (Option OwnerSlot) := []
  ownerLock : Bool := false
  debugDisable : Bool := false
  rollback : Nat := 0
  ownerBoot : Option (BitVec 512) := none
  deriving DecidableEq, Repr

/-- Boot flash (R394): a copy or a configuration block that FLASH_WRITE has written; none where it is as shipped. -/
structure Flash where
  copyA : Option StageCopy := none
  copyB : Option StageCopy := none
  config : Option ConfigBlock := none
  deriving DecidableEq, Repr

/-- Pins, cage and carrier bus (chapter 17). -/
structure Pins where
  /-- `RESET_N` was low in the last two samples (R402). -/
  resetLow : Bool := false
  /-- A transceiver in the SFP28 cage: 1 SR, 2 LR, 3 CR, 0 not recognised (R437). -/
  cage : Option Nat := none
  /-- Dynamic address and offset of the status target (R434). -/
  dynamic : Option (BitVec 7) := none
  offset : Nat := 0
  deriving DecidableEq, Repr

/-- Start-up and the watchdog (R405, R420, R435). -/
structure Boot where
  /-- Tick at which the step in progress began. -/
  stepAt : Nat := 0
  /-- Stage 2 found the FRU EEPROM bad (R435). -/
  fruBad : Bool := false
  /-- Rollback index of the stage 2 that runs (R395). -/
  index : Nat := 0
  /-- An extension of the measurement log was refused (R397). -/
  logFull : Bool := false
  /-- Tick of the last kick of the watchdog, or of its arming. -/
  kicked : Nat := 0
  /-- The module held itself in reset since the last full reset (R408). -/
  held : Bool := false
  /-- Stage 2 failed: the recovery responder serves the management port (R396). -/
  responder : Bool := false
  deriving DecidableEq, Repr

end Sys2Proof.Machine
end

