-- ==== Sys2Proof/Machine/RegMap.lean ====
section
/-!
DEFINITION. The register map: every register of every page with its fields, access codes and reset values
(R358, R364, R365 and the register tables that the rows name).
-/
namespace Sys2Proof.Machine

/-- Access codes (Table 14.2). -/
inductive Acc where
  | ro | rw | rwi | rwl | w1c | w1s | wo
  deriving DecidableEq, Repr

/-- The block types with a page (Table 14.1). -/
inductive PageType where
  | gouge | skew | part | bed | qclk | hwc | ce | swc | swcache | fpp | fpe | byp | gov | root | tick | mgmt | apply | elog
  deriving DecidableEq, Repr

/-- A field: its lowest bit, its width, its access code and its reset value. -/
structure RegField where
  lo : Nat
  len : Nat
  acc : Acc
  rst : Nat
  deriving DecidableEq, Repr

/-- `count` consecutive 4 B registers from `off` with the same fields. -/
structure RegRow where
  off : Nat
  count : Nat
  fields : List RegField
  deriving DecidableEq, Repr

/-- Registers of the common page (Table 14.3). -/
def commonRows : List RegRow := [
  ⟨0x000, 1, [⟨0, 16, .ro, 0⟩, ⟨16, 16, .ro, 0⟩]⟩, -- BLK_ID R365
  ⟨0x004, 1, [⟨0, 8, .ro, 0⟩, ⟨8, 8, .ro, 1⟩, ⟨16, 8, .ro, 176⟩]⟩, -- BLK_VER R365
  ⟨0x008, 1, [⟨0, 1, .ro, 0⟩]⟩, -- BLK_CAPS R365
  ⟨0x00C, 1, [⟨0, 1, .w1s, 0⟩, ⟨1, 1, .w1s, 0⟩]⟩, -- BLK_LOCK R365
  ⟨0x010, 1, [⟨0, 1, .wo, 0⟩]⟩, -- BLK_CTRL R365
  ⟨0x014, 1, [⟨0, 1, .ro, 0⟩, ⟨1, 1, .ro, 0⟩, ⟨2, 1, .ro, 0⟩, ⟨3, 1, .ro, 0⟩]⟩, -- BLK_STAT R365
  ⟨0x018, 1, [⟨0, 32, .w1c, 0⟩]⟩, -- BLK_ERR R365
  ⟨0x01C, 1, [⟨0, 32, .rwi, 0⟩]⟩, -- BLK_ERRMASK R365
  ⟨0x020, 1, [⟨0, 4, .rwi, 0⟩]⟩, -- BLK_APPLY_GRP R365
  ⟨0x024, 1, [⟨0, 1, .ro, 0⟩]⟩, -- BLK_STAGED R365
  ⟨0x028, 1, [⟨0, 32, .ro, 0⟩]⟩, -- BLK_SHADOW_TICK R365
  ⟨0x030, 1, [⟨0, 31, .ro, 0⟩, ⟨31, 1, .ro, 0⟩]⟩, -- BLK_SNAP_SEQ R365
  ⟨0x038, 2, [⟨0, 32, .ro, 0⟩]⟩] -- BLK_SNAP_TICK_LO/HI R365

/-- Registers of the gouge page. -/
def gougeRows : List RegRow := [
  ⟨0x100, 1, [⟨0, 1, .ro, 0⟩, ⟨1, 4, .ro, 0⟩, ⟨5, 2, .ro, 0⟩]⟩, -- GOUGE.INFO R375
  ⟨0x110, 2, [⟨0, 32, .ro, 0⟩]⟩, -- GOUGE.ROWS_CNT_LO/HI R375
  ⟨0x118, 2, [⟨0, 32, .ro, 0⟩]⟩, -- GOUGE.ACC_ILOCK_CNT_LO/HI R375
  ⟨0x120, 2, [⟨0, 32, .ro, 0⟩]⟩, -- GOUGE.XPOSE_WAIT_CNT_LO/HI R375
  ⟨0x128, 2, [⟨0, 32, .ro, 0⟩]⟩, -- GOUGE.CHAIN_LATE_CNT_LO/HI R375
  ⟨0x130, 2, [⟨0, 32, .ro, 0⟩]⟩, -- GOUGE.RETRY_CNT_LO/HI R375
  ⟨0x138, 2, [⟨0, 32, .ro, 0⟩]⟩, -- GOUGE.WPAR_CNT_LO/HI R375
  ⟨0x1C0, 1, [⟨0, 32, .rw, 0⟩]⟩, -- GOUGE.SEED_LO R85
  ⟨0x1C4, 1, [⟨0, 32, .rw, 0⟩]⟩, -- GOUGE.SEED_HI R85
  ⟨0x1C8, 2, [⟨0, 32, .ro, 0⟩]⟩, -- GOUGE.INT_SAT_CNT_LO/HI R85
  ⟨0x1D0, 2, [⟨0, 32, .ro, 0⟩]⟩, -- GOUGE.MX_STICKY_CNT_LO/HI R85
  ⟨0x1D8, 2, [⟨0, 32, .ro, 0⟩]⟩, -- GOUGE.PUSH_WAIT_CNT_LO/HI R107
  ⟨0x1E0, 2, [⟨0, 32, .ro, 0⟩]⟩, -- GOUGE.PUSH_TILE_CNT_LO/HI R107
  ⟨0x1E8, 1, [⟨0, 32, .rw, 0⟩]⟩, -- GOUGE.STEP R137
  ⟨0x1F0, 2, [⟨0, 32, .ro, 0⟩]⟩, -- QSTALL_CNT_LO/HI R198
  ⟨0x200, 1, [⟨0, 1, .rwi, 0⟩, ⟨1, 4, .w1c, 0⟩]⟩, -- HAZ_CTRL R198
  ⟨0x204, 2, [⟨0, 16, .ro, 0⟩, ⟨16, 16, .ro, 0⟩]⟩, -- HAZ_CNT_LO/HI R198
  ⟨0x210, 32, [⟨0, 32, .ro, 0⟩]⟩, -- HAZ_REC0–3 R198
  ⟨0x290, 1, [⟨0, 14, .ro, 0⟩, ⟨14, 2, .ro, 0⟩, ⟨16, 1, .ro, 0⟩]⟩, -- ILL_REC0 R223
  ⟨0x294, 2, [⟨0, 32, .ro, 0⟩]⟩, -- ILL_REC1/2 R223
  ⟨0x2A0, 1, [⟨0, 14, .ro, 0⟩, ⟨14, 2, .ro, 0⟩]⟩, -- PROG R223
  ⟨0x2A8, 2, [⟨0, 32, .ro, 0⟩]⟩, -- BANK_STALL_CNT R251
  ⟨0x2B0, 1, [⟨0, 3, .ro, 0⟩, ⟨3, 3, .ro, 1⟩, ⟨6, 3, .ro, 2⟩, ⟨9, 3, .ro, 3⟩, ⟨12, 5, .ro, 0⟩, ⟨17, 1, .ro, 1⟩]⟩, -- GOUGE.AMAP R323
  ⟨0x2B4, 1, [⟨0, 3, .ro, 0⟩, ⟨3, 16, .ro, 0⟩]⟩, -- GOUGE.CHECK R323
  ⟨0x2B8, 2, [⟨0, 32, .ro, 0⟩]⟩, -- GOUGE.UNCHECKED_CNT_LO/HI R323
  ⟨0x2C0, 2, [⟨0, 32, .ro, 0⟩]⟩, -- GOUGE.SRAM_CORR_CNT_LO/HI R323
  ⟨0x2C8, 1, [⟨0, 2, .wo, 0⟩, ⟨2, 2, .wo, 0⟩]⟩, -- GOUGE.CHK_INJ R323
  ⟨0x2D0, 2, [⟨0, 32, .ro, 0⟩]⟩] -- LAND_EVICT_CNT R25

/-- Registers of the skew page. -/
def skewRows : List RegRow := [
  ⟨0x100, 1, [⟨0, 3, .ro, 0⟩, ⟨3, 2, .ro, 0⟩]⟩, -- SKEW.INFO R164
  ⟨0x110, 2, [⟨0, 32, .ro, 0⟩]⟩, -- SKEW.VEC_CNT_LO/HI R164
  ⟨0x118, 2, [⟨0, 32, .ro, 0⟩]⟩, -- SKEW.SFU_CNT_LO/HI R164
  ⟨0x120, 2, [⟨0, 32, .ro, 0⟩]⟩, -- SKEW.RETRY_CNT_LO/HI R164
  ⟨0x128, 2, [⟨0, 32, .ro, 0⟩]⟩, -- SKEW.RAW_WAIT_CNT_LO/HI R164
  ⟨0x130, 2, [⟨0, 32, .ro, 0⟩]⟩, -- SKEW.PUSH_WAIT_CNT_LO/HI R164
  ⟨0x140, 1, [⟨0, 4, .ro, 0⟩, ⟨4, 1, .w1c, 0⟩]⟩, -- SKEW.CHECK R324
  ⟨0x148, 2, [⟨0, 32, .ro, 0⟩]⟩, -- SKEW.SRAM_CORR_CNT_LO/HI R324
  ⟨0x150, 1, [⟨0, 4, .wo, 0⟩, ⟨4, 2, .wo, 0⟩]⟩, -- SKEW.CHK_INJ R324
  ⟨0x1C0, 1, [⟨0, 32, .rw, 0⟩]⟩, -- SKEW.SEED_LO R164
  ⟨0x1C4, 1, [⟨0, 32, .rw, 0⟩]⟩, -- SKEW.SEED_HI R164
  ⟨0x1E8, 1, [⟨0, 32, .rw, 0⟩]⟩, -- SKEW.STEP R164
  ⟨0x1F0, 2, [⟨0, 32, .ro, 0⟩]⟩, -- QSTALL_CNT_LO/HI R198
  ⟨0x200, 1, [⟨0, 1, .rwi, 0⟩, ⟨1, 4, .w1c, 0⟩]⟩, -- HAZ_CTRL R198
  ⟨0x204, 2, [⟨0, 16, .ro, 0⟩, ⟨16, 16, .ro, 0⟩]⟩, -- HAZ_CNT_LO/HI R198
  ⟨0x210, 32, [⟨0, 32, .ro, 0⟩]⟩, -- HAZ_REC0–3 R198
  ⟨0x290, 1, [⟨0, 14, .ro, 0⟩, ⟨14, 2, .ro, 0⟩, ⟨16, 1, .ro, 0⟩]⟩, -- ILL_REC0 R223
  ⟨0x294, 2, [⟨0, 32, .ro, 0⟩]⟩, -- ILL_REC1/2 R223
  ⟨0x2A0, 1, [⟨0, 14, .ro, 0⟩, ⟨14, 2, .ro, 0⟩]⟩, -- PROG R223
  ⟨0x2A8, 2, [⟨0, 32, .ro, 0⟩]⟩, -- BANK_STALL_CNT R251
  ⟨0x2D0, 2, [⟨0, 32, .ro, 0⟩]⟩] -- LAND_EVICT_CNT R25

/-- Registers of the part page. -/
def partRows : List RegRow := [
  ⟨0x100, 1, [⟨0, 2, .ro, 0⟩, ⟨2, 3, .ro, 0⟩, ⟨5, 8, .ro, 0⟩]⟩, -- PART.INFO R165
  ⟨0x104, 1, [⟨0, 4, .rwi, 0⟩]⟩, -- PART.HART_CTRL R165
  ⟨0x108, 1, [⟨0, 8, .ro, 0⟩]⟩, -- PART.HART_STATE R165
  ⟨0x110, 4, [⟨0, 17, .rw, 0⟩]⟩, -- PART.HART_ENTRY0–3 R165
  ⟨0x120, 4, [⟨0, 17, .ro, 0⟩, ⟨17, 6, .ro, 0⟩]⟩, -- PART.HART_FAULT0–3 R165
  ⟨0x140, 2, [⟨0, 32, .ro, 0⟩]⟩, -- PART.SE_STATE_LO/HI R165
  ⟨0x148, 1, [⟨0, 5, .ro, 0⟩, ⟨5, 16, .ro, 0⟩]⟩, -- PART.SE_ERR R165
  ⟨0x150, 1, [⟨0, 1, .rw, 0⟩, ⟨1, 9, .rw, 0⟩, ⟨10, 9, .rw, 0x1ff⟩]⟩, -- PART.CB_LOG_CTRL R165
  ⟨0x154, 1, [⟨0, 1, .w1c, 0⟩]⟩, -- PART.CB_STICKY R165
  ⟨0x160, 2, [⟨0, 32, .ro, 0⟩]⟩, -- PART.WHITTLE_TX_CNT_LO/HI R165
  ⟨0x168, 2, [⟨0, 32, .ro, 0⟩]⟩, -- PART.WHITTLE_RX_CNT_LO/HI R165
  ⟨0x170, 2, [⟨0, 32, .ro, 0⟩]⟩, -- PART.MBOX_FULL_CNT_LO/HI R165
  ⟨0x178, 2, [⟨0, 32, .ro, 0⟩]⟩, -- PART.CB_LOG_OVR_CNT_LO/HI R165
  ⟨0x180, 1, [⟨0, 8, .rwi, 0⟩]⟩, -- PART.CB_LOG_SEL R165
  ⟨0x184, 4, [⟨0, 32, .ro, 0⟩]⟩, -- PART.CB_LOG_DATA0–3 R165
  ⟨0x198, 1, [⟨0, 2, .rw, 0⟩, ⟨2, 2, .rw, 0⟩]⟩, -- PART.SE_SPLIT R251
  ⟨0x19C, 1, [⟨0, 1, .rw, 0⟩]⟩, -- PART.RT_CTRL R251
  ⟨0x1A0, 2, [⟨0, 32, .ro, 0⟩]⟩, -- PART.SE_BANK_STALL_CNT_LO/HI R251
  ⟨0x1A8, 2, [⟨0, 32, .ro, 0⟩]⟩, -- PART.EPOCH_MISS_CNT_LO/HI R251
  ⟨0x1B0, 2, [⟨0, 32, .ro, 0⟩]⟩, -- PART.DL_MISS_CNT_LO/HI R251
  ⟨0x1B8, 1, [⟨0, 4, .rwi, 0⟩]⟩, -- PART.DL_SEL R251
  ⟨0x1C0, 4, [⟨0, 32, .ro, 0⟩]⟩, -- PART.DL_DATA0–3 R251
  ⟨0x1D0, 1, [⟨0, 32, .ro, 0⟩]⟩, -- PART.DL_PENDING R251
  ⟨0x800, 512, [⟨0, 32, .ro, 0⟩]⟩] -- PART.CB_SLOT0–511 R165

/-- Registers of the bed page. -/
def bedRows : List RegRow := [
  ⟨0x100, 1, [⟨0, 5, .ro, 0⟩, ⟨5, 3, .ro, 0⟩, ⟨8, 2, .ro, 0⟩, ⟨10, 5, .ro, 0⟩]⟩, -- BED.INFO R34
  ⟨0x104, 1, [⟨0, 16, .ro, 0⟩, ⟨16, 16, .ro, 0⟩]⟩, -- BED.RATE R34
  ⟨0x108, 1, [⟨0, 9, .ro, 0x100⟩]⟩, -- BED.CREDIT R34
  ⟨0x110, 2, [⟨0, 32, .ro, 0⟩]⟩, -- BED.XFER_WG_LO/HI R34
  ⟨0x118, 2, [⟨0, 32, .ro, 0⟩]⟩, -- BED.XFER_AG_LO/HI R34
  ⟨0x120, 2, [⟨0, 32, .ro, 0⟩]⟩, -- BED.COPY_CNT_LO/HI R34
  ⟨0x128, 2, [⟨0, 32, .ro, 0⟩]⟩, -- BED.STARVE_CNT_LO/HI R34
  ⟨0x130, 1, [⟨0, 8, .ro, 0⟩]⟩, -- BED.STARVE_MAX R34
  ⟨0x134, 1, [⟨0, 1, .wo, 0⟩]⟩, -- BED.STARVE_MAX_CLR R34
  ⟨0x138, 2, [⟨0, 32, .ro, 0⟩]⟩, -- BED.BACKPRESS_CNT_LO/HI R34
  ⟨0x140, 2, [⟨0, 32, .ro, 0⟩]⟩, -- BED.ECC_CORR_CNT_LO/HI R34
  ⟨0x180, 1, [⟨0, 1, .rwi, 0⟩, ⟨1, 2, .rwi, 0⟩, ⟨3, 1, .rwi, 0⟩, ⟨4, 1, .rwi, 0⟩, ⟨5, 5, .rwi, 0⟩, ⟨10, 4, .rwi, 0⟩]⟩, -- BED.INJ R357
  ⟨0x184, 5, [⟨0, 32, .rwi, 0⟩]⟩, -- BED.INJ_VAL, INJ_MASK, INJ_BIT, INJ_CNT R357
  ⟨0x198, 2, [⟨0, 32, .ro, 0⟩]⟩] -- BED.LINK_RESEND_CNT_LO/HI R357

/-- Registers of the qclk page. -/
def qclkRows : List RegRow := [
  ⟨0x100, 1, [⟨0, 3, .ro, 0⟩, ⟨3, 2, .ro, 0⟩]⟩, -- QCLK.INFO R275
  ⟨0x104, 1, [⟨0, 3, .rw, 0⟩]⟩, -- QCLK.OP_REQ R275
  ⟨0x108, 1, [⟨0, 3, .ro, 0⟩, ⟨3, 3, .ro, 0⟩, ⟨6, 1, .ro, 0⟩, ⟨7, 1, .ro, 0⟩, ⟨8, 1, .ro, 0⟩, ⟨9, 1, .ro, 0⟩, ⟨10, 1, .ro, 0⟩, ⟨11, 1, .ro, 0⟩]⟩, -- QCLK.OP_STAT R275
  ⟨0x10C, 1, [⟨0, 8, .ro, 0⟩]⟩, -- QCLK.PERMIT R275
  ⟨0x110, 1, [⟨0, 16, .ro, 0⟩, ⟨16, 16, .ro, 0⟩]⟩, -- QCLK.MEAS R275
  ⟨0x114, 1, [⟨0, 16, .ro, 0⟩]⟩, -- QCLK.HOLD_LAST R275
  ⟨0x118, 1, [⟨0, 32, .ro, 0⟩]⟩, -- QCLK.DEFER_LAST R275
  ⟨0x11C, 1, [⟨0, 1, .w1c, 0⟩, ⟨1, 1, .w1c, 0⟩]⟩, -- QCLK.STICKY R275
  ⟨0x120, 2, [⟨0, 32, .ro, 0⟩]⟩, -- QCLK.SLIP_CNT_LO/HI R275
  ⟨0x128, 2, [⟨0, 32, .ro, 0⟩]⟩, -- QCLK.HOLD_CNT_LO/HI R275
  ⟨0x130, 2, [⟨0, 32, .ro, 0⟩]⟩, -- QCLK.STRETCH_CNT_LO/HI R275
  ⟨0x138, 2, [⟨0, 32, .ro, 0⟩]⟩, -- QCLK.DROOP_LIM_CNT_LO/HI R275
  ⟨0x140, 1, [⟨0, 16, .ro, 0⟩]⟩, -- QCLK.SLIP_MAX R275
  ⟨0x144, 1, [⟨0, 1, .wo, 0⟩]⟩, -- QCLK.SLIP_MAX_CLR R275
  ⟨0x148, 1, [⟨0, 32, .ro, 0⟩]⟩, -- QCLK.CAL_MARGIN R275
  ⟨0x180, 1, [⟨0, 1, .rw, 0⟩, ⟨1, 1, .rwl, 0⟩, ⟨2, 4, .rw, 12⟩]⟩, -- QCLK.SCHED R198
  ⟨0x184, 2, [⟨0, 32, .ro, 0⟩]⟩, -- QCLK.PHASE_TICK_LO/HI R198
  ⟨0x18C, 1, [⟨0, 32, .ro, 0⟩]⟩, -- QCLK.PHASE_LATE R198
  ⟨0x190, 2, [⟨0, 32, .ro, 0⟩]⟩] -- QCLK.ARRAY_WAIT_CNT_LO/HI R198

/-- Registers of the hwc page. -/
def hwcRows : List RegRow := [
  ⟨0x100, 1, [⟨0, 11, .ro, 0⟩, ⟨11, 8, .ro, 0⟩, ⟨19, 5, .ro, 0⟩]⟩, -- HWC.INFO R249
  ⟨0x104, 1, [⟨0, 1, .rw, 1⟩, ⟨1, 8, .rw, 8⟩]⟩, -- HWC.CTRL R249
  ⟨0x108, 1, [⟨0, 10, .ro, 0⟩, ⟨10, 16, .ro, 0⟩]⟩, -- HWC.REPAIR R249
  ⟨0x110, 2, [⟨0, 32, .ro, 0⟩]⟩, -- HWC.RD_CNT_LO/HI R249
  ⟨0x118, 2, [⟨0, 32, .ro, 0⟩]⟩, -- HWC.WR_CNT_LO/HI R249
  ⟨0x120, 2, [⟨0, 32, .ro, 0⟩]⟩, -- HWC.BANK_FULL_CNT_LO/HI R249
  ⟨0x128, 2, [⟨0, 32, .ro, 0⟩]⟩, -- HWC.RA_HIT_CNT_LO/HI R249
  ⟨0x130, 2, [⟨0, 32, .ro, 0⟩]⟩, -- HWC.RA_DISCARD_CNT_LO/HI R249
  ⟨0x138, 2, [⟨0, 32, .ro, 0⟩]⟩, -- HWC.SCRUB_PASS_CNT_LO/HI R249
  ⟨0x140, 1, [⟨0, 3, .rw, 4⟩, ⟨3, 1, .w1c, 0⟩]⟩, -- HWC.ECC, SWC.ECC R325
  ⟨0x148, 2, [⟨0, 32, .ro, 0⟩]⟩, -- HWC.CORR_CNT_LO/HI, SWC.CORR_CNT_LO/HI R325
  ⟨0x150, 1, [⟨0, 13, .ro, 0⟩]⟩, -- HWC.POISON, SWC.POISON R325
  ⟨0x154, 1, [⟨0, 11, .ro, 0⟩, ⟨11, 1, .ro, 0⟩, ⟨12, 6, .ro, 0⟩, ⟨18, 1, .w1c, 0⟩]⟩] -- HWC.LANE_SUSPECT R325

/-- Registers of the ce page. -/
def ceRows : List RegRow := [
  ⟨0x100, 1, [⟨0, 3, .ro, 0⟩, ⟨3, 11, .ro, 0x400⟩]⟩, -- CE.INFO R136
  ⟨0x104, 1, [⟨0, 11, .ro, 0⟩]⟩, -- CE.OPEN R136
  ⟨0x108, 1, [⟨0, 32, .ro, 0⟩]⟩, -- CE.RET_USE R136
  ⟨0x10C, 1, [⟨0, 9, .ro, 0⟩, ⟨9, 17, .ro, 0⟩]⟩, -- CE.PARK R136
  ⟨0x110, 1, [⟨0, 10, .ro, 0⟩, ⟨10, 16, .ro, 0⟩]⟩, -- CE.STALL R136
  ⟨0x114, 1, [⟨0, 32, .ro, 0⟩]⟩, -- CE.STALL_STEP R136
  ⟨0x120, 2, [⟨0, 32, .ro, 0⟩]⟩, -- CE.CHUNK_CNT_LO/HI R136
  ⟨0x128, 2, [⟨0, 32, .ro, 0⟩]⟩, -- CE.OVF_CNT_LO/HI R136
  ⟨0x130, 2, [⟨0, 32, .ro, 0⟩]⟩, -- CE.FB_CNT_LO/HI R136
  ⟨0x138, 2, [⟨0, 32, .ro, 0⟩]⟩, -- CE.PREPASS_CNT_LO/HI R136
  ⟨0x140, 2, [⟨0, 32, .ro, 0⟩]⟩, -- CE.FCAST_WAIT_CNT_LO/HI R136
  ⟨0x148, 2, [⟨0, 32, .ro, 0⟩]⟩, -- CE.SPECIAL_CNT_LO/HI R136
  ⟨0x180, 1, [⟨0, 32, .rwi, 0⟩]⟩, -- CE.FB_LOG_BASE_LO R421
  ⟨0x184, 1, [⟨0, 16, .rwi, 0⟩]⟩, -- CE.FB_LOG_BASE_HI R421
  ⟨0x188, 1, [⟨0, 16, .rwi, 0⟩]⟩, -- CE.FB_LOG_SIZE R421
  ⟨0x18C, 1, [⟨0, 32, .ro, 0⟩]⟩, -- CE.FB_LOG_HEAD R421
  ⟨0x190, 1, [⟨0, 32, .rwi, 0⟩]⟩, -- CE.FB_LOG_TAIL R421
  ⟨0x194, 1, [⟨0, 1, .w1c, 0⟩]⟩] -- CE.FB_LOG_STAT R421

/-- Registers of the swc page. -/
def swcRows : List RegRow := [
  ⟨0x100, 1, [⟨0, 4, .rwl, 4⟩, ⟨4, 4, .ro, 4⟩]⟩, -- SWC.CARVE R250
  ⟨0x110, 2, [⟨0, 32, .ro, 0⟩]⟩, -- SWC.RD_CNT_LO/HI R250
  ⟨0x118, 2, [⟨0, 32, .ro, 0⟩]⟩, -- SWC.WR_CNT_LO/HI R250
  ⟨0x140, 1, [⟨0, 3, .rw, 4⟩, ⟨3, 1, .w1c, 0⟩]⟩, -- HWC.ECC, SWC.ECC R325
  ⟨0x148, 2, [⟨0, 32, .ro, 0⟩]⟩, -- HWC.CORR_CNT_LO/HI, SWC.CORR_CNT_LO/HI R325
  ⟨0x150, 1, [⟨0, 13, .ro, 0⟩]⟩, -- HWC.POISON, SWC.POISON R325
  ⟨0x158, 2, [⟨0, 32, .ro, 0⟩]⟩] -- SWC.LINK_CORR_CNT_LO/HI R325

/-- Registers of the swcache page. -/
def swcacheRows : List RegRow := [
  ⟨0x100, 1, [⟨0, 1, .rw, 1⟩, ⟨1, 5, .rw, 16⟩]⟩, -- SWCACHE.CTRL R250
  ⟨0x110, 2, [⟨0, 32, .ro, 0⟩]⟩, -- SWCACHE.HIT_CNT_LO/HI R250
  ⟨0x118, 2, [⟨0, 32, .ro, 0⟩]⟩, -- SWCACHE.MISS_CNT_LO/HI R250
  ⟨0x120, 2, [⟨0, 32, .ro, 0⟩]⟩, -- SWCACHE.PF_CNT_LO/HI R250
  ⟨0x128, 2, [⟨0, 32, .ro, 0⟩]⟩, -- SWCACHE.PF_DISCARD_CNT_LO/HI R250
  ⟨0x130, 2, [⟨0, 32, .ro, 0⟩]⟩] -- SWCACHE.SRAM_CORR_CNT R325

/-- Registers of the fpp page. -/
def fppRows : List RegRow := [
  ⟨0x100, 1, [⟨0, 7, .ro, 0⟩, ⟨7, 1, .ro, 0⟩]⟩, -- FPP.INFO R354
  ⟨0x104, 1, [⟨0, 1, .rw, 1⟩, ⟨1, 1, .rw, 0⟩, ⟨2, 1, .rw, 0⟩, ⟨3, 12, .rw, 0⟩]⟩, -- FPP.CFG R354
  ⟨0x108, 1, [⟨0, 14, .rw, 0x2400⟩]⟩, -- FPP.MTU R354
  ⟨0x110, 2, [⟨0, 32, .ro, 0⟩]⟩, -- FPP.MAC_LO/HI R354
  ⟨0x118, 1, [⟨0, 32, .rw, 0⟩]⟩, -- FPP.NEXTHOP_LO R354
  ⟨0x11C, 1, [⟨0, 16, .rw, 0⟩]⟩, -- FPP.NEXTHOP_HI R354
  ⟨0x120, 1, [⟨0, 1, .ro, 0⟩, ⟨1, 1, .ro, 0⟩, ⟨2, 1, .ro, 0⟩, ⟨3, 1, .ro, 0⟩, ⟨4, 1, .ro, 0⟩, ⟨5, 1, .ro, 0⟩, ⟨6, 1, .ro, 0⟩, ⟨7, 1, .w1c, 0⟩]⟩, -- FPP.STAT R354
  ⟨0x124, 1, [⟨0, 32, .ro, 0⟩]⟩, -- FPP.TUNE R354
  ⟨0x128, 1, [⟨0, 16, .ro, 0⟩, ⟨16, 16, .ro, 0⟩]⟩, -- FPP.PTP_DELAY R354
  ⟨0x130, 16, [⟨0, 32, .ro, 0⟩]⟩, -- counters, _LO/_HI each R354
  ⟨0x180, 1, [⟨0, 1, .rw, 0⟩, ⟨1, 1, .rw, 0⟩, ⟨2, 1, .rw, 0⟩]⟩, -- FPP.MACSEC R354
  ⟨0x184, 1, [⟨0, 30, .rw, 0⟩]⟩, -- FPP.MACSEC_WIN R354
  ⟨0x188, 1, [⟨0, 1, .wo, 0⟩, ⟨1, 1, .wo, 0⟩, ⟨2, 1, .wo, 0⟩]⟩, -- FPP.SAK_SEL R354
  ⟨0x190, 12, [⟨0, 32, .wo, 0⟩]⟩, -- FPP.SAK0–7, SALT0–2, SSCI R354
  ⟨0x1C8, 4, [⟨0, 32, .ro, 0⟩]⟩, -- FPP.ICV_FAIL_CNT, FPP.REPLAY_CNT, _LO/_HI R354
  ⟨0x200, 1, [⟨0, 1, .rwi, 0⟩, ⟨1, 2, .rwi, 0⟩, ⟨3, 1, .rwi, 0⟩, ⟨4, 1, .rwi, 0⟩, ⟨5, 5, .rwi, 0⟩, ⟨10, 4, .rwi, 0⟩]⟩, -- FPP.INJ R354
  ⟨0x204, 5, [⟨0, 32, .rwi, 0⟩]⟩] -- FPP.INJ_OFF, INJ_VAL, INJ_MASK, INJ_BIT, INJ_CNT R354

/-- Registers of the fpe page. -/
def fpeRows : List RegRow := [
  ⟨0x100, 1, [⟨0, 4, .ro, 0⟩, ⟨8, 4, .ro, 0⟩]⟩, -- FPE.LASER R355
  ⟨0x104, 1, [⟨0, 16, .rw, 0x4852⟩, ⟨16, 6, .rw, 26⟩, ⟨22, 3, .rw, 3⟩]⟩, -- FPE.HCT R355
  ⟨0x108, 1, [⟨0, 11, .rw, 0x320⟩, ⟨11, 8, .rw, 10⟩]⟩, -- FPE.CC R355
  ⟨0x10C, 1, [⟨0, 1, .rw, 0⟩, ⟨1, 1, .rw, 0⟩]⟩, -- FPE.HQ R355
  ⟨0x120, 8, [⟨0, 32, .rw, 0⟩]⟩, -- FPE.EP_A0–3, FPE.EP_B0–3 R355
  ⟨0x140, 1, [⟨0, 1, .rw, 0⟩, ⟨1, 1, .rw, 0⟩]⟩, -- FPE.EP_V4 R355
  ⟨0x148, 2, [⟨0, 32, .rw, 0⟩]⟩, -- FPE.RKEY_A/B R355
  ⟨0x150, 1, [⟨0, 3, .rwi, 0⟩, ⟨3, 13, .rwi, 0⟩]⟩, -- FPE.TBL_SEL R355
  ⟨0x160, 16, [⟨0, 32, .rwi, 0⟩]⟩, -- FPE.TBL_DATA0–15 R355
  ⟨0x1A0, 16, [⟨0, 32, .ro, 0⟩]⟩] -- counters, _LO/_HI each R355

/-- Registers of the byp page. -/
def bypRows : List RegRow := [
  ⟨0x100, 1, [⟨0, 7, .ro, 0⟩]⟩, -- BYP.INFO R356
  ⟨0x104, 1, [⟨0, 1, .rwi, 0⟩, ⟨1, 1, .rw, 0⟩]⟩, -- BYP.CTRL R356
  ⟨0x108, 1, [⟨0, 1, .ro, 1⟩, ⟨1, 1, .ro, 0⟩, ⟨2, 1, .ro, 0⟩]⟩, -- BYP.STAT R356
  ⟨0x110, 8, [⟨0, 32, .ro, 0⟩]⟩, -- counters, _LO/_HI each R356
  ⟨0x130, 2, [⟨0, 32, .ro, 0⟩]⟩] -- BYP.FAR_ID_LO/HI R356

/-- Registers of the gov page. -/
def govRows : List RegRow := [
  ⟨0x100, 1, [⟨0, 1, .ro, 0⟩, ⟨1, 1, .ro, 0⟩, ⟨2, 1, .ro, 0⟩]⟩, -- GOV.INFO R301
  ⟨0x104, 1, [⟨0, 13, .rw, 0x1770⟩]⟩, -- GOV.CAP R301
  ⟨0x108, 1, [⟨0, 13, .ro, 0x1770⟩]⟩, -- GOV.CAP_EFF R301
  ⟨0x10C, 1, [⟨0, 1, .rw, 1⟩, ⟨1, 1, .rw, 1⟩, ⟨2, 1, .rw, 0⟩]⟩, -- GOV.CTRL R301
  ⟨0x110, 1, [⟨0, 1, .w1c, 0⟩, ⟨1, 1, .w1c, 0⟩, ⟨2, 1, .w1c, 0⟩, ⟨3, 1, .w1c, 0⟩, ⟨4, 1, .w1c, 0⟩, ⟨5, 1, .w1c, 0⟩]⟩, -- GOV.STICKY R301
  ⟨0x114, 1, [⟨0, 16, .ro, 0⟩, ⟨16, 16, .ro, 0⟩]⟩, -- GOV.POWER R301
  ⟨0x118, 1, [⟨0, 16, .ro, 0⟩]⟩, -- GOV.IIN R301
  ⟨0x120, 2, [⟨0, 32, .ro, 0⟩]⟩, -- GOV.ENERGY_LO/HI R301
  ⟨0x128, 1, [⟨0, 10, .ro, 0x200⟩]⟩, -- GOV.KTOT R301
  ⟨0x130, 2, [⟨0, 32, .ro, 0x40404040⟩]⟩, -- GOV.K_LO/HI R301
  ⟨0x138, 2, [⟨0, 6, .rw, 48⟩, ⟨8, 6, .rw, 48⟩, ⟨16, 6, .rw, 48⟩, ⟨24, 6, .rw, 48⟩]⟩, -- GOV.ALLOT_LO/HI R301
  ⟨0x140, 8, [⟨0, 16, .ro, 0⟩, ⟨16, 16, .ro, 0x2000⟩]⟩, -- GOV.WAIT0–7 R301
  ⟨0x160, 8, [⟨0, 8, .ro, 0⟩, ⟨8, 7, .ro, 64⟩]⟩, -- GOV.TJ0–7 R301
  ⟨0x180, 1, [⟨0, 8, .ro, 0⟩, ⟨8, 8, .ro, 0⟩, ⟨16, 8, .ro, 0⟩, ⟨24, 8, .ro, 0⟩]⟩, -- GOV.TJ_AUX R301
  ⟨0x184, 1, [⟨0, 8, .ro, 0⟩, ⟨8, 8, .ro, 0⟩, ⟨16, 8, .ro, 0⟩, ⟨24, 1, .ro, 0⟩]⟩, -- GOV.COOL R301
  ⟨0x188, 1, [⟨0, 1, .ro, 0⟩, ⟨1, 6, .w1c, 0⟩, ⟨7, 1, .wo, 0⟩, ⟨8, 8, .ro, 0⟩]⟩, -- GOV.ALERT R301
  ⟨0x18C, 1, [⟨0, 17, .ro, 0⟩]⟩, -- GOV.ALERT_CLEAR R301
  ⟨0x190, 2, [⟨0, 32, .ro, 0⟩]⟩, -- GOV.ALERT_CNT_LO/HI R301
  ⟨0x198, 2, [⟨0, 32, .ro, 0⟩]⟩, -- GOV.THROTTLE_CNT_LO/HI R301
  ⟨0x1A0, 1, [⟨0, 3, .rw, 6⟩, ⟨3, 3, .rw, 3⟩]⟩, -- GOV.HINT_PTS R301
  ⟨0x1A8, 1, [⟨0, 32, .rw, 0⟩]⟩, -- GOV.XCHG_TAB_LO R301
  ⟨0x1AC, 1, [⟨0, 16, .rw, 0⟩]⟩, -- GOV.XCHG_TAB_HI R301
  ⟨0x1B0, 1, [⟨0, 4, .rw, 0⟩, ⟨4, 12, .rw, 0⟩]⟩, -- GOV.XCHG_CTRL R301
  ⟨0x1B4, 1, [⟨0, 16, .ro, 0⟩]⟩, -- GOV.XCHG_DELTA R301
  ⟨0x1B8, 1, [⟨0, 1, .ro, 0⟩, ⟨1, 1, .ro, 0⟩, ⟨2, 1, .ro, 0⟩, ⟨3, 5, .ro, 0⟩]⟩] -- GOV.TRIP R301

/-- Registers of the root page. -/
def rootRows : List RegRow := [
  ⟨0x100, 1, [⟨0, 1, .ro, 0⟩, ⟨1, 1, .ro, 0⟩, ⟨2, 1, .ro, 0⟩, ⟨3, 1, .ro, 0⟩, ⟨4, 1, .ro, 0⟩, ⟨5, 1, .ro, 0⟩, ⟨6, 1, .ro, 0⟩]⟩, -- ROOT.STATE R399
  ⟨0x104, 1, [⟨0, 32, .ro, 0⟩]⟩, -- ROOT.SLOTS R399
  ⟨0x108, 1, [⟨0, 7, .ro, 0⟩]⟩, -- ROOT.ROLLBACK R399
  ⟨0x10C, 1, [⟨0, 9, .ro, 0⟩]⟩, -- ROOT.LOG_COUNT R399
  ⟨0x140, 16, [⟨0, 32, .ro, 0⟩]⟩, -- ROOT.LOG_DIGEST0–15 R399
  ⟨0x180, 2, [⟨0, 32, .ro, 0⟩]⟩, -- ROOT.SERIAL_LO/HI R399
  ⟨0x188, 1, [⟨0, 1, .wo, 0⟩]⟩] -- ROOT.JTAG_UNLOCK R399

/-- Registers of the tick page. -/
def tickRows : List RegRow := [
  ⟨0x100, 2, [⟨0, 32, .ro, 0⟩]⟩, -- TICK.COUNT_LO/HI R276
  ⟨0x108, 1, [⟨0, 1, .rwi, 0⟩, ⟨1, 1, .wo, 0⟩]⟩, -- TICK.CTRL R276
  ⟨0x10C, 1, [⟨0, 1, .w1c, 0⟩, ⟨1, 1, .w1c, 0⟩, ⟨2, 1, .ro, 0⟩]⟩, -- TICK.STAT R276
  ⟨0x110, 1, [⟨0, 32, .rw, 0⟩]⟩, -- TICK.ADJ_FREQ R276
  ⟨0x114, 1, [⟨0, 32, .wo, 0⟩]⟩, -- TICK.ADJ_PHASE R276
  ⟨0x118, 1, [⟨0, 32, .ro, 0⟩]⟩, -- TICK.SLEW_REM R276
  ⟨0x120, 2, [⟨0, 32, .rw, 0⟩]⟩, -- TICK.SET_LO/HI R276
  ⟨0x140, 2, [⟨0, 32, .rwi, 0⟩]⟩, -- TICK.SNAP_AT_TICK_LO/HI R373
  ⟨0x148, 1, [⟨0, 1, .ro, 0⟩, ⟨1, 1, .w1c, 0⟩]⟩, -- TICK.SNAP_STAT R373
  ⟨0x14C, 1, [⟨0, 31, .ro, 0⟩]⟩] -- TICK.SNAP_SEQ R373

/-- Registers of the mgmt page. -/
def mgmtRows : List RegRow := [
  ⟨0x100, 1, [⟨0, 1, .ro, 0⟩, ⟨1, 1, .ro, 0⟩, ⟨2, 2, .ro, 0⟩]⟩, -- MGMT.LINK R400
  ⟨0x104, 1, [⟨0, 3, .ro, 0⟩, ⟨3, 2, .ro, 0⟩]⟩, -- MGMT.SESSIONS R400
  ⟨0x108, 1, [⟨0, 32, .rwi, 0⟩]⟩, -- MGMT.JOB_STEP R400
  ⟨0x110, 2, [⟨0, 32, .ro, 0⟩]⟩, -- MGMT.AUTH_FAIL_CNT_LO/HI R400
  ⟨0x118, 2, [⟨0, 32, .ro, 0⟩]⟩, -- MGMT.TAG_FAIL_CNT_LO/HI R400
  ⟨0x120, 2, [⟨0, 32, .ro, 0⟩]⟩, -- MGMT.MBOX_DROP_CNT_LO/HI R400
  ⟨0x140, 1, [⟨0, 32, .rwi, 0⟩]⟩, -- MGMT.HRX_BASE0_LO R400
  ⟨0x144, 1, [⟨0, 16, .rwi, 0⟩]⟩, -- MGMT.HRX_BASE0_HI R400
  ⟨0x148, 1, [⟨0, 18, .rwi, 0⟩]⟩, -- MGMT.HRX_SIZE0 R400
  ⟨0x14C, 1, [⟨0, 24, .ro, 0⟩]⟩, -- MGMT.HRX_HEAD0 R400
  ⟨0x150, 1, [⟨0, 24, .rwi, 0⟩]⟩, -- MGMT.HRX_TAIL0 R400
  ⟨0x160, 1, [⟨0, 32, .rwi, 0⟩]⟩, -- MGMT.HRX_BASE1_LO R400
  ⟨0x164, 1, [⟨0, 16, .rwi, 0⟩]⟩, -- MGMT.HRX_BASE1_HI R400
  ⟨0x168, 1, [⟨0, 18, .rwi, 0⟩]⟩, -- MGMT.HRX_SIZE1 R400
  ⟨0x16C, 1, [⟨0, 24, .ro, 0⟩]⟩, -- MGMT.HRX_HEAD1 R400
  ⟨0x170, 1, [⟨0, 24, .rwi, 0⟩]⟩, -- MGMT.HRX_TAIL1 R400
  ⟨0x800, 64, [⟨0, 32, .ro, 0⟩]⟩] -- MGMT.STATUS_REC0–63 R400

/-- Registers of the apply page. -/
def applyRows : List RegRow := [
  ⟨0x100, 1, [⟨0, 16, .wo, 0⟩]⟩, -- APPLY R372
  ⟨0x104, 1, [⟨0, 16, .ro, 0⟩]⟩, -- APPLY_STAT R372
  ⟨0x108, 1, [⟨0, 32, .ro, 0⟩]⟩, -- APPLY_SEQ R372
  ⟨0x110, 2, [⟨0, 32, .ro, 0⟩]⟩] -- APPLY_TICK_LO/HI R372

/-- Registers of the elog page. -/
def elogRows : List RegRow := [
  ⟨0x100, 1, [⟨0, 16, .ro, 0x1000⟩, ⟨16, 8, .ro, 32⟩]⟩, -- ELOG.INFO R374
  ⟨0x104, 1, [⟨0, 13, .ro, 0⟩]⟩, -- ELOG.COUNT R374
  ⟨0x108, 1, [⟨0, 32, .ro, 0⟩]⟩, -- ELOG.NEXT_SEQ R374
  ⟨0x10C, 1, [⟨0, 32, .rwi, 0⟩]⟩, -- ELOG.SEL R374
  ⟨0x110, 8, [⟨0, 32, .ro, 0⟩]⟩, -- ELOG.DATA0–7 R374
  ⟨0x130, 1, [⟨0, 1, .ro, 0⟩, ⟨1, 1, .ro, 0⟩]⟩, -- ELOG.STAT R374
  ⟨0x134, 1, [⟨0, 32, .ro, 0⟩]⟩, -- ELOG.FIRST_UNC R374
  ⟨0x138, 2, [⟨0, 32, .ro, 0⟩]⟩, -- ELOG.OVR_CNT_LO/HI R374
  ⟨0x180, 1, [⟨0, 1, .ro, 1⟩, ⟨1, 1, .ro, 0⟩, ⟨2, 1, .ro, 0⟩, ⟨3, 1, .ro, 0⟩, ⟨8, 8, .ro, 0⟩, ⟨16, 1, .ro, 0⟩]⟩, -- ELOG.RESET_CAUSE R420
  ⟨0x184, 1, [⟨0, 1, .ro, 0⟩, ⟨1, 2, .ro, 0⟩, ⟨3, 8, .ro, 0⟩, ⟨11, 4, .ro, 0⟩]⟩, -- ELOG.QUIESCE R420
  ⟨0x188, 1, [⟨0, 32, .ro, 0⟩]⟩, -- ELOG.QUIESCE_SEQ R420
  ⟨0x18C, 1, [⟨0, 1, .w1s, 0⟩, ⟨1, 8, .rwi, 20⟩, ⟨9, 1, .wo, 0⟩]⟩] -- ELOG.WDOG R420

/-- The block-specific rows of a page type. -/
def pageRows : PageType → List RegRow
  | .gouge => gougeRows
  | .skew => skewRows
  | .part => partRows
  | .bed => bedRows
  | .qclk => qclkRows
  | .hwc => hwcRows
  | .ce => ceRows
  | .swc => swcRows
  | .swcache => swcacheRows
  | .fpp => fppRows
  | .fpe => fpeRows
  | .byp => bypRows
  | .gov => govRows
  | .root => rootRows
  | .tick => tickRows
  | .mgmt => mgmtRows
  | .apply => applyRows
  | .elog => elogRows

/-- The row that holds offset `off`. -/
def findRow (rows : List RegRow) (off : Nat) : Option RegRow :=
  rows.find? fun r => decide (r.off ≤ off) && decide (off < r.off + 4 * r.count) && (off % 4 == 0)

/-- The fields of the register at offset `off` of a page of type `p`; an unlisted offset has none (R359, R376). -/
def regFields (p : PageType) (off : Nat) : List RegField :=
  match findRow (if off < 0x100 then commonRows else pageRows p) off with
  | some r => r.fields
  | none => []

/-- The block type code of `BLK_ID.TYPE` (R358). -/
def typeCode : PageType → Nat
  | .gouge => 0x0101 | .skew => 0x0102 | .part => 0x0103 | .bed => 0x0110 | .qclk => 0x0120 | .hwc => 0x0130
  | .ce => 0x0140 | .swc => 0x0201 | .swcache => 0x0202 | .fpp => 0x0301 | .fpe => 0x0302 | .byp => 0x0303
  | .gov => 0x0401 | .root => 0x0402 | .tick => 0x0403 | .mgmt => 0x0404 | .apply => 0x0405 | .elog => 0x0406

end Sys2Proof.Machine
end

