-- ==== Sys2Proof/Machine/Sparse.lean ====
section
/-!
DEFINITION. Sparse stores: reading, writing and the canonical form.
`d` is what an unlisted key reads as.
-/
namespace Sys2Proof

/-- The value at key `k`. -/
def Sparse.get {α : Type} (d : Nat → α) (m : Sparse α) (k : Nat) : α :=
  match m with
  | [] => d k
  | c :: r => if c.1 = k then c.2 else Sparse.get d r k

/-- The cells without key `k`. -/
def Sparse.erase {α : Type} (m : Sparse α) (k : Nat) : Sparse α := m.filter fun c => decide (c.1 ≠ k)

/-- A cell put before the first greater key. -/
def Sparse.ins {α : Type} (m : Sparse α) (k : Nat) (v : α) : Sparse α :=
  match m with
  | [] => [(k, v)]
  | c :: r => if k < c.1 then (k, v) :: c :: r else c :: Sparse.ins r k v

/-- The store with `v` at key `k`; writing what an unlisted key reads as removes the cell. -/
def Sparse.put {α : Type} [DecidableEq α] (d : Nat → α) (m : Sparse α) (k : Nat) (v : α) : Sparse α :=
  if v = d k then Sparse.erase m k else Sparse.ins (Sparse.erase m k) k v

/-- Keys strictly rise and no cell holds what an unlisted key reads as. -/
def Sparse.wf {α : Type} [DecidableEq α] (d : Nat → α) : Sparse α → Bool
  | [] => true
  | [c] => decide (c.2 ≠ d c.1)
  | c :: c' :: r => decide (c.1 < c'.1) && decide (c.2 ≠ d c.1) && Sparse.wf d (c' :: r)

/-- `n` consecutive values from key `k`. -/
def Sparse.getRange {α : Type} (d : Nat → α) (m : Sparse α) (k n : Nat) : List α :=
  (List.range n).map fun i => Sparse.get d m (k + i)

/-- Consecutive values written from key `k`. -/
def Sparse.putRange {α : Type} [DecidableEq α] (d : Nat → α) (m : Sparse α) (k : Nat) : List α → Sparse α
  | [] => m
  | v :: vs => Sparse.putRange d (Sparse.put d m k v) (k + 1) vs

/-- The store with every key of [k, k+n) back at what an unlisted key reads as. -/
def Sparse.clearRange {α : Type} (m : Sparse α) (k n : Nat) : Sparse α :=
  m.filter fun c => !(decide (k ≤ c.1) && decide (c.1 < k + n))

/-- The store with every listed value changed; a value that becomes what an unlisted key reads as leaves the list. -/
def Sparse.mapVals {α : Type} [DecidableEq α] (d : Nat → α) (f : Nat → α → α) (m : Sparse α) : Sparse α :=
  (m.map fun c => (c.1, f c.1 c.2)).filter fun c => decide (c.2 ≠ d c.1)

end Sys2Proof
end

