-- ==== Sys2Proof/Machine/Types.lean ====
section
/-!
DEFINITION. The records that State is made of: quarters, the error log, resets and the power side
(chapters 10, 11, 14 and 16). Each field names the rule that gives it.
-/
namespace Sys2Proof.Machine

/-- A heavy- or light-phase hint of one core (R290). -/
structure Hint where
  start : Nat
  stop : Nat
  light : Bool
  deriving DecidableEq, Repr

/-- What a quarter showed before the hold in progress began: `DEFER_LAST`, `STICKY`, the deferral's first tick, `OP_REQ` and its staged value
(R267). -/
structure Before where
  deferLast : BitVec 32
  sticky : BitVec 32
  deferFrom : Option Nat
  opReq : BitVec 32
  opStaged : Option (BitVec 32)
  deriving DecidableEq, Repr

/-- A quarter clock region (R252 to R268, R444). Its registers stand in the register file. -/
structure Quarter where
  /-- Cycles executed since the last reset of the die (R444). -/
  cycle : Nat := 0
  /-- The issue-rate limit in effect, taken at window boundaries, and the limit that was set when the present tick began (R284). -/
  k : Nat := 64
  kNext : Nat := 64
  /-- The limit in effect before the last window boundary (R284). -/
  kPrev : Nat := 64
  /-- Cycle counts at which the droop limit last engaged and was last released (R265). -/
  limFrom : Nat := 0
  limTo : Nat := 0
  /-- Cycle count at the start of the current counted phase (R168). -/
  phaseBase : Nat := 0
  /-- Phase tick that a TWAIT of the quarter waits for, and the cycle count at its edge (R168). -/
  phaseTick : Option Nat := none
  phaseFirst : Option Nat := none
  /-- Tick in which the pending point was requested (R168, R257). -/
  pendTick : Nat := 0
  /-- Tick after which the pending hold may begin: of the request, or of the ramp's end (R257). -/
  reqTick : Nat := 0
  /-- The cycles of the last 1,024 ticks, newest first, as (cycles of a tick, ticks) (R275). -/
  meas : List (Nat × Nat) := []
  /-- Ticks of the core-rail ramp still to run (R257, R267). -/
  rampLeft : Nat := 0
  /-- Millivolts the ramp ends at (R257). -/
  rampTo : Nat := 550
  /-- T_h of the region hold in progress (Table 10.3). -/
  holdAt : Option Nat := none
  /-- Tick in which the generator locked (Table 10.3). -/
  lockAt : Option Nat := none
  /-- Point the hold goes to (R256, R291). -/
  holdTo : Nat := 0
  /-- What the hold's beginning replaced, for an event of the same tick that comes before it (R272). -/
  before : Option Before := none
  /-- First tick of the deferral in progress (R267). -/
  deferFrom : Option Nat := none
  /-- Consecutive unstretched cycles (R265). -/
  unstretched : Nat := 0
  /-- The last 64 cycles, newest first: stretched or not (R265). -/
  recent : List Bool := []
  /-- The droop flag as sampled at the last tick edge (R265, R267). -/
  droopSeen : Bool := false
  /-- Stopped by a region clock fault, and the cause and syndrome of its event until a tick edge samples it (R266). -/
  faulted : Bool := false
  faultEv : Option (Nat × Nat) := none
  /-- Consecutive slip holds (R261). -/
  slipRun : Nat := 0
  /-- Eighths of a nominal period of the present tick that slip holds and stretched periods have used (R261, R264). -/
  slipDebt : Nat := 0
  /-- Hints by core slot (R290). -/
  hints : Sparse (Option Hint) := []
  /-- Who made the pending request: a core's number, or 24 for a register write or the Governor (R255). -/
  reqBy : Nat := 0
  /-- Row streams that wait for the array limit, oldest first and in ties by lower core number: the cycle in which the wait began, core and
  dispatch number (R183). -/
  arrayQ : List (Nat × Nat × Nat) := []
  /-- Cycle counts at the start of the present tick and of the tick before it, and the runs of cycles that the tick before it executed: first
  period, first phase cycle, cycles (R261). -/
  edge : Nat := 0
  lastEdge : Nat := 0
  spells : List (Nat × Nat × Nat) := []
  /-- Cycle count when the loader started the die's program (R194). -/
  startBase : Nat := 0
  /-- Nominal periods so far: cycles and slip holds (R261). -/
  periods : Nat := 0
  /-- Cycle count up to which waiting cycles have been counted. -/
  counted : Nat := 0
  deriving DecidableEq, Repr

/-- A record of the error log (Table 16.4). -/
structure ErrRec where
  tick : Nat
  seq : Nat
  die : Nat
  block : Nat
  cls : Nat
  event : Nat
  response : Nat
  cause : Nat
  syndrome : Nat
  deriving DecidableEq, Repr

/-- What the module is doing (R401 to R409). -/
inductive RunState where
  /-- Input never above 48 V, or conversion stopped (R278). -/
  | unpowered
  /-- Start-up runs; `START_STEP` names the last completed step (R405). -/
  | startUp
  /-- Step 8 has completed. -/
  | ready
  /-- The Quiesced state (R407). -/
  | quiesced
  /-- The module holds itself in reset (R408). -/
  | held
  /-- `RESET_N` holds every die in reset (R402). -/
  | pinReset
  /-- Stage 2 failed; the recovery responder runs (R396). -/
  | recovery
  deriving DecidableEq, Repr

/-- A pending engine reset (R404): its mask, KEEP_HW and the tick of its command. -/
structure EngineReset where
  mask : Nat
  keep : Bool
  tick : Nat
  deriving DecidableEq, Repr

/-- A CAP_STATUS held by the Governors (Table 11.4). -/
structure CapStatus where
  interval : Nat
  rank : Nat
  wait : Nat
  capSet : Nat
  delta : Int
  deriving DecidableEq, Repr

/-- The Governors and the power side (R281 to R300). -/
structure Gov where
  /-- The pair of HS0 and of HS1 still run (R281). -/
  alive0 : Bool := true
  alive1 : Bool := true
  /-- Periods since results were last delivered (R281). -/
  missed : Nat := 0
  /-- Results computed at the last boundary, not yet in effect: k_d by die (R282). -/
  nextK : Option (List Nat) := none
  /-- Tick of the boundary they were computed at. -/
  nextAt : Nat := 0
  /-- Point requests computed with them: (quarter index, point) (R290). -/
  nextPts : List (Nat × Nat) := []
  /-- Numbers in proportion to the shares s_d of the last update (R292). -/
  shareU : List Nat := [1, 1, 1, 1, 1, 1, 1, 1]
  /-- Wait cycles and Gouge-core cycles of each die since the last update (R292). -/
  waitCyc : Sparse Nat := []
  coreCyc : Sparse Nat := []
  /-- Periods of the unmet-cap interval so far (R287). -/
  unmet : Nat := 0
  /-- Δ in effect, and the targets of the interval (R293). -/
  delta : Int := 0
  pendingCut : Option Int := none
  targets : List Int := []
  targetsOf : Nat := 0
  statuses : List CapStatus := []
  /-- Wait shares summed over the exchange interval (Table 11.4). -/
  waitSum : Nat := 0
  waitN : Nat := 0
  /-- The mean wait of the last complete exchange interval, units of 2^-16 (Table 11.4). -/
  lastWait : Nat := 0
  /-- Alert sources sampled active now (Table 11.5). -/
  srcNow : Nat := 0
  vinLow : Bool := false
  /-- t_c, the first tick with every source inactive (R296). -/
  clearAt : Option Nat := none
  /-- Power of the last sample, in watts, and the sums over the samples of the measurement window: power, voltage, current and their
  number (R283). -/
  sample : Nat := 0
  powSum : Nat := 0
  vinSum : Nat := 0
  iinSum : Nat := 0
  powN : Nat := 0
  /-- The sensors as last sampled, and each Lathe die's highest Tj of the measurement window (R298, R299). -/
  sensors : SensorSample := {}
  hot : List Nat := []
  /-- Energy not yet a whole millijoule, units of 10 nJ (R283). -/
  frac : Nat := 0
  deriving DecidableEq, Repr

/-- The tick generator (R269, R270): ticks since an adjustment register was last written, and ticks of the slew's next
nanosecond. -/
structure TickGen where
  sinceAdj : Nat := 0
  slewTicks : Nat := 0
  /-- `TICK.CTRL.SET` written: the counter is loaded at the next tick; and corrections written, in ns, oldest first (R269, R276). -/
  setNext : Bool := false
  phases : List Int := []
  deriving DecidableEq, Repr

/-- A program of the job on one Lathe die (R184, R186): the header's digest, schedule and areas. -/
structure LoadedProg where
  digest : Nat
  hinted : Bool
  debug : Bool
  arrays : List Nat
  act : Nat
  ckpt : Nat
  gpool : Nat
  ret : Nat
  /-- Tick of its start. -/
  tick : Nat
  deriving DecidableEq, Repr

/-- The job that the loader holds (R186): its identity, its programs by die, and its layout (R188). -/
structure Job where
  id : Nat
  mains : Sparse (Option LoadedProg) := []
  backs : Sparse (Option LoadedProg) := []
  /-- The layout by die: bases of the activation area, the shadow-checkpoint area, the two gather-pool buffers and the retention
  area, and the rank (R188). -/
  layout : Sparse (List Nat) := []
  rank : Nat := 0
  deriving DecidableEq, Repr

/-- An access of the through view that waits for a held quarter (R362): its master, its offset in register space, 8 B or 4 B, its
value and the tick of its issue; a Headstock core's load or a write. -/
structure ThroughAcc where
  master : Nat
  addr : Nat
  wide : Bool
  value : Nat
  since : Nat
  load : Bool := false
  deriving DecidableEq, Repr

end Sys2Proof.Machine
end

