-- ==== Sys2Proof/Machine/State.lean ====
section
/-!
DEFINITION. The state of the module, its faults and refusals, and the state after reset.
-/
namespace Sys2Proof.Machine

/-- Why the model stops with a fault. No command of this block ends in one: the spec's faults are recorded events. -/
inductive Fault where
  /-- Raised by no meaning; safe. -/
  | none
  deriving DecidableEq, Repr

/-- Why the model gives a command no meaning. -/
inductive Refusal where
  /-- Raised by an arm of `exec` that has no meaning yet; safe. -/
  | notModelled (mnemonic : String)
  deriving DecidableEq, Repr

/-- The page type of block index `i` on die `z` (R358, Table 14.1). -/
def pageType (z i : Nat) : Option PageType :=
  if z < 8 then
    if i < 24 then
      match i % 6 with
      | 0 => some .skew
      | 4 => some .skew
      | 5 => some .part
      | _ => some .gouge
    else if 0x20 ≤ i ∧ i ≤ 0x3D then some .bed
    else if 0x40 ≤ i ∧ i ≤ 0x43 then some .qclk
    else if 0x50 ≤ i ∧ i ≤ 0x67 then some .hwc
    else if i = 0x70 then some .ce
    else none
  else if z = 24 then
    match i with
    | 0 => some .gov
    | 1 => some .root
    | 2 => some .tick
    | 3 => some .mgmt
    | 4 => some .apply
    | 5 => some .elog
    | _ => none
  else if z = 25 then (if i = 0 then some .gov else none)
  else if z = 26 ∨ z = 27 then
    match i with
    | 0 => some .swc
    | 1 => some .swcache
    | _ => none
  else if 28 ≤ z ∧ z ≤ 31 then
    if i < 26 then some .fpp
    else if i = 0x20 then some .fpe
    else if i = 0x28 ∨ i = 0x29 then some .byp
    else none
  else none

/-- The instance of a block (Table 14.1). -/
def pageInstance (z i : Nat) : Nat :=
  match pageType z i with
  | some .bed => i - 0x20
  | some .qclk => 4 * z + (i - 0x40)
  | some .hwc => i - 0x50
  | some .ce => z
  | some .gov => z - 24
  | some .fpp => 26 * (z - 28) + i
  | some .fpe => z - 28
  | some .byp => 2 * (z - 28) + (i - 0x28)
  | some .gouge | some .skew | some .part => i
  | _ => 0

/-- The core of station `st`, if it is a core station (Table 1.2). -/
def coreOfStation (st : Nat) : Option Nat :=
  if 1 ≤ st ∧ st ≤ 6 then some (st - 1)
  else if 8 ≤ st ∧ st ≤ 13 then some (st - 2)
  else if 16 ≤ st ∧ st ≤ 21 then some (st - 4)
  else if 23 ≤ st ∧ st ≤ 28 then some (st - 5)
  else none

/-- The station of core `c` (Table 1.2). -/
def stationOfCore (c : Nat) : Nat :=
  if c < 6 then c + 1 else if c < 12 then c + 2 else if c < 18 then c + 4 else c + 5

/-- The kind of a station in `BED.INFO` (Table 1.6). -/
def stationKind (st : Nat) : Nat :=
  match st with
  | 0 => 1
  | 7 => 2
  | 14 => 3
  | 15 => 4
  | 22 => 5
  | 29 => 6
  | _ => 0

/-- Whether core `c` is a Gouge core, a B-Gouge core, a Skew core, a Parting core (Table 1.1). -/
def isGouge (c : Nat) : Bool := c % 6 == 1 || c % 6 == 2 || c % 6 == 3
def isBGouge (c : Nat) : Bool := c % 6 == 1 || c % 6 == 3
def isSkew (c : Nat) : Bool := c % 6 == 0 || c % 6 == 4
def isParting (c : Nat) : Bool := c % 6 == 5

/-- Gouge ordinal g = 3q + s − 1 and Skew ordinal (R16). -/
def gougeOrdinal (c : Nat) : Nat := 3 * (c / 6) + c % 6 - 1
def skewOrdinal (c : Nat) : Nat := 2 * (c / 6) + (if c % 6 = 4 then 1 else 0)

/-- First channel and channels of a core's home range (R17, Table 1.2). -/
def chanFirst (c : Nat) : Nat :=
  if isGouge c then 128 * gougeOrdinal c
  else if isSkew c then 1536 + 48 * skewOrdinal c
  else 1920 + 32 * (c / 6)
def chanCount (c : Nat) : Nat := if isGouge c then 128 else if isSkew c then 48 else 32

/-- The reset value of an identity register, whose fields are per block. -/
def infoReset (p : PageType) (z i : Nat) : Nat :=
  let n := pageInstance z i
  match p with
  | .gouge => b2n (isBGouge i) + gougeOrdinal i * 2 + (i / 6) * 32
  | .skew => skewOrdinal i + (i / 6) * 8
  | .part => i / 6 + z * 4 + (4 * z + i / 6) * 32
  | .bed =>
      let c := coreOfStation n
      n + stationKind n * 32 + (match c with | some c => (c / 6) * 256 + c * 1024 | none => 0x1F * 1024)
  | .qclk => z + (i - 0x40) * 8
  | .hwc => chanFirst n + chanCount n * 2 ^ 11 + n * 2 ^ 19
  | .ce => z + 1024 * 8
  | .gov => z - 24
  | .fpp => n + b2n (decide (i < 4)) * 128
  | .byp => 26 * (z - 28) + 2 * (i - 0x28)
  | _ => 0

/-- Apply group at reset (Table 14.3). -/
def groupReset (z : Nat) : Nat := if z < 8 then z else if z = 24 ∨ z = 25 then 10 else if z ≤ 27 then 8 else 9

/-- The key of a register: bits [28:0] of its address, die, block index and offset (R358). -/
def rkey (z i off : Nat) : Nat := z * 2 ^ 24 + i * 2 ^ 12 + off

/-- The value a field list resets to. -/
def fieldsReset (fs : List RegField) : Nat := fs.foldl (fun a f => a + f.rst * 2 ^ f.lo) 0

/-- The reset value of the register at offset `off` of block `i` on die `z`. -/
def resetAt (z i off : Nat) : Nat :=
  match pageType z i with
  | none => 0
  | some p =>
      if off = 0x000 then pageInstance z i + typeCode p * 2 ^ 16
      else if off = 0x008 then b2n (p == .gouge && isBGouge i)
      else if off = 0x020 then groupReset z
      else if off = 0x108 && p == .bed && stationKind (i - 0x20) == 0 then 0
      else if off = 0x100 && infoReset p z i ≠ 0 then infoReset p z i
      else fieldsReset (regFields p off)

/-- The reset value of the register with key `k`. -/
def resetReg (k : Nat) : W32 := BitVec.ofNat 32 (resetAt (k / 2 ^ 24) (k / 2 ^ 12 % 2 ^ 12) (k % 2 ^ 12))

/-- What register reads are formed from: the register file and what the common page shows of the rest (R361, R365). -/
structure RegView where
  regs : Sparse W32 := []
  /-- Pages with a staged write, by the key of their base. -/
  stagedPages : List Nat := []
  tick : Nat := 0
  ready : Nat := 0
  snapHeld : Sparse (Nat × Nat × Bool) := []
  deriving DecidableEq, Repr

/-- The module. -/
structure State where
  /-- Commands that wait, first in, first out. -/
  pending : List Instr
  /-- The MODEL's own counter for free values (log entry 7). -/
  fresh : Nat
  /-- The tick counter (R269). -/
  tick : Nat
  /-- What the module is doing (R401 to R409). -/
  run : RunState
  /-- The last completed start-up step (R405). -/
  startStep : Nat
  /-- Dies whose `BLK_STAT.READY` is set, as a mask (R365, R404, R405). -/
  ready : Nat
  /-- The register file: live copies (R366). -/
  regs : Sparse W32
  /-- Staged copies (R366). -/
  staged : Sparse (Option W32)
  /-- Shadow copies, with the tick of the last refresh (R361). -/
  shadow : RegView
  /-- Snapshot copies (R370). -/
  snap : Sparse W32
  /-- Sequence, tick and validity of the snapshot that each die's blocks hold (R370). -/
  snapHeld : Sparse (Nat × Nat × Bool)
  /-- Pages whose CNT_CLR takes effect at the next tick edge (R370): keys of their bases. -/
  cntClr : List Nat
  /-- Groups of `APPLY` writes not yet sampled, groups of a strobe that has been sampled and not delivered, and the tick of each group's last
  strobe (R367). -/
  applyReq : Nat
  applyDue : Nat
  applyAt : Sparse Nat
  /-- Staged copies that a delivered strobe covers, and the pages that it has reached and that have not applied: key of the page, group,
  tick of the strobe (R367). -/
  covered : Sparse (Option W32)
  strobed : List (Nat × Nat × Nat)
  /-- `TICK.SNAP_AT_TICK_HI` was written and the arm has not been sampled; the tick for which a snapshot is armed (R370), and the counts as
  they stood at the edge of that tick, with the tick and whether the dies were held in reset (R274). -/
  snapReq : List Nat
  snapArmed : Option Nat
  snapEdge : Option (Nat × Bool × Sparse W32)
  /-- The error log, oldest first (R374). -/
  elog : List ErrRec
  nextSeq : Nat
  /-- Sequence number of the first record of the present tick (R272, R412). -/
  tickSeq : Nat
  /-- Accesses of the through view that wait (R362). -/
  through : List ThroughAcc
  /-- The MODEL's record of what has left the module, newest last. -/
  out : List Emit
  /-- Quarters, by 4 × die + quarter (R252). -/
  quarters : Sparse Quarter
  /-- Governors and power (R281 to R300). -/
  gov : Gov
  /-- The tick generator (R269, R270). -/
  tickGen : TickGen
  /-- The loaded job (R186). -/
  job : Option Job
  /-- Gouge and Skew cores, by 24 × die + core. -/
  cores : Sparse Core
  /-- Bed stations, by 30 × die + station (R17). -/
  stations : Sparse Station
  /-- Heartwood and Sapwood by physical address (Table 9.1), and the poisoned 64 B blocks by address / 64: the poison
  tables (R317). -/
  mem : Sparse Byte
  memPoison : Sparse Bool
  /-- Memory requests in progress, and the number the next takes (the MODEL's own name for it). -/
  reqs : List MemReq
  nextReq : Nat
  /-- Blocks of streams that the network carries (R243). -/
  remotes : List RemoteReq
  /-- Parts that wait at their requester for its limit in a bank, parts on their way, parts that have reached their controller and
  wait for admission, and admitted parts in order of admission (R229, R230). -/
  held : List Part
  flight : List Part
  waiting : List Part
  admitted : List Part
  /-- Transfers delivered so far of messages, by the message's number. -/
  arrivals : Sparse Nat
  /-- Heartwood controllers, by 24 × die + core, and Tailstocks 0 and 1. -/
  ctls : Sparse Ctl
  tails : Sparse Tail
  /-- Parting cores, by 4 × die + quarter. -/
  parts : Sparse Parting
  /-- Whittle messages on their way, oldest first (R159 to R162), and the mailboxes of the Headstock cores by endpoint. -/
  whittle : List WMsg
  hsMail : Sparse (List WMsg)
  /-- Collective engines and transports by Lathe die, and values on their way between engines (R108, R113, R335). -/
  engines : Sparse Engine
  forwards : List Forward
  nets : Sparse Net
  /-- Ports by number; queue pairs by 1024 × die + number; the engines' tables by 2^16 × engine + 2^13 × table + entry (R355). -/
  ports : Sparse Port
  qps : Sparse Qp
  tables : Sparse Nat
  /-- ELSFP modules in the bays: 0 none, 1 fitted, 2 of other wavelengths, 3 faulted, plus 4 where a module reports low power (R327, R438). -/
  bays : Sparse Nat
  /-- The latch handle is open (R425). -/
  latchOpen : Bool
  /-- An engine reset in progress (R404). -/
  engineReset : Option EngineReset
  /-- Pages that a master has written since the last shadow refresh: (master, key of the page) (R361). -/
  wrote : List (Nat × Nat)
  /-- Sessions and mailboxes, fuses, boot flash, pins, start-up. -/
  mgmt : Mgmt
  fuses : Fuses
  flash : Flash
  pins : Pins
  boot : Boot
  deriving DecidableEq, Repr

def Quarter.initial (_ : Nat) : Quarter := {}
def Core.initial (_ : Nat) : Core := {}
def Station.initial (_ : Nat) : Station := {}
def Ctl.initial (_ : Nat) : Ctl := {}
def Tail.initial (_ : Nat) : Tail := {}
def Parting.initial (_ : Nat) : Parting := {}
def Engine.initial (_ : Nat) : Engine := {}
def Net.initial (_ : Nat) : Net := {}
def Port.initial (_ : Nat) : Port := {}
def Qp.initial (_ : Nat) : Qp := {}

/-- The bays as shipped: all fitted, or none (R441). -/
def shippedBays : Sparse Nat := if Config.shippedL8 then (List.range 8).map fun d => (d, 1) else []

/-- The state at reset. -/
def State.reset : State where
  pending := []
  fresh := 0
  tick := 0
  run := .startUp
  startStep := 0
  ready := 0
  regs := []
  staged := []
  shadow := {}
  snap := []
  snapHeld := []
  cntClr := []
  applyReq := 0
  applyDue := 0
  applyAt := []
  covered := []
  strobed := []
  snapReq := []
  snapArmed := none
  snapEdge := none
  elog := []
  nextSeq := 0
  tickSeq := 0
  through := []
  out := []
  quarters := []
  gov := {}
  tickGen := {}
  job := none
  cores := []
  stations := []
  mem := []
  memPoison := []
  reqs := []
  nextReq := 0
  remotes := []
  held := []
  flight := []
  waiting := []
  admitted := []
  arrivals := []
  ctls := []
  tails := []
  parts := []
  whittle := []
  hsMail := []
  engines := []
  forwards := []
  nets := []
  ports := []
  qps := []
  tables := []
  bays := shippedBays
  latchOpen := false
  engineReset := none
  wrote := []
  mgmt := {}
  fuses := {}
  flash := {}
  pins := {}
  boot := {}

end Sys2Proof.Machine
end

