-- ==== Sys2Proof/Machine/Ops.lean ====
section
/-!
DEFINITION. The named operations over the register file, the error log, quarters, cores and stations.
-/
namespace Sys2Proof.Machine

/-- The outcome of a command whose step is due. -/
abbrev Out := Host.Outcome State Fault Refusal

/-- A value the spec leaves open, and the state with the counter advanced (log entry 7). -/
def State.freeNat (s : State) (w : Nat) : Nat × State := ((Config.freeBits w s.fresh).toNat, { s with fresh := s.fresh + 1 })

/-! ### Registers -/

/-- The register at offset `off` of block `i` on die `z`. -/
def State.rg (s : State) (z i off : Nat) : W32 := Sparse.get resetReg s.regs (rkey z i off)

/-- The state with that register's live copy replaced. -/
def State.setRg (s : State) (z i off : Nat) (v : W32) : State :=
  { s with regs := Sparse.put resetReg s.regs (rkey z i off) v }

/-- Bits [lo+len-1:lo] of a register. -/
def State.fld (s : State) (z i off lo len : Nat) : Nat := bitsOf (s.rg z i off).toNat lo len

/-- One bit of a register. -/
def State.flag (s : State) (z i off lo : Nat) : Bool := s.fld z i off lo 1 == 1

/-- A field of a register replaced. -/
def State.setFld (s : State) (z i off lo len v : Nat) : State :=
  s.setRg z i off (BitVec.ofNat 32 (withBits (s.rg z i off).toNat lo len v))

/-- One bit of a register set or cleared. -/
def State.setFlag (s : State) (z i off lo : Nat) (b : Bool) : State := s.setFld z i off lo 1 (b2n b)

/-- A `_LO/_HI` pair as one number. -/
def State.pair (s : State) (z i off : Nat) : Nat := (s.rg z i off).toNat + (s.rg z i (off + 4)).toNat * 2 ^ 32

/-- A `_LO/_HI` pair replaced, modulo 2^64. -/
def State.setPair (s : State) (z i off v : Nat) : State :=
  (s.setRg z i off (BitVec.ofNat 32 v)).setRg z i (off + 4) (BitVec.ofNat 32 (v / 2 ^ 32))

/-- A 64-bit counter advanced by `n`. -/
def State.bump (s : State) (z i off n : Nat) : State := if n = 0 then s else s.setPair z i off (s.pair z i off + n)

/-- A bit of a page's `BLK_ERR` set (R365). -/
def State.errBit (s : State) (z i bit : Nat) : State := s.setFlag z i 0x018 bit true

/-! ### Quarters, cores and stations -/

def State.quarter (s : State) (d q : Nat) : Quarter := Sparse.get Quarter.initial s.quarters (4 * d + q)
def State.setQuarter (s : State) (d q : Nat) (x : Quarter) : State :=
  { s with quarters := Sparse.put Quarter.initial s.quarters (4 * d + q) x }
def State.core (s : State) (d c : Nat) : Core := Sparse.get Core.initial s.cores (24 * d + c)
def State.setCore (s : State) (d c : Nat) (x : Core) : State :=
  { s with cores := Sparse.put Core.initial s.cores (24 * d + c) x }
def State.station (s : State) (d t : Nat) : Station := Sparse.get Station.initial s.stations (30 * d + t)
def State.setStation (s : State) (d t : Nat) (x : Station) : State :=
  { s with stations := Sparse.put Station.initial s.stations (30 * d + t) x }

/-- Block index of quarter q's page, of station t's page, of core c's controller's page (Table 14.1). -/
def qBlk (q : Nat) : Nat := 0x40 + q
def stBlk (t : Nat) : Nat := 0x20 + t
def hwcBlk (c : Nat) : Nat := 0x50 + c

/-- Fields of `QCLK.OP_STAT` (Table 10.7). -/
def State.curPt (s : State) (d q : Nat) : Nat := s.fld d (qBlk q) 0x108 0 3
def State.pendPt (s : State) (d q : Nat) : Nat := s.fld d (qBlk q) 0x108 3 3
def State.pendValid (s : State) (d q : Nat) : Bool := s.flag d (qBlk q) 0x108 6
def State.holding (s : State) (d q : Nat) : Bool := s.flag d (qBlk q) 0x108 7
def State.ramping (s : State) (d q : Nat) : Bool := s.flag d (qBlk q) 0x108 8
def State.alerted (s : State) (d q : Nat) : Bool := s.flag d (qBlk q) 0x108 9
def State.droopFlag (s : State) (d q : Nat) : Bool := s.flag d (qBlk q) 0x108 10
def State.droopLim (s : State) (d q : Nat) : Bool := s.flag d (qBlk q) 0x108 11

/-- Whether the quarter executes cycles: not held and not stopped by a clock fault (R257, R266). -/
def State.qRuns (s : State) (d q : Nat) : Bool := !s.holding d q && !(s.quarter d q).faulted

/-- Whether a quarter runs in counted mode, `QCLK.SCHED.MODE` 0 (R166). -/
def State.counted (s : State) (d q : Nat) : Bool := !s.flag d (qBlk q) 0x180 0

/-- Whether debug mode is on (R194). -/
def State.debug (s : State) (d q : Nat) : Bool := s.flag d (qBlk q) 0x180 1

/-- Frequency of an operating point in units of 0.2 GHz, which is cycles in two ticks (Table 10.2). -/
def freqOf (p : Nat) : Nat := 4 + p

/-- Cycles of a quarter at point `p` in one 10 ns tick (Table 10.2). -/
def cyclesPerTick (p : Nat) : Nat := 8 + 2 * p

/-- Core rail of a point, in millivolts (Table 10.2). -/
def railOf (p : Nat) : Nat :=
  match p with
  | 0 => 550
  | 1 => 588
  | 2 => 627
  | 3 => 665
  | 4 => 703
  | 5 => 742
  | 6 => 780
  | _ => 850

/-- The core rail now, `QCLK.MEAS.MV`; 550 mV before it is first measured. -/
def State.rail (s : State) (d q : Nat) : Nat :=
  let mv := s.fld d (qBlk q) 0x110 16 16
  if mv = 0 then 550 else mv

/-- A ramp of the core rail to `mv` begins, 4 ticks per millivolt (R257). -/
def State.startRamp (s : State) (d q mv : Nat) : State :=
  let now := s.rail d q
  let left := 4 * (if now < mv then mv - now else now - mv)
  let x := s.quarter d q
  (s.setQuarter d q { x with rampLeft := left, rampTo := mv }).setFlag d (qBlk q) 0x108 8 (decide (left ≠ 0))

/-- Every one of the 32 quarters, as (die, quarter). -/
def allQuarters : List (Nat × Nat) := (List.range 32).map fun n => (n / 4, n % 4)

/-- Empty landing buffers and lanes. -/
def noXfers (_ : Nat) : List Xfer := []

/-- The counted transfers in a quarter's landing buffers that a hold has let out of their counts, or not (R175). -/
def State.markLanded (s : State) (d q : Nat) (freed : Bool) : State :=
  (List.range 6).foldl (fun s j =>
    let st := stationOfCore (6 * q + j)
    let y := s.station d st
    let mark (l : List Xfer) : List Xfer := l.map fun x => { x with stamp := x.stamp.map fun t => { t with freed := freed } }
    s.setStation d st { y with land := Sparse.mapVals noXfers (fun _ l => mark l) y.land }) s

def noStage (_ : Nat) : Option W32 := none

/-- A region hold that began in the present tick is not started after all: its point stays pending (R272, Table 10.6, classes 1 and 2). -/
def State.unstartHold (s : State) (d q : Nat) : State :=
  let x := s.quarter d q
  match x.before with
  | some b =>
      if x.holdAt = some s.tick then
        let s := s.setQuarter d q { x with holdAt := none, before := none, deferFrom := b.deferFrom }
        let s := ((s.setRg d (qBlk q) 0x118 b.deferLast).setRg d (qBlk q) 0x11C b.sticky).bump d (qBlk q) 0x128 (2 ^ 64 - 1)
        let s := { s.setRg d (qBlk q) 0x104 b.opReq with staged := Sparse.put noStage s.staged (rkey d (qBlk q) 0x104) b.opStaged }
        ((s.setFlag d (qBlk q) 0x108 6 true).setFlag d (qBlk q) 0x108 7 false).markLanded d q false
      else s
  | none => s

/-- A quarter switches to the S0 period by the fixed divider (R268); its point stays pending, that of a hold begun in the same tick
included (R272). A quarter in a region hold
takes the S0 period when the hold ends (R295). -/
def State.toS0 (s : State) (alert : Bool) (d q : Nat) : State :=
  let s := if alert then s.setFlag d (qBlk q) 0x108 9 true else s
  let s := s.unstartHold d q
  let s := s.setQuarter d q { s.quarter d q with k := 1, kNext := 1 }
  if s.holding d q || (s.quarter d q).faulted then s
  else
    let cur := s.curPt d q
    let s := if cur ≠ 0 && !s.pendValid d q then
        (s.setFld d (qBlk q) 0x108 3 3 cur).setFlag d (qBlk q) 0x108 6 true
      else s
    let x := s.quarter d q
    ((s.setQuarter d q { x with deferFrom := none }).setFld d (qBlk q) 0x108 0 3 0).startRamp d q 550

/-- Every quarter switched to the S0 period. -/
def State.allToS0 (s : State) (alert : Bool) : State := allQuarters.foldl (fun s p => s.toS0 alert p.1 p.2) s

/-- k_d of a Lathe die in effect (`GOV.K`, Table 11.7). -/
def State.kd (s : State) (d : Nat) : Nat := s.fld 24 0 (0x130 + 4 * (d / 4)) (8 * (d % 4)) 7

/-- k_d of a Lathe die set on the Governor page. -/
def State.setKd (s : State) (d v : Nat) : State := s.setFld 24 0 (0x130 + 4 * (d / 4)) (8 * (d % 4)) 7 v

/-- Every k_d set to 1 (R295, R407). -/
def State.kAllOne (s : State) : State := (s.setRg 24 0 0x130 0x01010101#32).setRg 24 0 0x134 0x01010101#32

/-! ### The error log -/

/-- Order of two records of one tick (R272, R412). -/
def recLe (a b : ErrRec) : Bool :=
  let key (r : ErrRec) : Nat :=
    (if r.event = 0 then 12 else r.event) * 2 ^ 32 + r.die * 2 ^ 24 + r.block * 2 ^ 8 + r.cause
  decide (key a ≤ key b)

/-- A record put after every record that precedes it. -/
def insertRec (r : ErrRec) : List ErrRec → List ErrRec
  | [] => [r]
  | a :: l => if recLe a r then a :: insertRec r l else r :: a :: l

/-- Records numbered upward from `n`. -/
def numberFrom (n : Nat) : List ErrRec → List ErrRec
  | [] => []
  | a :: l => { a with seq := n } :: numberFrom (n + 1) l

/-- The 256 bits of a record (Table 16.4). -/
def ErrRec.bits (r : ErrRec) : Nat :=
  r.tick % 2 ^ 64 + (r.seq % 2 ^ 32) * 2 ^ 64 + r.die * 2 ^ 96 + r.block * 2 ^ 101 + r.cls * 2 ^ 113 + r.event * 2 ^ 115 +
    r.response * 2 ^ 119 + r.cause * 2 ^ 121 + r.syndrome * 2 ^ 128

/-- The error log page: HS0, block index 5. -/
def elogBlk : Nat := 5

/-- `ELOG` registers that show the log (Table 14.8). -/
def State.elogWindow (s : State) : State :=
  let sel := (s.rg 24 elogBlk 0x10C).toNat
  let rec? := s.elog.find? fun r => r.seq % 2 ^ 32 == sel
  let bits := match rec? with | some r => r.bits | none => 0
  let s := ((s.setFld 24 elogBlk 0x104 0 13 s.elog.length).setRg 24 elogBlk 0x108 (BitVec.ofNat 32 s.nextSeq)).setFlag
    24 elogBlk 0x130 0 rec?.isNone
  (List.range 8).foldl (fun s j => s.setRg 24 elogBlk (0x110 + 4 * j) (BitVec.ofNat 32 (bits / 2 ^ (32 * j)))) s

/-- Records the log holds (R374). -/
def elogDepth : Nat := 4096

/-- A record written in this tick, in the order of R272 and R412; the sequence number it takes, and the state. -/
def State.logRec (s : State) (die block cls event response cause syndrome : Nat) : Nat × State :=
  let r : ErrRec := ⟨s.tick, 0, die, block, cls, event, response, cause, syndrome % 2 ^ 128⟩
  let same (x : ErrRec) : Bool := x.tick == s.tick && decide (s.tickSeq ≤ x.seq)
  let old := s.elog.filter fun x => !same x
  let now := s.elog.filter same
  let first := s.nextSeq - now.length
  let placed := insertRec r now
  let at_ := first + (now.takeWhile fun x => recLe x r).length
  let all := old ++ numberFrom first placed
  let excess := all.length - elogDepth
  let shift (n : Nat) : Nat := if at_ ≤ n then n + 1 else n
  let unc := s.flag 24 elogBlk 0x130 1
  let firstUnc := (s.rg 24 elogBlk 0x134).toNat
  let qseq := (s.rg 24 elogBlk 0x188).toNat
  let s := { s with elog := all.drop excess, nextSeq := s.nextSeq + 1 }
  let s := s.bump 24 elogBlk 0x138 excess
  let s := if cls = 2 then
      (if unc then s.setRg 24 elogBlk 0x134 (BitVec.ofNat 32 (if at_ ≤ firstUnc then at_ else firstUnc))
        else s.setRg 24 elogBlk 0x134 (BitVec.ofNat 32 at_)).setFlag 24 elogBlk 0x130 1 true
    else if unc then s.setRg 24 elogBlk 0x134 (BitVec.ofNat 32 (shift firstUnc)) else s
  let s := if s.flag 24 elogBlk 0x184 0 then s.setRg 24 elogBlk 0x188 (BitVec.ofNat 32 (shift qseq)) else s
  (at_, s.elogWindow)

/-! ### Quiesced and held in reset -/

/-- Every bypass element that is open begins to close (R346). -/
def State.closeBypasses (s : State) : State :=
  (List.range 8).foldl (fun s n =>
    let z := 28 + n / 2
    let i := 0x28 + n % 2
    if s.flag z i 0x108 0 then s else s.setFlag z i 0x108 1 true) s

/-- Every hart that runs stops (R407): `PART.HART_STATE`, two bits a hart, 1 running, to 0 (Table 6.12). -/
def State.stopHarts (s : State) : State :=
  (List.range 32).foldl (fun s n =>
    let d := n / 4
    let c := 6 * (n % 4) + 5
    (List.range 4).foldl (fun s h => if s.fld d c 0x108 (2 * h) 2 = 1 then s.setFld d c 0x108 (2 * h) 2 0 else s) s) s

/-- Every main program that runs stops: dispatch stops in every Gouge and Skew core (R407), `PROG.STATE` 1, running, to 0,
stopped (Table 8.9; DEDUCED, log entry 24). -/
def State.stopCores (s : State) : State :=
  (List.range 192).foldl (fun s n =>
    if !isParting (n % 24) && s.fld (n / 24) (n % 24) 0x2A0 14 2 == 1 then s.setFld (n / 24) (n % 24) 0x2A0 14 2 0 else s) s

/-- The module enters the Quiesced state for the record `seq`, or widens its requirements (R407). -/
def State.quiesce (s : State) (seq clearBy dies failStep : Nat) : State :=
  if s.flag 24 elogBlk 0x184 0 then
    (s.setFld 24 elogBlk 0x184 1 2 (max (s.fld 24 elogBlk 0x184 1 2) clearBy)).setFld 24 elogBlk 0x184 3 8
      (s.fld 24 elogBlk 0x184 3 8 ||| dies)
  else if s.run = .held ∨ s.run = .unpowered ∨ s.run = .pinReset then s
  else
    let s := (((s.setFlag 24 elogBlk 0x184 0 true).setFld 24 elogBlk 0x184 1 2 clearBy).setFld 24 elogBlk 0x184 3 8 dies).setFld
      24 elogBlk 0x184 11 4 failStep
    let s := s.setRg 24 elogBlk 0x188 (BitVec.ofNat 32 seq)
    let s := { s with run := .quiesced }
    ((s.stopHarts.stopCores.allToS0 false).kAllOne).closeBypasses

/-- An event with response 0 or 1 (R413): its record is written. -/
def State.event (s : State) (die block cls ev response cause syndrome : Nat) : State :=
  (s.logRec die block cls ev response cause syndrome).2

/-- An uncontained event whose response is Quiesced (R413, Table 16.6). -/
def State.eventQuiesce (s : State) (die block ev cause syndrome clearBy dies : Nat) : State :=
  let (seq, s) := s.logRec die block 2 ev 2 cause syndrome
  s.quiesce seq clearBy dies 0

/-- A mask of one Lathe die; 0 for another die. -/
def dieMask (d : Nat) : Nat := if d < 8 then 2 ^ d else 0

/-- The module is held in reset or unpowered: the management port is down, the ports are dark, the lasers are off, and the bypass elements close
(R346, R402, R408, R409). -/
def State.enterHold (s : State) (r : RunState) : State :=
  let s := s.closeBypasses.setRg 24 3 0x100 0
  let s := (List.range 104).foldl (fun s p => s.setFlag (28 + p / 26) (p % 26) 0x120 0 false) s
  let s := [28, 29, 30, 31].foldl (fun s z => s.setRg z 0x20 0x100 0) s
  { s with run := r, ready := 0, engineReset := none }

/-- The Headstock is in doubt (R408): the record is written and the module holds itself in reset. -/
def State.holdInReset (s : State) (die block ev cause syndrome : Nat) : State :=
  let s := (s.event die block 2 ev 3 cause syndrome).enterHold .held
  { s with boot := { s.boot with held := true, stepAt := s.tick } }

/-! ### Reading and writing registers -/

/-- The key of the page that holds register key `k`. -/
def pageKey (k : Nat) : Nat := k / 2 ^ 12 * 2 ^ 12

/-- What reads are formed from now. -/
def State.view (s : State) : RegView where
  regs := s.regs
  stagedPages := ((s.staged ++ s.covered).map fun c => pageKey c.1).eraseDups ++ if s.tickGen.phases = [] then [] else [rkey 24 2 0]
  tick := s.tick
  ready := s.ready
  snapHeld := s.snapHeld

def snapNone (_ : Nat) : Nat × Nat × Bool := (0, 0, false)

/-- The register at offset `off` of block `i` on die `z`, as a view holds it (R361, R365); `inReset` is whether the block is
held in reset now. A location without a page or a register reads zero (R359). -/
def RegView.read (v : RegView) (inReset : Bool) (z i off : Nat) : W32 :=
  match pageType z i with
  | none => 0
  | some p =>
    let w := Sparse.get resetReg v.regs (rkey z i off)
    let stg := v.stagedPages.contains (rkey z i 0)
    let snp := Sparse.get snapNone v.snapHeld z
    if off = 0x014 then
      let err := Sparse.get resetReg v.regs (rkey z i 0x018)
      let msk := Sparse.get resetReg v.regs (rkey z i 0x01C)
      BitVec.ofNat 32 (b2n (bitOf v.ready z) + b2n (decide (err &&& ~~~msk ≠ 0)) * 2 + b2n inReset * 4 + b2n stg * 8)
    else if off = 0x024 then BitVec.ofNat 32 (b2n stg)
    else if off = 0x028 then BitVec.ofNat 32 v.tick
    else if off = 0x030 then BitVec.ofNat 32 (snp.1 % 2 ^ 31 + b2n snp.2.2 * 2 ^ 31)
    else if off = 0x038 then BitVec.ofNat 32 snp.2.1
    else if off = 0x03C then BitVec.ofNat 32 (snp.2.1 / 2 ^ 32)
    else if p = .root ∧ off = 0x180 then BitVec.ofNat 32 Config.serial.toNat
    else if p = .root ∧ off = 0x184 then BitVec.ofNat 32 (Config.serial.toNat / 2 ^ 32)
    else if p = .tick ∧ off = 0x100 then BitVec.ofNat 32 v.tick
    else if p = .tick ∧ off = 0x104 then BitVec.ofNat 32 (v.tick / 2 ^ 32)
    else if p = .gov ∧ 0x104 ≤ off then Sparse.get resetReg v.regs (rkey 24 0 off)
    else if p = .swc ∧ z = 26 ∧ off = 0x100 then 0
    else if p = .bed ∧ 0x180 ≤ off ∧ off < 0x1A0 ∧ stationKind (i - 0x20) = 0 then 0
    else w

/-- `ROOT.STATE.DEBUG_OPEN` (R389). -/
def State.debugOpen (s : State) : Bool := s.flag 24 1 0x100 3

/-- Whether every die is held in reset or unpowered (R278, R402, R408). -/
def State.inReset (s : State) : Bool := s.run == .held || s.run == .pinReset || s.run == .unpowered

/-- The mask of the fields with given access codes. -/
def accMask (fs : List RegField) (p : Acc → Bool) : Nat :=
  fs.foldl (fun a f => if p f.acc then a ||| ((2 ^ f.len - 1) * 2 ^ f.lo) else a) 0

/-- `old` with the bits of `mask` taken from `new`. -/
def mergeBits (mask : Nat) (old new : W32) : W32 :=
  (old &&& ~~~(BitVec.ofNat 32 mask)) ||| (new &&& BitVec.ofNat 32 mask)

/-- Registers that take effect at a boundary of their own and never at an apply (Table 14.5). -/
def isNatural (p : PageType) (off : Nat) : Bool :=
  match p with
  | .fpp => off == 0x104 || off == 0x108 || off == 0x118 || off == 0x11C || off == 0x180
  | .qclk => off == 0x104
  | .gov => off == 0x104 || off == 0x10C || off == 0x1A0 || off == 0x1A8 || off == 0x1AC || off == 0x1B0
  | .tick => off == 0x110 || off == 0x114 || off == 0x120 || off == 0x124
  | .byp => off == 0x104
  | .swc => off == 0x100
  | _ => false


/-- The staged copy of a register, be it covered by a strobe, or its live copy where nothing is staged. -/
def State.stagedOr (s : State) (z i off : Nat) : W32 :=
  match Sparse.get noStage s.staged (rkey z i off) with
  | some v => v
  | none =>
      match Sparse.get noStage s.covered (rkey z i off) with
      | some v => v
      | none => s.rg z i off

/-- A register write by the access codes of its fields (R360, R364, R366, R369): RWI, W1C and W1S take effect, RW and RWL
are staged, RO and reserved bits and WO fields keep nothing. -/
def State.writeAcc (s : State) (z i off : Nat) (v : W32) : State :=
  match pageType z i with
  | none => s
  | some p =>
    if p = .swc ∧ z = 26 ∧ off = 0x100 then s
    else if p = .gov ∧ z = 25 ∧ 0x100 ≤ off then s
    else if p = .bed ∧ 0x180 ≤ off ∧ off < 0x1A0 ∧ stationKind (i - 0x20) = 0 then s
    else
    let fs := regFields p off
    let live := s.rg z i off
    let locked := s.flag z i 0x00C 0
    let grpLocked := s.flag z i 0x00C 1
    let rwi := if off = 0x020 ∧ grpLocked then 0 else accMask fs (· == .rwi)
    let w1c := accMask fs (· == .w1c)
    let w1s := accMask fs (· == .w1s)
    let live' := (mergeBits rwi live v &&& ~~~(v &&& BitVec.ofNat 32 w1c)) ||| (v &&& BitVec.ofNat 32 w1s)
    let s := s.setRg z i off live'
    let rw := accMask fs (· == .rw)
    let rwl := accMask fs (· == .rwl)
    let m := if locked then rw else rw ||| rwl
    if m = 0 then s
    else { s with staged := Sparse.put noStage s.staged (rkey z i off) (some (mergeBits m (s.stagedOr z i off) v)) }

/-- A controller's read-ahead buffer emptied: it stands only while `HWC.CTRL.RA_EN` is set (R236). -/
def State.dropReadAhead (s : State) (d c : Nat) : State :=
  let x := Sparse.get Ctl.initial s.ctls (24 * d + c)
  { s with ctls := Sparse.put Ctl.initial s.ctls (24 * d + c) { x with ra := [], fills := [] } }

/-- The served counts of a Parting core's engines set to 0 (R245). -/
def State.clearServed (s : State) (d q : Nat) : State :=
  let p := Sparse.get Parting.initial s.parts (4 * d + q)
  { s with parts := Sparse.put Parting.initial s.parts (4 * d + q) { p with served := [] } }

/-- The RW and RWL fields of a register take the values of its staged copy (R366). While the page is locked an RWL field keeps its value in effect, and
the staged one that it has (R369). -/
def State.takeEffect (s : State) (z i off : Nat) (v : W32) : State :=
  let fs := match pageType z i with | some p => regFields p off | none => []
  let locked := s.flag z i 0x00C 0 && accMask fs (· == .rwl) != 0
  let m := accMask fs fun a => a == .rw || (a == .rwl && !locked)
  let s := s.setRg z i off (mergeBits m (s.rg z i off) v)
  let s := if locked && (Sparse.get noStage s.staged (rkey z i off)).isNone then
    { s with staged := Sparse.put noStage s.staged (rkey z i off) (some v) } else s
  if pageType z i = some .hwc ∧ off = 0x104 ∧ s.flag z i 0x104 0 = false then s.dropReadAhead z (i - 0x50)
  else if pageType z i = some .part ∧ off = 0x198 then s.clearServed z (i / 6) else s

/-- A staged register takes effect at its own boundary (R368). -/
def State.commit (s : State) (z i off : Nat) : State :=
  match Sparse.get noStage s.staged (rkey z i off) with
  | none => s
  | some v => { s with staged := Sparse.put noStage s.staged (rkey z i off) none }.takeEffect z i off v

/-! ### Tiles -/

/-- A ring tile of up to 256 lines; transfer i departs in a given cycle when the tile is counted (R23, R260). -/
def ringTile (st retire : Nat) (dir mode : Bool) (bufLine tile : Nat) (point : Option Nat) (departs : Nat → Nat)
    (lines : List (Nat × Nat)) : List Xfer :=
  lines.zipIdx.map fun p =>
    { tag := { src := st, retire := retire, dir := dir, mode := mode, xfer := p.2, xferLast := lines.length - 1,
               bufLine := bufLine, tile := tile }
      data := p.1.1
      poison := p.1.2
      stamp := point.map fun q => ⟨q, departs p.2 % 2 ^ 20, false⟩ }

/-- A near-lane tile (R210): four 512 B lines in each transfer, a shorter last one. -/
def nearTile (st target bufLine tile : Nat) (point : Option Nat) (start : Nat) (lines : List (Nat × Nat)) : List Xfer :=
  let n := ceilDiv lines.length 4
  (List.range n).map fun j =>
    let part := (lines.drop (4 * j)).take 4
    { tag := { src := st, retire := target, dir := false, mode := false, xfer := j, xferLast := n - 1, bufLine := bufLine, tile := tile }
      data := packBits 4096 (part.map (·.1))
      poison := packBits 8 (part.map (·.2))
      lines := part.length
      stamp := point.map fun q => ⟨q, (start + 4 * j + part.length) % 2 ^ 20, false⟩
      near := true }

/-! ### Deliberate faults -/

/-- Whether an injection register selects an item (R353): `ctrl`, `val`, `mask` and `cnt` are the offsets of its registers, `word`
the 32 bits that a pattern is matched against; a pseudo-random selection is a free choice. -/
def State.injectHit (s : State) (z i ctrl val mask cnt : Nat) (dir : Bool) (word : W32) : Bool × State :=
  if !s.flag z i ctrl 0 || s.flag z i ctrl 3 != dir || s.rg z i cnt == 0 then (false, s)
  else
    let k := s.fld z i ctrl 5 5
    let (hit, s) :=
      if k ≠ 0 then (let (n, s) := s.freeNat k; (n == 0, s))
      else
        ((word &&& s.rg z i mask) == (s.rg z i val &&& s.rg z i mask), s)
    (hit, if hit then s.setRg z i cnt (s.rg z i cnt - 1) else s)

end Sys2Proof.Machine
end

