-- ==== Sys2Proof/Machine/CoreOps.lean ====
section
/-!
DEFINITION. The named operations over one core's memories: operand buffer or scratch, landing tracker, hazards.
-/
namespace Sys2Proof.Machine

def byte0 (_ : Nat) : Byte := 0
def false0 (_ : Nat) : Bool := false
def nat0 (_ : Nat) : Nat := 0
def w320 (_ : Nat) : W32 := 0

/-- Bytes of a core's operand buffer or scratch (R35, R138). -/
def bufBytes (core : Nat) : Nat := if isGouge core then 2 ^ 23 else 2 ^ 22

/-- The `n` bytes at byte address `a` of a buffer of `size` bytes, as a little-endian number; the bytes beyond its end are
free values. -/
def Core.readBuf (c : Core) (size a n : Nat) : Nat :=
  ofBytes ((List.range n).map fun i => if a + i < size then Sparse.get byte0 c.buf (a + i) else Config.beyond (a + i))

/-- The 64 B units that `n` bytes at `a` touch. -/
def unitsOf (a n : Nat) : List Nat :=
  if n = 0 then [] else (List.range ((a + n - 1) / 64 - a / 64 + 1)).map fun i => a / 64 + i

/-- The first poisoned 64 B unit that the `n` bytes at `a` touch (R313). -/
def Core.badUnit (c : Core) (a n : Nat) : Option Nat := (unitsOf a n).find? fun u => Sparse.get false0 c.bufPoison u

/-- Whether a 64 B unit that the `n` bytes at `a` touch is poisoned (R313). -/
def Core.bufBad (c : Core) (a n : Nat) : Bool := (c.badUnit a n).isSome

/-- The poison of the units that `n` bytes at `a` touch, as a mask from the first of them. -/
def Core.poisonMask (c : Core) (a n : Nat) : Nat :=
  (unitsOf a n).foldr (fun u m => b2n (Sparse.get false0 c.bufPoison u) + 2 * m) 0

/-- The poison of the units after a write of `n` bytes at `a` whose units are poisoned by a mask: a write of a whole unit
sets or clears it, and a narrower one leaves a poisoned unit poisoned (R313). -/
def writePoison (m : Sparse Bool) (a n mask : Nat) : Sparse Bool :=
  ((unitsOf a n).zipIdx).foldl (fun m p =>
    let whole := decide (a ≤ 64 * p.1) && decide (64 * p.1 + 64 ≤ a + n)
    Sparse.put false0 m p.1 (bitOf mask p.2 || (!whole && Sparse.get false0 m p.1))) m

/-- `n` bytes written at byte address `a` of a buffer of `size` bytes; nothing is written beyond its end. -/
def Core.writeBuf (c : Core) (size a n data mask : Nat) : Core :=
  let n := min n (size - a)
  { c with buf := Sparse.putRange byte0 c.buf a (bytesOf n data)
           bufPoison := writePoison c.bufPoison a n mask }

/-- The last line that a tile may be written at, by where it retires (R23); none where the check does not apply. -/
def lineLimit (mode : Bool) (retire : Nat) : Option Nat :=
  if mode then some 16383
  else
    match coreOfStation retire with
    | none => none
    | some c => if isGouge c then some 16383 else if isSkew c then some 8191 else none

/-- The `BUF_LINE` of a tag: a line that a later tile of a group would put beyond the buffer stays beyond it, so that the station
refuses it and line numbers never wrap (R23); elsewhere the field's 14 bits. -/
def tagLine (mode : Bool) (retire line : Nat) : Nat := if (lineLimit mode retire).isSome then line else line % 2 ^ 14

/-- Entries of the landing tracker (R25). -/
def trackerDepth : Nat := 8

/-- Whether the chain port's first entry is a chain-in that waits for tile `t` (R25). -/
def chainWaits (t : Nat) : List UEntry → Bool
  | [] => false
  | e :: _ => e.started && !e.landed && (match e.instr with | .chin _ _ _ _ _ _ tile => tile == t | _ => false)

/-- The chain port's first entry marked landed. -/
def markLanded : List UEntry → List UEntry
  | [] => []
  | e :: l => { e with landed := true } :: l

def noEntries (_ : Nat) : List UEntry := []

/-- The queue of a unit: units 0 to 3 of the main program, and the same units at 4 to 7 of the back-fill program, whose
instructions wait apart between its windows (R190, R192). -/
def Core.unit (c : Core) (u : Nat) : List UEntry := Sparse.get noEntries c.units u
/-- The queue of a unit replaced. -/
def Core.setUnit (c : Core) (u : Nat) (l : List UEntry) : Core := { c with units := Sparse.put noEntries c.units u l }

/-- Whether a program waits for the landing of tile `t`. -/
def Prog.awaits (p : Prog) (t : Nat) : Bool :=
  match p.hold with
  | some (.landing x) => x == t
  | _ => false

/-- A tile lands: the waiting chain-in, else the waiting landing wait, the main program's before the back-fill's, else a tracker entry
takes it; and whether the oldest entry was evicted (R25). Which of two waiters for one tile takes it R25 leaves open (DESIGN CHOICE, log
entry 82). -/
def Core.landTile (c : Core) (t : Nat) : Core × Bool :=
  if chainWaits t (c.unit 3) then (c.setUnit 3 (markLanded (c.unit 3)), false)
  else if chainWaits t (c.unit 7) then (c.setUnit 7 (markLanded (c.unit 7)), false)
  else if c.prog.awaits t then ({ c with prog := { c.prog with hold := none } }, false)
  else
    match c.backfill with
    | some b =>
        if b.prog.awaits t then ({ c with backfill := some { b with prog := { b.prog with hold := none } } }, false)
        else if c.landed.length < trackerDepth then ({ c with landed := c.landed ++ [t] }, false)
        else ({ c with landed := c.landed.drop 1 ++ [t] }, true)
    | none =>
        if c.landed.length < trackerDepth then ({ c with landed := c.landed ++ [t] }, false)
        else ({ c with landed := c.landed.drop 1 ++ [t] }, true)

/-- A claim of tile `t`: the tracker without it, if it is there (R25). -/
def Core.claim (c : Core) (t : Nat) : Option Core :=
  if c.landed.contains t then some { c with landed := c.landed.erase t } else none

/-- A tile lands in core `n` of die `d`; an eviction is counted (R25). -/
def State.landTile (s : State) (d n t : Nat) : State :=
  let (c, evicted) := (s.core d n).landTile t
  let s := s.setCore d n c
  if evicted then s.bump d n 0x2D0 1 else s

/-- A hazard in debug mode: counted, its first record of the kind latched, and dispatch halted if `HALT` is set
(R195, R196). -/
def State.hazard (s : State) (d n kind tile line counted actual : Nat) : State :=
  if s.debug d (n / 6) then
    let off := if kind ≤ 2 then 0x204 else 0x208
    let lo := if kind % 2 = 1 then 0 else 16
    let k := s.fld d n off lo 16
    let s := s.setFld d n off lo 16 (if k = 65535 then k else k + 1)
    let s := if s.flag d n 0x200 kind then s
      else
        let fs := [kind, s.tick, n, tile, line, counted, actual]
        (List.range 8).foldl (fun s j => s.setRg d n (0x210 + 32 * (kind - 1) + 4 * j) (Config.hazWord j fs))
          (s.setFlag d n 0x200 kind true)
    if s.flag d n 0x200 0 then s.setCore d n { s.core d n with halted := true } else s
  else s

/-- A write to a core's operand buffer or scratch by the writer of place `rank` in R26's order: 1 and 2 the ring with and against the
grain, 3 and 4 the near lanes from the lower and the higher neighbour, 5 the load queues, 6 the epilogue or a scratch store, 7 a
chain-out. Of writes of one cycle (`same`: in the cycle of the write before) the last in that order prevails; two that reach one
512 B line are a hazard of kind 2 (R26, R195). -/
def State.putBuf (s : State) (d n rank : Nat) (same : Bool) (a len data mask tile : Nat) : State :=
  let c := s.core d n
  let past := if same then c.cycleWrites else []
  let lineHit (w : Nat × Nat × Nat) : Bool := decide (w.2.1 / 512 ≤ (a + len - 1) / 512) && decide (a / 512 ≤ (w.2.1 + w.2.2 - 1) / 512)
  let later := past.filter fun w => decide (rank < w.1)
  let c' := later.foldl (fun y w => y.writeBuf (bufBytes n) w.2.1 w.2.2 (c.readBuf (bufBytes n) w.2.1 w.2.2) (c.poisonMask w.2.1 w.2.2))
    (c.writeBuf (bufBytes n) a len data mask)
  let s := s.setCore d n { c' with cycleWrites := past ++ [(rank, a, len)] }
  if past.any lineHit then s.hazard d n 2 tile (a / 512) 0 ((s.quarter d (n / 6)).cycle - (s.quarter d (n / 6)).phaseBase) else s

/-- Cycles of the quarter since its phase start (R168). -/
def State.phaseNow (s : State) (d q : Nat) : Nat := (s.quarter d q).cycle - (s.quarter d q).phaseBase

/-! ### Counted arrivals -/

/-- τ for `h` hops at the receiving point (R171). -/
def tau (h pr : Nat) : Nat := ceilDiv (h * freqOf pr) 8 + 4
/-- ⌈i × κ⌉ at the receiving point (R169). -/
def spacing (i pr : Nat) : Nat := ceilDiv (i * freqOf pr) 8
/-- ⌈c × f_r ÷ f_s⌉. -/
def inReceiver (c ps pr : Nat) : Nat := ceilDiv (c * freqOf pr) (freqOf ps)

/-- The cycle count congruent to the stamp's modulo 2^20 that lies nearest the receiver's own phase count, scaled to the
sender's (R260). -/
def unwrapStamp (st : Stamp) (now pr : Nat) : Nat :=
  let own := now * freqOf st.point / freqOf pr
  let up := (st.cycle + 2 ^ 20 - own % 2 ^ 20) % 2 ^ 20
  if up ≤ 2 ^ 19 then own + up else if 2 ^ 20 ≤ own + up then own + up - 2 ^ 20 else own + up

/-- τ of a whittle message at the receiving point, by its class in units of 5 ns: 1 within a Lathe die, 10 from another, 15 from a Headstock
core (R172, Table 7.2). -/
def whittleTau (span pr : Nat) : Nat := span * freqOf pr + 4

/-- The stamp of what a quarter sends now as counted (R260). -/
def State.stampNow (s : State) (d q : Nat) : Stamp := ⟨s.curPt d q, s.phaseNow d q % 2 ^ 20, false⟩

end Sys2Proof.Machine
end

