-- ==== Sys2Proof/Machine/Apply.lean ====
section
/-!
DEFINITION. Apply strobes, snapshots, clears and shadow refreshes (R361, R366 to R371).
-/
namespace Sys2Proof.Machine

/-- The apply group of a page (R365). -/
def State.groupOf (s : State) (z i : Nat) : Nat := s.fld z i 0x020 0 4

/-- The quarter that a page lies in, if it lies in one: core pages and the quarter's own page (R252). -/
def quarterOf (z i : Nat) : Option (Nat × Nat) :=
  if z < 8 then
    if i < 24 then some (z, i / 6) else if 0x40 ≤ i ∧ i ≤ 0x43 then some (z, i - 0x40) else none
  else none

/-- Whether a page takes part in a strobe of the groups in `mask`. -/
def State.inStrobe (s : State) (mask z i : Nat) : Bool := bitOf mask (s.groupOf z i)

/-- Sequence counters of a core's generators set to 0 (R75, R193). -/
def genInit (_ : Nat) : Gen := {}
def Core.resetSeqs (c : Core) : Core :=
  { c with gens := Sparse.mapVals genInit (fun _ g => { g with seq := 0, seqB := 0 }) c.gens }

/-- The sequence counters of the cores that `p` picks set to 0. -/
def State.resetSeqs (s : State) (p : Nat → Nat → Bool) : State :=
  (s.cores.map fun c => c.1).foldl (fun s k =>
    if p (k / 24) (k % 24) then s.setCore (k / 24) (k % 24) (s.core (k / 24) (k % 24)).resetSeqs else s) s

/-- Register key `k` takes effect at an apply and not at a boundary of its own (R366, R368). -/
def appliesAt (k : Nat) : Bool :=
  match pageType (k / 2 ^ 24) (k / 2 ^ 12 % 2 ^ 12) with
  | some t => !isNatural t (k % 2 ^ 12)
  | none => false

/-- Pages of a held quarter, members of their groups that apply when it resumes (R367). -/
def quarterPages (d q : Nat) : List Nat := (List.range 6).map (fun j => rkey d (6 * q + j) 0) ++ [rkey d (qBlk q) 0]

/-- The member pages that a strobe of the groups in `m` reaches: those with staged writes, the cores, whose sequences begin again, and
every page of a held quarter (R75, R367). -/
def State.members (s : State) (m : Nat) : List Nat :=
  let staged := (s.staged.filter fun (c : Nat × Option W32) => appliesAt c.1).map fun c => pageKey c.1
  let cores := s.cores.map fun c => rkey (c.1 / 24) (c.1 % 24) 0
  let held := (allQuarters.filter fun p => !s.qRuns p.1 p.2).flatMap fun p => quarterPages p.1 p.2
  (staged ++ cores ++ held).eraseDups.filter fun k => s.inStrobe m (k / 2 ^ 24) (k / 2 ^ 12 % 2 ^ 12)

/-- A strobe of the groups in `m` reaches its members: what is staged there is covered, and a later write waits for the next strobe; a
second strobe covers what the first did (R367). -/
def State.deliverStrobe (s : State) (m : Nat) : State :=
  let pages := s.members m
  let hit (k : Nat) : Bool := appliesAt k && pages.contains (pageKey k)
  { s with
    covered := (s.staged.filter fun (c : Nat × Option W32) => hit c.1).foldl (fun r c => Sparse.put noStage r c.1 c.2) s.covered
    staged := s.staged.filter fun (c : Nat × Option W32) => !hit c.1
    strobed := s.strobed ++ pages.map fun k => (k, s.groupOf (k / 2 ^ 24) (k / 2 ^ 12 % 2 ^ 12), s.tick) }

/-- Every covered register of the page with key `k` takes effect, and a core's sequences begin again (R75, R366). -/
def State.applyPage (s : State) (k : Nat) : State :=
  let mine := s.covered.filter fun (c : Nat × Option W32) => pageKey c.1 == k
  let s := { s with covered := s.covered.filter fun (c : Nat × Option W32) => pageKey c.1 != k }
  let s := mine.foldl (fun s c => match c.2 with
    | some v => s.takeEffect (k / 2 ^ 24) (k / 2 ^ 12 % 2 ^ 12) (c.1 % 2 ^ 12) v
    | none => s) s
  if k / 2 ^ 24 < 8 ∧ k / 2 ^ 12 % 2 ^ 12 < 24 then s.resetSeqs fun d c => rkey d c 0 == k else s

/-- The delivered strobes that `p` picks are applied. -/
def State.applyNow (s : State) (p : Nat × Nat × Nat → Bool) : State :=
  let now := s.strobed.filter p
  (now.map fun x => x.1).eraseDups.foldl State.applyPage { s with strobed := s.strobed.filter fun x => !p x }

/-- Whether the blocks of a page run: those of a quarter do while it is not held (R367). -/
def State.pageRuns (s : State) (k : Nat) : Bool :=
  match quarterOf (k / 2 ^ 24) (k / 2 ^ 12 % 2 ^ 12) with
  | some (d, q) => s.qRuns d q
  | none => true

/-- Strobes delivered in an earlier tick are applied by every member that runs: at edge t_a + 1, and in the first cycle after it (R367,
R442). -/
def State.applyReady (s : State) : State := s.applyNow fun x => decide (x.2.2 + 1 ≤ s.tick) && s.pageRuns x.1

/-- The apply of a quarter that resumes (R367). -/
def State.applyQuarter (s : State) (d q : Nat) : State :=
  s.applyNow fun x => decide (x.2.2 + 1 ≤ s.tick) && quarterOf (x.1 / 2 ^ 24) (x.1 / 2 ^ 12 % 2 ^ 12) == some (d, q)

/-- The strobe sampled at the last edge is delivered (R367). -/
def State.deliverDue (s : State) : State := if s.applyDue = 0 then s else { s.deliverStrobe s.applyDue with applyDue := 0 }

/-- A strobe of the groups in `m` is sampled: `APPLY_SEQ` advances and `PENDING` is set (Table 14.4). -/
def State.sampleStrobe (s : State) (m : Nat) : State :=
  let s := { s with applyAt := (List.range 16).foldl (fun a g => if bitOf m g then Sparse.put nat0 a g s.tick else a) s.applyAt }
  let s := (s.setRg 24 4 0x108 (s.rg 24 4 0x108 + 1)).setPair 24 4 0x110 s.tick
  s.setFld 24 4 0x104 0 16 (s.fld 24 4 0x104 0 16 ||| m)

/-- The writes of `APPLY` that have arrived are sampled at a tick edge as one strobe (R367). -/
def State.sampleApply (s : State) : State :=
  if s.applyReq = 0 then s else { s.sampleStrobe s.applyReq with applyReq := 0, applyDue := s.applyReq }

/-- Whether a group's last strobe has been applied by every member and lies two ticks back (R367, Table 14.4). -/
def State.groupDone (s : State) (g : Nat) : Bool :=
  decide (Sparse.get nat0 s.applyAt g + 2 ≤ s.tick) && !(s.strobed.any fun x => x.2.1 == g)

/-- `APPLY_STAT.PENDING` clears for the groups that are done (Table 14.4). -/
def State.applySettle (s : State) : State :=
  let p := s.fld 24 4 0x104 0 16
  if p = 0 then s
  else s.setFld 24 4 0x104 0 16 ((List.range 16).foldl (fun a g => a + b2n (bitOf p g && !s.groupDone g) * 2 ^ g) 0)

/-! ### The snapshot set -/

/-- Offsets and bytes of the snapshot set of a page type (R371). -/
def snapRanges : PageType → List (Nat × Nat)
  | .gouge => [(0x110, 0x30), (0x1C8, 0x20), (0x1F0, 8), (0x204, 8), (0x2A8, 8), (0x2B8, 16), (0x2D0, 8)]
  | .skew => [(0x110, 0x28), (0x148, 8), (0x1F0, 8), (0x204, 8), (0x2A8, 8), (0x2D0, 8)]
  | .part => [(0x160, 0x20), (0x1A0, 0x18)]
  | .bed => [(0x110, 0x20), (0x138, 0x10), (0x190, 4), (0x198, 8)]
  | .qclk => [(0x120, 0x20), (0x190, 8)]
  | .hwc => [(0x110, 0x30), (0x148, 8)]
  | .ce => [(0x120, 0x30)]
  | .swc => [(0x110, 0x10), (0x148, 8), (0x158, 8)]
  | .swcache => [(0x110, 0x28)]
  | .fpp => [(0x130, 0x40), (0x1C8, 0x10), (0x214, 4)]
  | .fpe => [(0x1A0, 0x40)]
  | .byp => [(0x110, 0x20)]
  | .gov => [(0x120, 8), (0x190, 0x10)]
  | .root => []
  | .tick => [(0x100, 8)]
  | .mgmt => [(0x110, 0x18)]
  | .apply => []
  | .elog => [(0x138, 8)]

/-- Whether a register belongs to its page's snapshot set. -/
def inSnapSet (p : PageType) (off : Nat) : Bool :=
  (snapRanges p).any fun r => decide (r.1 ≤ off) && decide (off < r.1 + r.2)

/-- Whether a register key belongs to its page's snapshot set. -/
def keyInSnap (k : Nat) : Bool :=
  match pageType (k / 2 ^ 24) (k / 2 ^ 12 % 2 ^ 12) with
  | some p => inSnapSet p (k % 2 ^ 12)
  | none => false

/-- Dies with a page: Lathe, Headstock, Tailstock and Faceplate dies (Table 14.1). -/
def pageDies : List Nat := [0, 1, 2, 3, 4, 5, 6, 7, 24, 25, 26, 27, 28, 29, 30, 31]

/-- The counts as they stand at the edge of the tick for which a snapshot is armed: of every event before that tick and of none in it; a
block held in reset gives zeros (R274, R370). -/
def State.snapAtEdge (s : State) : State :=
  match s.snapArmed with
  | some t =>
      if t ≤ s.tick ∧ s.snapEdge = none then
        let bad := s.inReset
        { s with snapArmed := none, snapEdge := some (s.tick, bad,
            if bad then [] else List.filter (fun (c : Nat × W32) => keyInSnap c.1 && decide (c.2 ≠ 0)) s.regs) }
      else s
  | none => s

/-- Every block latches its snapshot set: the counts of the edge of tick T (R274, R370). -/
def State.latchSnapshot (s : State) : State :=
  match s.snapEdge with
  | some (t, bad, counts) =>
      let seq := (s.fld 24 2 0x14C 0 31 + 1) % 2 ^ 31
      let s := { s with
        snap := counts
        snapHeld := pageDies.map fun z => (z, (seq, t, bad))
        snapEdge := none }
      (s.setFld 24 2 0x14C 0 31 seq).setFlag 24 2 0x148 0 s.snapArmed.isSome
  | none => s

/-- The register at an offset of a page in the snapshot view (R359, R370). -/
def State.readSnap (s : State) (z i off : Nat) : W32 :=
  match pageType z i with
  | none => 0
  | some p =>
      if p = .tick ∧ off = 0x100 then BitVec.ofNat 32 (Sparse.get snapNone s.snapHeld z).2.1
      else if p = .tick ∧ off = 0x104 then BitVec.ofNat 32 ((Sparse.get snapNone s.snapHeld z).2.1 / 2 ^ 32)
      else if inSnapSet p off then Sparse.get w320 s.snap (rkey (if p = .gov then 24 else z) i off)
      else s.shadow.read s.inReset z i off

/-- Pages whose `CNT_CLR` was written clear their snapshot set, but for the energy and the tick counter (R371). -/
def State.clearCounts (s : State) : State :=
  if s.cntClr = [] then s
  else
    let hit (k : Nat) : Bool :=
      s.cntClr.contains (pageKey k) && keyInSnap k &&
        (match pageType (k / 2 ^ 24) (k / 2 ^ 12 % 2 ^ 12) with
          | some .gov => !(k % 2 ^ 12 == 0x120 || k % 2 ^ 12 == 0x124)
          | some .tick => false
          | _ => true)
    { s with regs := s.regs.filter fun c => !hit c.1, cntClr := [] }

/-- A snapshot that is due at a tick edge, and then the clears of the same edge (R370, R371). -/
def State.edgeClears (s : State) : State := s.snapAtEdge.clearCounts

/-- Every block refreshes its shadow page; blocks held in reset keep theirs (R361). -/
def State.refreshShadow (s : State) : State := if s.inReset then s else { s with shadow := s.view, wrote := [] }

/-! ### Commands -/

/-- SHADOW_REFRESH: every block refreshes its shadow page; every tick edge does (R361). -/
def execShadowRefresh (s : State) : Out := .next s.refreshShadow

/-- A write of `APPLY.MASK`: a mask of zero makes no strobe (R367, R372). -/
def State.wApply (s : State) (m : Nat) : State := { s with applyReq := s.applyReq ||| m % 2 ^ 16 }

/-- APPLY_MASK: a write to `APPLY.MASK` requests an apply strobe for the named groups (R367). -/
def execApplyMask (v : W32) (s : State) : Out := .next (if s.inReset then s else s.wApply v.toNat)

/-- APPLY_STROBE: the strobe sampled at the last tick edge is delivered to every member: what is staged there is applied at the next edge, or
when its quarter resumes, and a later write is not (R367). -/
def execApplyStrobe (s : State) : Out := .next s.deliverDue

/-- A write of `BLK_CTRL`; the Governor pages show one set of registers (R301, R365). -/
def State.wBlkCtrl (s : State) (z i : Nat) (v : W32) : State :=
  let k := rkey (if pageType z i = some .gov then 24 else z) i 0
  if v.getLsbD 0 && (pageType z i).isSome && !s.inReset then { s with cntClr := s.cntClr.erase k ++ [k] } else s

/-- CNT_CLR: writing `BLK_CTRL.CNT_CLR` clears the page's snapshot set at the next tick edge (R371). -/
def execCntClr (z : Fin 32) (i : Fin 128) (v : W32) (s : State) : Out := .next (s.wBlkCtrl z i v)

/-- LOCK: writing `BLK_LOCK.LOCK` sets it (R369). -/
def execLock (z : Fin 32) (i : Fin 128) (s : State) : Out :=
  .next (if s.inReset then s else s.writeAcc z i 0x00C 1#32)

/-- GRP_LOCK: writing `BLK_LOCK.GRP_LOCK` sets it (R369). -/
def execGrpLock (z : Fin 32) (i : Fin 128) (s : State) : Out :=
  .next (if s.inReset then s else s.writeAcc z i 0x00C 2#32)

/-- The arms that were written in a tick are sampled at its end, in their order: a tick already passed latches at the next edge, and a pending
snapshot is replaced (R370). -/
def State.sampleArm (s : State) : State :=
  let s' := s.snapReq.foldl (fun s t =>
    let s := if s.snapArmed.isSome then s.setFlag 24 2 0x148 1 true else s
    { s.setFlag 24 2 0x148 0 true with snapArmed := some (max t (s.tick + 1)) }) s
  { s' with snapReq := [] }

/-- What a tick edge samples of the writes to the apply control and snapshot pages, after the applies that are due (R367, R370). -/
def State.edgeSamples (s : State) : State := s.applyReady.applySettle.sampleApply.sampleArm

/-- A write of `TICK.SNAP_AT_TICK_HI` arms the tick that the pair then holds (R370). -/
def State.wSnapHi (s : State) (v : W32) : State :=
  let t := s.writeAcc 24 2 0x144 v
  { t with snapReq := t.snapReq ++ [t.pair 24 2 0x140] }

/-- SNAP_AT_TICK: writing `TICK.SNAP_AT_TICK_HI` arms a snapshot, replacing a pending one (R370). -/
def execSnapAtTick (v : W32) (s : State) : Out := .next (if s.inReset then s else s.wSnapHi v)

/-- SNAPSHOT_LATCH: every block latches its snapshot set of tick T, before a clear of the same edge (R370, R274). -/
def execSnapshotLatch (s : State) : Out := .next s.latchSnapshot

/-- SLIP_MAX_CLR: writing 1 to `QCLK.SLIP_MAX_CLR` clears `QCLK.SLIP_MAX` (R275). -/
def execSlipMaxClr (d : Fin 8) (q : Fin 4) (v : W32) (s : State) : Out :=
  .next (if v.getLsbD 0 && !s.inReset then s.setFld d (qBlk q) 0x140 0 16 0 else s)

end Sys2Proof.Machine
end

