-- ==== Sys2Proof/Machine/Stations.lean ====
section
/-!
DEFINITION. The named operations over Bed stations: paths, hop tags, landing buffers, starve, injection and credit (R18 to R24, R28).
Paths: 0 with the grain, 1 against it, 2 the near lane from station n − 1 to n, 3 the one from n + 1 to n.
-/
namespace Sys2Proof.Machine

/-- The dies are supplied and not held in reset, so that the fabric moves (R402, R408, R409). -/
def State.powered (s : State) : Bool := s.run == .startUp || s.run == .ready || s.run == .quiesced || s.run == .recovery

/-- The station that a path leads to from station `st`. -/
def nextStation (path st : Nat) : Nat := if path % 2 = 0 then (st + 1) % 30 else (st + 29) % 30
/-- The station upstream of `st` on a path. -/
def prevStation (path st : Nat) : Nat := if path % 2 = 0 then (st + 29) % 30 else (st + 1) % 30

/-- Hops from `src` to `st` on a ring direction. -/
def hopsTo (path src st : Nat) : Nat := if path = 0 then (st + 30 - src) % 30 else if path = 1 then (src + 30 - st) % 30 else 1

def Station.port (x : Station) (path : Nat) : RingPort := if path = 0 then x.wg else x.ag
def Station.setPort (x : Station) (path : Nat) (p : RingPort) : Station := if path = 0 then { x with wg := p } else { x with ag := p }

/-- The landing buffer of a path. -/
def Station.landing (x : Station) (path : Nat) : List Xfer := Sparse.get noXfers x.land path
def Station.setLanding (x : Station) (path : Nat) (l : List Xfer) : Station := { x with land := Sparse.put noXfers x.land path l }
/-- Transfers that wait at the sending station for the lane of a path. -/
def Station.lane (x : Station) (path : Nat) : List Xfer := Sparse.get noXfers x.near path
def Station.setLane (x : Station) (path : Nat) (l : List Xfer) : Station := { x with near := Sparse.put noXfers x.near path l }

/-- Transfers that a landing buffer holds (R24). -/
def landDepth (path : Nat) : Nat := if path < 2 then 64 else 16
def landDepthMost : Nat := 64

/-- Whether station `st` sees starve asserted on a ring direction: its neighbour downstream asserts it, or sees it while its
own injection waits (R20). -/
def State.seesStarve (s : State) (d path : Nat) : Nat → Nat → Bool
  | 0, _ => false
  | n + 1, st =>
      let t := nextStation path st
      let p := (s.station d t).port path
      p.starve || (!p.inject.isEmpty && s.seesStarve d path n t)

/-- Whether station `st` refuses to inject a transfer with this hop tag (R23). -/
def HopTag.malformed (t : HopTag) (st : Nat) : Bool :=
  t.retire == t.src || decide (29 < t.retire) || decide (29 < t.src) || t.src != st || decide (t.xferLast < t.xfer) ||
  (match lineLimit t.mode t.retire with
    | some n => decide (n < t.bufLine + t.xferLast)
    | none => false) || t.rsvd != 0

/-- The 64 bits of a hop tag (Table 1.3). -/
def HopTag.bits (t : HopTag) : Nat :=
  t.src + t.retire * 2 ^ 5 + b2n t.dir * 2 ^ 10 + b2n t.mode * 2 ^ 11 + t.xfer * 2 ^ 12 + t.xferLast * 2 ^ 20 +
    t.bufLine * 2 ^ 28 + t.tile * 2 ^ 42 + t.rsvd * 2 ^ 58

/-- The hop tag that 64 bits hold (Table 1.3). -/
def HopTag.ofBits (n : Nat) : HopTag where
  src := bitsOf n 0 5
  retire := bitsOf n 5 5
  dir := bitOf n 10
  mode := bitOf n 11
  xfer := bitsOf n 12 8
  xferLast := bitsOf n 20 8
  bufLine := bitsOf n 28 14
  tile := bitsOf n 42 16
  rsvd := bitsOf n 58 6

/-- Ring direction of a tag as a path. -/
def HopTag.path (t : HopTag) : Nat := b2n t.dir

/-- Transfers put behind a station's injection queue. -/
def State.inject (s : State) (d st : Nat) (xs : List Xfer) : State :=
  xs.foldl (fun s x =>
    let y := s.station d st
    let p := y.port x.tag.path
    s.setStation d st (y.setPort x.tag.path { p with inject := p.inject ++ [x] })) s

/-- A tile offered for injection at station `st`: refused with `TAG_MALFORMED`, or queued (R23). -/
def State.offer (s : State) (d st : Nat) (xs : List Xfer) : Bool × State :=
  if xs.any fun x => x.tag.malformed st then (false, s.errBit d (stBlk st) 0)
  else (true, s.inject d st xs)

/-- Credit of port station `st` not yet granted (R28). -/
def State.credit (s : State) (d st : Nat) : Nat := s.fld d (stBlk st) 0x108 0 9

/-- `n` transfers of credit granted. -/
def State.takeCredit (s : State) (d st n : Nat) : State := s.setFld d (stBlk st) 0x108 0 9 (s.credit d st - n)

/-- Whether a tile of `n` transfers may start toward station `st`: a port station needs credit for it (R28). -/
def State.mayStart (s : State) (d st n : Nat) : Bool := (coreOfStation st).isSome || decide (n ≤ s.credit d st)

/-- The state with the credit for a tile of `n` transfers toward `st` taken. -/
def State.startToward (s : State) (d st n : Nat) : State := if (coreOfStation st).isSome then s else s.takeCredit d st n

end Sys2Proof.Machine
end

