-- ==== Sys2Proof/Machine/MemOps.lean ====
section
/-!
DEFINITION. The named operations over memory: the address map, blocks and their poison, and the issue of requests
(R224 to R228, R313, R317).
-/
namespace Sys2Proof.Machine

/-- First Sapwood address, first address of its upper half, and first address above it (Table 9.1). -/
def sapBase : Nat := 0x010000000000
def sapUpper : Nat := 0x016000000000
def sapEnd : Nat := 0x01C000000000
/-- First address of register space, and first above the pages (Table 9.1). -/
def regBase : Nat := 0xF00000000000

/-- Where an address lies (Table 9.1). -/
inductive Region where
  | heartwood (die : Nat)
  | sapwood (half : Nat)
  | register
  | unmapped
  deriving DecidableEq, Repr

/-- The row of Table 9.1 that an address falls in. -/
def regionOf (a : Nat) : Region :=
  if a < 0x008000000000 then .heartwood (a / 2 ^ 36)
  else if sapBase ≤ a ∧ a < sapUpper then .sapwood 0
  else if sapUpper ≤ a ∧ a < sapEnd then .sapwood 1
  else if regBase ≤ a ∧ a < regBase + 2 ^ 32 then .register
  else .unmapped

/-- Offset of core `c`'s home range in its die's Heartwood, and its bytes (R17, Table 1.2). -/
def homeOffset (c : Nat) : Nat :=
  if isGouge c then gougeOrdinal c * 0x000100000000
  else if isSkew c then 0x000C00000000 + skewOrdinal c * 0x000060000000
  else 0x000F00000000 + (c / 6) * 0x000040000000
def homeBytes (c : Nat) : Nat := if isGouge c then 2 ^ 32 else if isSkew c then 3 * 2 ^ 29 else 2 ^ 30

/-- The core whose home range holds an offset of a die's Heartwood (Table 1.2). -/
def homeCore (o : Nat) : Nat :=
  ((List.range 24).find? fun c => decide (homeOffset c ≤ o) && decide (o < homeOffset c + homeBytes c)).getD 0

/-- Home bank of a block of a home range, 0 to 31: layer × 16 + bank (R228). -/
def bankOf (c u : Nat) : Nat := (u / chanCount c) % 32

/-- First address of the OS carve-out (R238). -/
def State.carveBase (s : State) : Nat := sapEnd - s.fld 27 0 0x100 4 4 * 2 ^ 34

/-- `n` bytes of memory at `a`, little-endian. -/
def State.readMem (s : State) (a n : Nat) : Nat := ofBytes (Sparse.getRange byte0 s.mem a n)

/-- Whether the block that holds address `a` is poisoned. -/
def State.blockBad (s : State) (a : Nat) : Bool := Sparse.get false0 s.memPoison (a / 64)

/-- Page and bits of the poison table that holds a block: die, block index, entries it can hold (R317). -/
def poisonPage (a : Nat) : Nat × Nat × Nat :=
  match regionOf a with
  | .sapwood h => (26 + h, 0, 4096)
  | _ => (a / 2 ^ 36, hwcBlk (homeCore (a % 2 ^ 36)), 1024)

/-- The die named in records of a block: the Heartwood die of its layer, or the Tailstock (R249, R411). -/
def memDie (a : Nat) : Nat :=
  match regionOf a with
  | .sapwood h => 26 + h
  | _ =>
      let c := homeCore (a % 2 ^ 36)
      8 + 2 * (a / 2 ^ 36) + bankOf c ((a % 2 ^ 36 - homeOffset c) / 64) / 16

/-- A block entered in its poison table (R317). -/
def State.markBlock (s : State) (a who : Nat) : State :=
  if s.blockBad a then s
  else
    let (z, i, cap) := poisonPage a
    let n := s.fld z i 0x150 0 13
    if n < cap then
      ({ s with memPoison := Sparse.put false0 s.memPoison (a / 64) true }).setFld z i 0x150 0 13 (n + 1)
    else (s.setFlag z i 0x140 3 true).eventQuiesce (memDie a) i 4 0x7F (a + who * 2 ^ 48) 2 (dieMask z)

/-- A block's entry removed: a write of the whole block (R317). -/
def State.clearBlock (s : State) (a : Nat) : State :=
  if s.blockBad a then
    let (z, i, _) := poisonPage a
    ({ s with memPoison := Sparse.put false0 s.memPoison (a / 64) false }).setFld z i 0x150 0 13 (s.fld z i 0x150 0 13 - 1)
  else s

/-- Whole blocks written with their poison mask, from address `a` (R313, R317). -/
def State.writeBlocks (s : State) (who : Nat) : (n a data poison : Nat) → State
  | 0, _, _, _ => s
  | n + 1, a, data, poison =>
      let t := { s with mem := Sparse.putRange byte0 s.mem a (bytesOf 64 data) }
      let t := if bitOf poison 0 then t.markBlock a who else t.clearBlock a
      State.writeBlocks t who n (a + 64) (data / 2 ^ 512) (poison / 2)

/-- `n` bytes written from address `a`; `bad` is the poison of the 64 B units that they touch (R313, R317). -/
def State.writeBytes (s : State) (who a n data bad : Nat) : State :=
  let s := { s with mem := Sparse.putRange byte0 s.mem a (bytesOf n data) }
  (List.range ((a + n - 1) / 64 - a / 64 + 1)).foldl (fun s j =>
    let u := 64 * (a / 64 + j)
    if bitOf bad j then s.markBlock u who else if a ≤ u ∧ u + 64 ≤ a + n then s.clearBlock u else s) s

/-- The poison of the units that `n` bytes at `a` touch, as a mask. -/
def State.unitsPoison (s : State) (a n : Nat) : Nat :=
  (List.range ((a + n - 1) / 64 - a / 64 + 1)).foldl (fun m j => m + b2n (s.blockBad (64 * (a / 64 + j))) * 2 ^ j) 0

/-- The poison of `n` blocks from address `a`, as a mask. -/
def State.blocksPoison (s : State) (a : Nat) : Nat → Nat
  | 0 => 0
  | n + 1 => s.blocksPoison a n + b2n (s.blockBad (a + 64 * n)) * 2 ^ n

/-- The station by which a request from die `d` enters die `e` (Table 9.2), as the requester's index there (Table 9.3). -/
def entryIndex (d e : Nat) : Nat :=
  match (e + 8 - d) % 8 with
  | 1 => 33
  | 7 => 34
  | 4 => 35
  | 2 => 33
  | 6 => 34
  | 3 => 34
  | 5 => 33
  | _ => 36

/-- The parts of a Heartwood request: its blocks grouped by home bank, in address order (R228). -/
def partsOf (r : MemReq) (requester : Nat) : (fuel first : Nat) → List Part
  | 0, _ => []
  | fuel + 1, first =>
      if r.units ≤ first then []
      else
        let place (i : Nat) : Nat × Nat :=
          let o := (r.addr + 64 * i) % 2 ^ 36
          let c := homeCore o
          (c, bankOf c ((o - homeOffset c) / 64))
        let p := place first
        let n := (List.range (r.units - first)).takeWhile (fun i => decide (place (first + i) = p)) |>.length
        { req := r.id, die := r.addr / 2 ^ 36, core := p.1, requester := requester, fromDie := r.die, fromIdx := r.requester,
          lane := r.lane, bank := p.2, first := first, units := n, write := r.write } ::
          partsOf r requester fuel (first + n)

/-- The request with a name. -/
def State.findReq (s : State) (id : Nat) : Option MemReq := s.reqs.find? fun r => r.id == id

/-- A request changed. -/
def State.updReq (s : State) (id : Nat) (f : MemReq → MemReq) : State :=
  { s with reqs := s.reqs.map fun r => if r.id = id then f r else r }

/-- A request forgotten. -/
def State.dropReq (s : State) (id : Nat) : State := { s with reqs := s.reqs.filter fun r => r.id != id }

/-! ### Controllers and their banks -/

def State.ctl (s : State) (d c : Nat) : Ctl := Sparse.get Ctl.initial s.ctls (24 * d + c)
def State.setCtl (s : State) (d c : Nat) (x : Ctl) : State := { s with ctls := Sparse.put Ctl.initial s.ctls (24 * d + c) x }
def State.onCtl (s : State) (d c : Nat) (f : Ctl → Ctl) : State := s.setCtl d c (f (s.ctl d c))

/-- First block of a part in its home range. -/
def partFirst (r : MemReq) (p : Part) : Nat := ((r.addr + 64 * p.first) % 2 ^ 36 - homeOffset p.core) / 64

/-- Bytes of a read-ahead span (R236), and the spans that a part touches. -/
def spanBytes : Nat := 4096
def partSpans (r : MemReq) (p : Part) : List Nat :=
  let u := partFirst r p
  (List.range ((u + p.units - 1) / 64 - u / 64 + 1)).map fun i => u / 64 + i

/-- Admitted parts of a bank, and of a requester in it (R229). -/
def State.inBank (s : State) (d c bank : Nat) : List Part :=
  s.admitted.filter fun p => p.die == d && p.core == c && p.bank == bank
def State.mayAdmit (s : State) (p : Part) : Bool :=
  let l := s.inBank p.die p.core p.bank
  decide (l.length < 64) && decide ((l.filter fun x => x.requester == p.requester).length < 8)

/-- Whether two parts wait in one queue of a requester (R230). -/
def sameLane (a b : Part) : Bool := a.fromDie == b.fromDie && a.fromIdx == b.fromIdx && a.lane == b.lane

/-- Whether a read part lies wholly in a valid entry of a read-ahead buffer, which stands while `HWC.CTRL.RA_EN` is set (R236). -/
def State.raHit (s : State) (p : Part) : Bool :=
  match s.findReq p.req with
  | some r => !p.write && s.flag p.die (hwcBlk p.core) 0x104 0 && (match partSpans r p with | [k] => (s.ctl p.die p.core).ra.any fun e => e.span == k | _ => false)
  | none => false

/-- Whether the `n` bytes at `a` lie in a program's bounds for a read or a write (R181, R185). -/
def inBounds (bs : List Bound) (a n : Nat) (write : Bool) : Bool :=
  (List.range (ceilDiv n 64)).all fun i => bs.any fun b =>
    decide (b.base ≤ a + 64 * i) && decide (a + 64 * i + min 64 n ≤ b.base + b.bytes) && (!write || b.write)

end Sys2Proof.Machine
end

