-- ==== Sys2Proof/Machine/Messages.lean ====
section
/-!
DEFINITION. Memory requests and replies as messages: their ways over stations and dies, where they wait, how they start and what
they do where they arrive (R9, R27, R28, R30, R226, R230, R239).
-/
namespace Sys2Proof.Machine

/-! ### Ways -/

/-- Whether two stations are neighbours on the ring. -/
def adjacent (a b : Nat) : Bool := b == (a + 1) % 30 || a == (b + 1) % 30

/-- The way on the ring: the direction with fewer hops, with the grain when both are equal (R226). -/
def ringLeg (src dst : Nat) : Leg := { src := src, retire := dst, dir := decide (15 < (dst + 30 - src) % 30) }

/-- The way between two core stations of a die: the near lane of neighbours, else the ring (R30). -/
def coreLeg (src dst : Nat) : Leg :=
  if adjacent src dst && (coreOfStation src).isSome && (coreOfStation dst).isSome then { src := src, retire := dst, dir := dst == (src + 29) % 30, near := true } else ringLeg src dst

/-- The way of a request from station `src` of die `d` to station `dst` of die `e` ≠ `d`, die by die (Table 9.2). -/
def dieLegs (d e src dst : Nat) : List Leg :=
  match (e + 8 - d) % 8 with
  | 1 => [ringLeg src 15, ringLeg 0 dst]
  | 7 => [ringLeg src 0, ringLeg 15 dst]
  | 4 => [ringLeg src 22, ringLeg 22 dst]
  | 2 => [ringLeg src 15, ringLeg 0 15, ringLeg 0 dst]
  | 6 => [ringLeg src 0, ringLeg 15 0, ringLeg 15 dst]
  | 3 => [ringLeg src 22, ringLeg 22 0, ringLeg 15 dst]
  | _ => [ringLeg src 22, ringLeg 22 15, ringLeg 0 dst]

/-- The way back: the same dies in reverse (R226). -/
def backLegs (ls : List Leg) : List Leg :=
  ls.reverse.map fun l => if l.near then coreLeg l.retire l.src else ringLeg l.retire l.src

/-- The Lathe die whose Sapwood station serves requests of die `d` for a half: its own where its Tailstock has the half, else the die
that R226 names. -/
def viaDie (d half : Nat) : Nat :=
  if half = d / 4 then d
  else
    match d % 4 with
    | 0 => (d + 7) % 8
    | 3 => (d + 1) % 8
    | _ => (d + 4) % 8

/-- Station number of the Sapwood port (Table 1.4). -/
def sapStation : Nat := 7

/-- The way of a request from station `src` of die `d` to the Tailstock of a half (R9, R226). -/
def sapLegs (d half src : Nat) : List Leg :=
  if half = d / 4 then [ringLeg src sapStation] else dieLegs d (viaDie d half) src sapStation

/-- Station of a requester of Table 9.3 on its die. -/
def requesterStation (idx : Nat) : Nat :=
  if idx < 24 then stationOfCore idx
  else if idx < 32 then stationOfCore (6 * ((idx - 24) / 2) + 5)
  else if idx = 32 then 14
  else 29

/-- Whether a part's controller is that of its requester's own core, which reaches it vertically (R29). -/
def Part.home (p : Part) : Bool := p.fromDie == p.die && stationOfCore p.core == requesterStation p.fromIdx

/-- The way of a part to its controller. -/
def Part.legs (p : Part) : List Leg :=
  let src := requesterStation p.fromIdx
  let dst := stationOfCore p.core
  if p.fromDie = p.die then [coreLeg src dst] else dieLegs p.fromDie p.die src dst

/-! ### Starting -/

/-- The far side of a link to another Lathe die: die and station (Table 1.4). -/
def farSide (d st : Nat) : Option (Nat × Nat) :=
  if st = 0 then some ((d + 7) % 8, 15)
  else if st = 15 then some ((d + 1) % 8, 0)
  else if st = 22 then some ((d + 4) % 8, 22)
  else none

/-- Places that a requester's parts hold or are on their way to hold in a home bank (R229). -/
def State.placed (s : State) (d c bank requester : Nat) : Nat :=
  ((s.flight ++ s.waiting ++ s.admitted).filter fun p =>
    p.die == d && p.core == c && p.bank == bank && p.requester == requester).length

/-- Whether a requester's part stays within its limit of 8 in its bank (R229, R230). -/
def State.mayGo (s : State) (p : Part) : Bool := decide (s.placed p.die p.core p.bank p.requester < 8)

/-- The part that a message asks for on the die of its controller, where it comes from another die (R230). -/
def Xfer.foreignPart (x : Xfer) (d : Nat) : Option Part :=
  match x.msg with
  | some m => match m.body with
    | .part p => if p.die = d ∧ p.fromDie ≠ d then some p else none
    | _ => none
  | none => none

/-- Whether a transfer needs no credit of the port station at which it retires: forwarded values at the Net station (R115), and the replies to
its engine there, whose opens must go on while a full parking area withholds the station's credit (DESIGN CHOICE, log entry 73). -/
def Xfer.creditFree (x : Xfer) : Bool :=
  x.tag.retire == 14 &&
    (match x.msg with | some m => (match m.body with | .values _ => true | .reply .. => true | _ => false) | none => false)

/-- A tile that waits at a station starts, if it may: a port station needs credit (R28, R115), and a part from another die a place within
its port's limit (R230). A malformed tag is refused (R23). -/
def State.startTile (s : State) (d st : Nat) (xs : List Xfer) : Option State :=
  match xs with
  | [] => some s
  | x :: _ =>
      let target := x.tag.retire
      if x.near then
        let path := if target = nextStation 2 st then 2 else 3
        let y := s.station d st
        some (s.setStation d st (y.setLane path (y.lane path ++ xs)))
      else if xs.any fun x => x.tag.malformed st then some (s.errBit d (stBlk st) 0)
      else
        let port := (coreOfStation target).isNone && !x.creditFree
        let go := match x.foreignPart d with | some p => s.mayGo p | none => true
        if go && (!port || s.mayStart d target xs.length) then
          let s := s.inject d st (xs.map fun y => { y with credit := port })
          let s := if port then s.startToward d target xs.length else s
          some (match x.foreignPart d with | some p => { s with flight := s.flight ++ [p] } | none => s)
        else none

/-- A tile put behind the others of its queue at a station. -/
def State.post (s : State) (d st key : Nat) (xs : List Xfer) : State :=
  let y := s.station d st
  s.setStation d st { y with msgs := y.msgs ++ [(key, xs)] }

/-- Tiles that wait at a station start in order; one that may not start holds only its own queue (R28, R230). -/
def State.flushMsgs (s : State) (d st : Nat) : State :=
  let l := (s.station d st).msgs
  if l.isEmpty then s
  else
    (l.foldl (fun (a : State × List Nat) m =>
      if a.2.contains m.1 then (a.1.post d st m.1 m.2, a.2)
      else
        match a.1.startTile d st m.2 with
        | some t => (t, a.2)
        | none => (a.1.post d st m.1 m.2, m.1 :: a.2)) (s.setStation d st { s.station d st with msgs := [] }, [])).1

/-- The transfers of a message on a stretch of its way. -/
def legTile (l : Leg) (line tile : Nat) (m : Option MemMsg) (lines : List (Nat × Nat)) : List Xfer :=
  (if l.near then nearTile l.src l.retire line tile none 0 lines
    else ringTile l.src l.retire l.dir false line tile none (fun i => i) lines).map fun x => { x with msg := m }

/-- A message sent over a way from die `d`; it waits in the queue `key` of its first station. -/
def State.send (s : State) (d key tile : Nat) (body : MsgBody) (legs : List Leg) (lines : List (Nat × Nat)) : State :=
  match legs with
  | [] => s
  | l :: rest =>
      let m : MemMsg := { num := s.nextReq, body := body, legs := rest }
      (({ s with nextReq := s.nextReq + 1 }).post d l.src key (legTile l 0 (tile % 2 ^ 16) (some m) lines)).flushMsgs d l.src

/-- Queues of a station by which messages wait: those of a requester, and that of the link by which others arrive. -/
def laneKey (idx lane : Nat) : Nat := 256 * idx + lane
def linkKey : Nat := 2 ^ 20

/-- The 512 B lines of `units` blocks, with their poison. -/
def blockLines (units data poison : Nat) : List (Nat × Nat) :=
  (List.range (ceilDiv units 8)).map fun i =>
    (data / 2 ^ (4096 * i) % 2 ^ (512 * min 8 (units - 8 * i)), poison / 2 ^ (8 * i) % 2 ^ min 8 (units - 8 * i))

/-- A part leaves its requester: straight to its own core's controller, or as a message (R29, R30). -/
def State.goPart (s : State) (r : MemReq) (p : Part) : State :=
  if p.home then { s with waiting := s.waiting ++ [p] }
  else
    let s := if p.fromDie = p.die then { s with flight := s.flight ++ [p] } else s
    let (ask, s) := s.freeNat 4096
    let body := if p.write then blockLines p.units (r.data / 2 ^ (512 * p.first)) (r.poison / 2 ^ p.first) else []
    s.send p.fromDie (laneKey p.fromIdx p.lane) r.id (.part p) p.legs ((ask, 0) :: body)

/-- A part that has come to the head of its queue waits at the limit of 8: in a Gouge or Skew core a hazard of kind 3, once for each wait (R230,
Table 7.9). -/
def State.tellWait (s : State) (p : Part) : State :=
  if p.told || !decide (p.fromIdx < 24) || isParting p.fromIdx then s
  else
    { s with held := s.held.map fun x => if x = p then { p with told := true } else x }.hazard p.fromDie p.fromIdx 3 0 0 0
      (s.phaseNow p.fromDie (p.fromIdx / 6))

/-- Parts that wait at their requesters go as the limit of 8 allows; one that may not go holds only its own queue (R230). -/
def State.releaseHeld (s : State) : List Part → List Part → State
  | _, [] => s
  | seen, p :: rest =>
      if seen.any fun x => sameLane x p then State.releaseHeld s seen rest
      else if p.fromDie != p.die || s.mayGo p || (p.home && s.raHit p) then
        match s.findReq p.req with
        | some r => State.releaseHeld ({ s with held := s.held.erase p }.goPart r p) seen rest
        | none => State.releaseHeld { s with held := s.held.erase p } seen rest
      else State.releaseHeld (s.tellWait p) (seen ++ [p]) rest

/-- The pieces of `units` blocks from address `a` on within 4 KiB-aligned spans: the first block of each and its blocks (R239). -/
def spanPieces (a units : Nat) : (fuel first : Nat) → List (Nat × Nat)
  | 0, _ => []
  | fuel + 1, first =>
      if units ≤ first then []
      else (first, min (units - first) ((4096 - (a + 64 * first) % 4096) / 64)) :: spanPieces a units fuel (first + min (units - first) ((4096 - (a + 64 * first) % 4096) / 64))

/-- Blocks of a request sent to the Tailstock of their half under an onward header (R226, R239, Table 9.5). -/
def State.sendSapwood (s : State) (r : MemReq) (first units : Nat) : State :=
  let a := r.addr / 64 * 64 + 64 * first
  let h := match regionOf a with | .sapwood h => h | _ => 1
  let src := requesterStation r.requester
  let back := match (backLegs (sapLegs r.die h src)).getLast? with | some l => l.dir | none => false
  let hdr := b2n r.write + a * 4 + (units - 1) * 2 ^ 50 + src * 2 ^ 56 + b2n back * 2 ^ 61 + b2n r.na * 2 ^ 62 + r.die * 2 ^ 64 +
    r.id % 2 ^ 16 * 2 ^ 80
  let body := if r.write then blockLines units (r.data / 2 ^ (512 * first)) (r.poison / 2 ^ first) else []
  s.send r.die (laneKey r.requester r.lane) r.id (.sapwood r.id first (r.addr % 64) r.bytes) (sapLegs r.die h src) ((hdr, 0) :: body)

/-- A request issued to the memory system: parts for its Heartwood controllers, or messages to its Tailstock; its name, and the state. The address
is in Heartwood or Sapwood (R225, R226, R230, R239). -/
def State.issue (s : State) (r : MemReq) : Nat × State :=
  let id := s.nextReq
  let r := { r with id := id }
  match regionOf r.addr with
  | .sapwood _ =>
      let ps := spanPieces (r.addr / 64 * 64) r.units (r.units + 1) 0
      let s := { s with reqs := s.reqs ++ [{ r with left := ps.length }], nextReq := id + 1 }
      (id, ps.foldl (fun s p => s.sendSapwood r p.1 p.2) s)
  | _ =>
      let ps := partsOf r (if r.addr / 2 ^ 36 = r.die then r.requester else entryIndex r.die (r.addr / 2 ^ 36)) r.units 0
      let s := { s with reqs := s.reqs ++ [{ r with left := ps.length }], nextReq := id + 1, held := s.held ++ ps }
      (id, s.releaseHeld [] s.held)

/-- The reply for served blocks of a request, from die `d` back by the way that it came (R226, R239). -/
def State.sendReply (s : State) (d : Nat) (legs : List Leg) (r : MemReq) (first units : Nat) (failed : Bool)
    (data poison : Nat) : State :=
  let (pad, s) := s.freeNat 4096
  let ls := if r.write || failed then [(pad, 0)] else if r.bytes = 0 then blockLines units data poison else [(data, poison)]
  s.send d (linkKey + 1 + r.id) r.id (.reply r.id first units r.write failed) (backLegs legs) ls

/-- What a Headstock core's load of a poisoned word does (R380, R408, R413): in a user process it is contained; in the kernel, the
management firmware or on a Governor core the Headstock is in doubt. The syndrome is that of a memory block (Table 16.5, log entry 64). -/
def State.hsPoison (s : State) (core : Nat) (user : Bool) (addr : Nat) : State :=
  let die := 24 + core / 32
  let syn := addr / 64 * 64 % 2 ^ 48 + 36 * 2 ^ 48
  let s := { s with out := s.out ++ [Emit.hsFault core] }
  if user && decide (core % 32 < 30) then s.event die 0xFFF 1 4 0 0x7F syn else s.holdInReset die 0xFFF 4 0x7F syn

/-- Requester index of the Control station (Table 9.3). -/
def ctrlWho : Nat := 36

/-- Lane of a Headstock core's access: core and whether a user process runs (R380). Behind the lanes of the cores come those of the loader, of
the receive rings and of the Headstock caches. -/
def hsLane (core : Nat) (user : Bool) : Nat := 2 * core + b2n user
def coreLanes : Nat := 128
def loaderLane : Nat := 128
def ringLane : Nat := 129
def cacheLane : Nat := 130

/-- A Headstock core's access to memory completes (R379, R380). -/
def State.hsComplete (s : State) (lane addr : Nat) (store failed : Bool) (data poison : Nat) : State :=
  let s := { s with out := s.out ++ [Emit.hsDone (lane / 2) addr store failed data poison] }
  if !store && poison != 0 then s.hsPoison (lane / 2) (bitOf lane 0) addr else s

/-! ### Forwarded values (R113, R115) -/

/-- Values of a forward that lie in poisoned 64 B units of its line, joined to its own poison. -/
def Forward.markUnits (f : Forward) (units : Nat) : Forward :=
  { f with bad := f.bad ||| (List.range f.count).foldl (fun m e => m + b2n (bitOf units (e / 16)) * 2 ^ e) 0 }

/-- The 64 B units of a forward's line that hold a poisoned value. -/
def Forward.units (f : Forward) : Nat :=
  (List.range f.count).foldl (fun m e => if bitOf f.bad e then m ||| 2 ^ (e / 16) else m) 0

/-- Values leave the forwarding engine for the stripe engine's die, over the package ring or the chord. -/
def State.sendValues (s : State) (f : Forward) : State :=
  ({ s with forwards := s.forwards.erase f ++ [{ f with stage := .sent }] }).send f.origin (laneKey 32 0) f.tag
    (.values { f with stage := .here }) (dieLegs f.origin f.dst 14 14) [(f.data, f.units)]

/-- Values that have left by the Net side are before their stripe engine. -/
def State.valuesHere (s : State) (f : Forward) (units : Nat) : State :=
  { s with forwards := s.forwards.erase { f with stage := .sent } ++ [f.markUnits units] }

/-! ### Arriving -/

/-- Blocks of a message that line `k` of its tile carries: the first of them, counted from the message's first block, and their
number; a request's data begin in line 1. -/
def lineBlocks (ask : Bool) (units k : Nat) : Nat × Nat :=
  let at_ := if ask then 8 * (k - 1) else 8 * k
  (at_, if ask && k == 0 then 0 else min 8 (units - at_))

/-- What the lines of a delivered transfer add to a request: data and poison of the blocks that they carry. -/
def Xfer.blocks (x : Xfer) (ask : Bool) (units : Nat) : Nat × Nat :=
  let per := if x.near then 4 else 1
  (List.range x.lines).foldl (fun acc j =>
    let b := lineBlocks ask units (per * x.tag.xfer + j)
    (acc.1 + x.data / 2 ^ (4096 * j) % 2 ^ (512 * b.2) * 2 ^ (512 * b.1), acc.2 + x.poison / 2 ^ (8 * j) % 2 ^ b.2 * 2 ^ b.1)) (0, 0)

/-- What a message of which every transfer has been delivered does: a part reaches its controller, a reply completes blocks of its
request, a section's reaches its core (R27, R30, R226, R239). -/
def State.finishMsg (s : State) : MsgBody → State
  | .part p => if s.flight.contains p then { s with flight := s.flight.erase p, waiting := s.waiting ++ [p] } else s
  | .reply id _ _ _ failed => s.updReq id fun r => { r with left := r.left - 1, failed := r.failed || failed }
  | .section_ id _ _ => s.updReq id fun r => { r with left := r.left - 1 }
  | _ => s

/-- A transfer of a message is delivered at its last station; the message does what it is for once all its transfers have been: one
that has lost a transfer never does (R33). -/
def State.deliverMsg (s : State) (m : MemMsg) (x : Xfer) : State :=
  let s :=
    match m.body with
    | .part p =>
        let (_, bad) := x.blocks true p.units
        if p.write ∧ bad ≠ 0 then s.updReq p.req fun r => { r with poison := r.poison ||| bad * 2 ^ p.first } else s
    | .section_ id first units =>
        let bad := (x.blocks false units).2
        if bad = 0 then s else s.updReq id fun r => { r with poison := r.poison ||| bad * 2 ^ first }
    | .reply id first units write failed =>
        if write || failed then s
        else
          let (data, bad) := x.blocks false units
          s.updReq id fun r =>
            if r.bytes = 0 then { r with data := r.data + data * 2 ^ (512 * first), poison := r.poison ||| bad * 2 ^ first }
            else { r with data := data % 2 ^ (8 * r.bytes), poison := bad % 2 }
    | _ => s
  let n := Sparse.get nat0 s.arrivals m.num + 1
  if n = x.tag.xferLast + 1 then State.finishMsg { s with arrivals := Sparse.put nat0 s.arrivals m.num 0 } m.body
  else { s with arrivals := Sparse.put nat0 s.arrivals m.num n }

/-- A message's tile enters the next die by its link: under the far stretch of its way; a tile without a further stretch becomes an
ordinary one there (R28, R226). -/
def State.relay (s : State) (fd : Nat) (xs : List Xfer) (m : MemMsg) (l : Leg) (rest : List Leg) : State :=
  let m' : Option MemMsg := if m.body = .tile ∧ rest = [] then none else some { m with legs := rest }
  let ys := xs.map fun x => { x with tag := { x.tag with src := l.src, retire := l.retire, dir := l.dir }, msg := m', credit := false, near := false }
  (s.post fd l.src linkKey ys).flushMsgs fd l.src

/-! ### Spans -/

/-- Bytes of the next request for `n` bytes at `a`: within one 64 B block where they do not fill it, else whole blocks within a 4 KiB-aligned
span (R178, R228). -/
def pieceLen (a n : Nat) : Nat := if a % 64 ≠ 0 ∨ n < 64 then min n (64 - a % 64) else min (n / 64 * 64) (4096 - a % 4096)

/-- Requests like `r` issued for the bytes from offset `off` on of a span: each one's offset and name. -/
def State.askFrom (s : State) (r : MemReq) (x : Span) : (fuel off : Nat) → List (Nat × Nat) × State
  | 0, _ => ([], s)
  | fuel + 1, off =>
      if x.bytes ≤ off then ([], s)
      else
        let a := x.addr + off
        let n := pieceLen a (x.bytes - off)
        let whole := a % 64 == 0 && n % 64 == 0
        let units := if whole then n / 64 else 1
        let (id, s) := s.issue { r with
          addr := a, units := units, bytes := if whole then 0 else n, data := r.data / 2 ^ (8 * off) % 2 ^ (8 * n)
          poison := r.poison / 2 ^ (a / 64 - x.addr / 64) % 2 ^ units }
        let (l, s) := State.askFrom s r x fuel (off + n)
        ((off, id) :: l, s)

/-- Whether `n` bytes at `a` lie wholly in Heartwood or wholly in Sapwood (Table 9.1). -/
def spanMapped (a n : Nat) : Bool :=
  match regionOf a, regionOf (a + n - 1) with
  | .heartwood _, .heartwood _ => true
  | .sapwood _, .sapwood _ => true
  | _, _ => false

/-- `n` bytes at `a` read or written by requests like `r`, whose data and poison begin with those of the span; no request is issued where
memory does not exist. -/
def State.ask (s : State) (r : MemReq) (a n : Nat) : Span × State :=
  let x : Span := { addr := a, bytes := n }
  if n ≠ 0 ∧ spanMapped a n = true then (let (l, s) := s.askFrom r x (n / 4096 + 4) 0; ({ x with ids := l }, s)) else (x, s)

/-- Whether every request for a span has been served. -/
def State.spanDone (s : State) (x : Span) : Bool :=
  x.ids.all fun p => match s.findReq p.2 with | some r => r.left == 0 | none => true

/-- What has come back for a span: whether all of it was served without failure, its data, and the poison of its 64 B units as a mask. What is
read where memory does not exist, or of a request that failed, is a free value. -/
structure SpanData where
  ok : Bool
  data : Nat
  poison : Nat
  deriving DecidableEq, Repr

/-- What a span's requests have brought, and the state without them. -/
def State.takeSpan (s : State) (x : Span) : SpanData × State :=
  let rs := x.ids.filterMap fun p => (s.findReq p.2).map fun r => (p.1, r)
  let ok := (x.bytes == 0 || x.ids != []) && rs.length == x.ids.length && rs.all fun p => !p.2.failed
  let t := x.ids.foldl (fun s p => s.dropReq p.2) s
  if ok then
    (⟨true, rs.foldl (fun n p => n + p.2.data * 2 ^ (8 * p.1)) 0,
      rs.foldl (fun m p => m ||| p.2.poison * 2 ^ ((x.addr + p.1) / 64 - x.addr / 64)) 0⟩, t)
  else (let (v, t) := t.freeNat (8 * x.bytes); (⟨false, v, 0⟩, t))

end Sys2Proof.Machine
end

