-- ==== Sys2Proof/Machine/Fabric.lean ====
section
/-!
DEFINITION. The Bed ring, the near lanes and the crossings (chapter 1; R168 to R171, R259 to R262).
Paths: 0 with the grain, 1 against it, 2 the near lane from station n − 1 to n, 3 the one from n + 1 to n.
-/
namespace Sys2Proof.Machine

/-! ### Counted arrivals -/

def noTiles (_ : Nat) : List CountedTile := []
/-- The counted-tile entries of a path into a core (R260). -/
def Core.entries (c : Core) (path : Nat) : List CountedTile := Sparse.get noTiles c.counted path
def Core.setEntries (c : Core) (path : Nat) (l : List CountedTile) : Core := { c with counted := Sparse.put noTiles c.counted path l }

/-- Counted-tile entries of a direction or lane (R260). -/
def countedDepth : Nat := 8

/-- R_i of a transfer with a stamp at its crossing: from its tile's entry, or from its own stamp alone (R260). -/
def releaseCycle (e : Option CountedTile) (i c h ps pr : Nat) : Nat :=
  match e with
  | none => inReceiver c ps pr + tau h pr
  | some e =>
      if i = 0 then e.r0
      else max (e.r0 + inReceiver c ps pr - inReceiver e.c0 ps pr) (e.r0 + spacing i pr)

/-- The entry of a tile whose transfers still arrive: declared and not begun, or begun (R260). -/
def awaited (es : List CountedTile) (tile : Nat) : Option CountedTile :=
  es.find? fun e => e.tile == tile && e.started && decide (e.next ≤ e.last)

/-- The entry of the oldest tile with an identifier whose transfers are still to be released (R260). -/
def Core.entryOf (c : Core) (path tile : Nat) : Option CountedTile := (c.entries path).find? fun e => e.tile == tile && e.started

/-- An entry replaced in its place. -/
def Core.putEntry (c : Core) (path : Nat) (e e' : CountedTile) : Core :=
  c.setEntries path ((c.entries path).map fun x => if x = e then e' else x)

/-- R_i of a counted transfer on its way to core `n` or in its landing buffer, by its own stamp and its tile's entry (R260). -/
def State.releaseOf (s : State) (d n path : Nat) (x : Xfer) (st : Stamp) (e : Option CountedTile) : Nat :=
  let pr := s.curPt d (n / 6)
  releaseCycle e x.tag.xfer (unwrapStamp st (s.phaseNow d (n / 6)) pr) (hopsTo path x.tag.src (stationOfCore n)) st.point pr

/-- Counted transfer `x` reaches the crossing of core `n`: transfer 0 takes its entry, declared or new, if one is free;
lateness, the slip holds that it has caused included, is a hazard of kind 1 (R195, R260, R261, R443). -/
def State.countedArrival (s : State) (d n path : Nat) (x : Xfer) (st : Stamp) : State :=
  let c := unwrapStamp st (s.phaseNow d (n / 6)) (s.curPt d (n / 6))
  let now := s.phaseNow d (n / 6) + (s.quarter d (n / 6)).slipRun
  let co := s.core d n
  let es := co.entries path
  if x.tag.xfer = 0 then
    match es.find? fun e => e.tile == x.tag.tile && !e.started with
    | some e =>
        let s := s.setCore d n (co.putEntry path e { e with started := true, c0 := c, next := 1, last := x.tag.xferLast })
        if e.r0 + 2 < now then s.hazard d n 1 x.tag.tile x.tag.bufLine e.r0 now else s
    | none =>
        let r0 := s.releaseOf d n path x st none
        if es.length < countedDepth then
          let e : CountedTile :=
            { tile := x.tag.tile, r0 := r0, c0 := c, declared := false, started := true, next := 1, last := x.tag.xferLast,
              late := decide (r0 < now) }
          let s := s.setCore d n (co.setEntries path (es ++ [e]))
          if r0 < now then s.hazard d n 1 x.tag.tile x.tag.bufLine r0 now else s
        else s.hazard d n 1 x.tag.tile x.tag.bufLine r0 now
  else
    match awaited es x.tag.tile with
    | some e =>
        let r := s.releaseOf d n path x st (some e)
        let s := s.setCore d n (co.putEntry path e { e with next := x.tag.xfer + 1 })
        if r + 2 < now then s.hazard d n 1 x.tag.tile (x.tag.bufLine + x.tag.xfer) r now else s
    | none => s.hazard d n 1 x.tag.tile (x.tag.bufLine + x.tag.xfer) (s.releaseOf d n path x st none) now

/-- A transfer enters the landing buffer of core `n`. -/
def State.land (s : State) (d n path : Nat) (x : Xfer) : State :=
  let st := stationOfCore n
  let y := s.station d st
  let s := s.setStation d st (y.setLanding path (y.landing path ++ [{ x with came := (s.quarter d (n / 6)).periods }]))
  match x.stamp with
  | some t => s.countedArrival d n path x t
  | none => s

/-! ### Hops -/

/-- The checks of a station that copies or retires a transfer (R33): the transfer as it goes on, or none where its hop tag
was uncorrectable. Data once found uncorrectable are found so by every later station; a station whose check finds new ones records the loss as
contained (R302). -/
def State.check (s : State) (d st : Nat) (f : HopFacts) (x : Xfer) : Option Xfer × State :=
  let s := s.bump d (stBlk st) 0x140 f.corrected
  if f.tagBad then (none, (s.errBit d (stBlk st) 1).event d (stBlk st) 2 0 1 1 0)
  else
    let bad := x.bad ||| f.dataBad % 2 ^ (8 * x.lines)
    if bad = 0 then (some x, s)
    else
      let s := s.errBit d (stBlk st) 2
      (some { x with poison := x.poison ||| bad, bad := bad }, if bad = x.bad then s else s.event d (stBlk st) 1 0 0 2 x.tag.bits)

/-- Whether a transfer that reaches station `st` is written into the core there: a copy at a Gouge station of a
copy-and-forward path, or a point-to-point delivery (R22). -/
def writesAt (x : Xfer) (st : Nat) : Bool :=
  match coreOfStation st with
  | none => false
  | some c => if x.tag.mode then isGouge c else x.tag.retire == st

/-- A transfer of a package link refused: the sender resends it (R351). -/
def State.linkRefuse (s : State) (d st : Nat) : State :=
  let y := s.station d st
  let s := (s.setStation d st { y with refusals := y.refusals + 1 }).bump d (stBlk st) 0x198 1
  if y.refusals + 1 = 16 then s.eventQuiesce d (stBlk st) 6 0x7F 0 2 (dieMask d) else s

/-- A transfer arrives at a port station on its way to the link; the station's injection register may refuse it, corrupt it or
hold it back (R351, R353, R357). -/
def State.portArrive (s : State) (d t : Nat) (x : Xfer) : State :=
  let i := stBlk t
  let (hit, s) := s.injectHit d i 0x180 0x184 0x188 0x190 x.tag.dir (BitVec.ofNat 32 x.tag.bits)
  let act := s.fld d i 0x180 1 2
  let y := s.station d t
  if hit && act == 2 && s.fld d i 0x180 10 4 != 0 then
    s.setStation d t { y with heldBack := y.heldBack ++ [(x, s.fld d i 0x180 10 4)] }
  else
    let passed (h : Xfer × Nat) : Xfer × Nat := if h.1.tag.dir = x.tag.dir then (h.1, h.2 - 1) else h
    let held := y.heldBack.map passed
    let free := (held.filter fun h => h.2 == 0).map (·.1)
    let s := s.setStation d t { y with arrived := y.arrived ++ [x] ++ free, heldBack := held.filter fun h => h.2 != 0 }
    if hit && (act == 0 || (act == 1 && s.flag d i 0x180 4)) then s.linkRefuse d t
    else if hit && act == 1 then s.bump d i 0x140 1
    else s

/-- A ring transfer reaches station `t`: it passes, is copied, or retires (R18, R22, R24, R33). What is copied or retires at a core enters
its landing buffer, also a copy-and-forward tile that retires at a core that writes none of it. -/
def State.reach (s : State) (d path t : Nat) (f : HopFacts) (x : Xfer) : State :=
  let copies := writesAt x t
  let retires := x.tag.retire == t
  if !copies && !retires then
    let y := s.station d t
    let p := y.port path
    s.setStation d t (y.setPort path { p with through := p.through ++ [x] })
  else
    match s.check d t f x with
    | (none, s) => s
    | (some x, s) =>
      let s := s.bump d (stBlk t) 0x120 1
      match coreOfStation t with
      | none => s.portArrive d t x
      | some n =>
          let y := s.station d t
          let p := y.port path
          if (y.landing path).length < landDepth path then
            let s := s.land d n path x
            if retires then s
            else
              let y := s.station d t
              s.setStation d t (y.setPort path { p with through := p.through ++ [x] })
          else s.setStation d t (y.setPort path { p with held := some x })

/-- A held transfer enters the landing buffer that has room again (R24). -/
def State.landHeld (s : State) (d path t : Nat) : State :=
  let y := s.station d t
  let p := y.port path
  match p.held, coreOfStation t with
  | some x, some n =>
      if path < 2 ∧ (y.landing path).length < landDepth path then
        let s := s.setStation d t (y.setPort path { p with held := none })
        let s := s.land d n path x
        if x.tag.retire = t then s
        else
          let y := s.station d t
          let p := y.port path
          s.setStation d t (y.setPort path { p with through := p.through ++ [x] })
      else s
  | _, _ => s

/-- A station's wait for injection ends: the longest wait is kept and starve is released (R20). -/
def State.endWait (s : State) (d path st : Nat) : State :=
  let y := s.station d st
  let p := y.port path
  let s := if s.fld d (stBlk st) 0x130 0 8 < p.waited then s.setFld d (stBlk st) 0x130 0 8 p.waited else s
  s.setStation d st (y.setPort path { p with waited := 0, starve := false })

/-- The longest injection wait, in moving slots (R20): while the ring moves, a gap reaches a starved station within it. The count holds
this value where the sender of the hops lets more transfers pass than a moving ring has (log entry 16). -/
def starveBound : Nat := 60

/-- One ring hop from station `st`: a transfer on the ring goes before an injection; in a gap a station injects unless it sees starve,
which one that asserts starve itself does not heed (R18, R20, R24). -/
def ringHop (d path st : Nat) (f : HopFacts) (s : State) : State :=
  let y := s.station d st
  let p := y.port path
  let t := nextStation path st
  if ((s.station d t).port path).held.isSome then s.bump d (stBlk t) 0x138 1
  else
    let cnt := if path = 0 then 0x110 else 0x118
    let waited := if p.inject.isEmpty then 0 else min starveBound (p.waited + 1)
    match p.through, p.inject with
    | x :: rest, _ =>
        let s := s.setStation d st (y.setPort path { p with through := rest, waited := waited })
        (s.bump d (stBlk st) cnt 1).reach d path t f x
    | [], z :: inj' =>
        if p.starve || !s.seesStarve d path 29 st then
          let s := (s.setStation d st (y.setPort path { p with inject := inj' })).endWait d path st
          (s.bump d (stBlk st) cnt 1).reach d path t f z
        else s.setStation d st (y.setPort path { p with waited := waited })
    | [], [] => s

/-- One transfer crosses a near lane from station `st` (R21, R24). -/
def laneHop (d path st : Nat) (f : HopFacts) (s : State) : State :=
  let y := s.station d st
  let t := nextStation path st
  match y.lane path with
  | [] => s
  | x :: rest =>
      match coreOfStation t with
      | none =>
          match s.check d t f x with
          | (none, s) => s.setStation d st (y.setLane path rest)
          | (some x, s) =>
              ((s.setStation d st (y.setLane path rest)).bump d (stBlk t) 0x120 1).portArrive d t x
      | some n =>
          if ((s.station d t).landing path).length < landDepth path then
            match s.check d t f x with
            | (none, s) => s.setStation d st (y.setLane path rest)
            | (some x, s) =>
                let s := (s.setStation d st (y.setLane path rest)).bump d (stBlk t) 0x120 1
                s.land d n path x
          else s

/-- TRANSFER_HOP: tiles that wait at station `st` start as they may (R28, R230), and the transfer next to leave it on a path advances to
the adjacent station (R18 to R24, R33). -/
def execTransferHop (d : Fin 8) (path : Fin 4) (st : Fin 30) (f : HopFacts) (s : State) : Out :=
  if s.powered then
    let s := s.flushMsgs d st
    .next (if path.val < 2 then ringHop d path st f s else laneHop d path st f s)
  else .next s

/-- STARVE_ASSERT: a station whose injection has been refused for 30 slots asserts starve upstream (R20). -/
def execStarveAssert (d : Fin 8) (dir : Fin 2) (st : Fin 30) (s : State) : Out :=
  let y := s.station d st
  let p := y.port dir
  if 30 ≤ p.waited ∧ p.starve = false ∧ p.inject ≠ [] then
    .next ((s.setStation d st (y.setPort dir { p with starve := true })).bump d (stBlk st) 0x128 1)
  else .next s

/-! ### Port stations -/

/-- Whether two transfers at a port station are of one tile. -/
def sameTile (a b : Xfer) : Bool :=
  a.tag.src == b.tag.src && a.tag.dir == b.tag.dir && a.tag.tile == b.tag.tile && a.tag.xferLast == b.tag.xferLast &&
    a.tag.mode == b.tag.mode && a.msg == b.msg

/-- The transfers of the oldest complete tile in index order, and the others. -/
def takeTile (l : List Xfer) : Option (List Xfer × List Xfer) :=
  let whole (x : Xfer) : Option (List Xfer) :=
    (List.range (x.tag.xferLast + 1)).mapM fun i => l.find? fun y => sameTile x y && y.tag.xfer == i
  (l.findSome? whole).map fun xs => (xs, xs.foldl (fun l x => l.erase x) l)

/-- The 512 B lines of a tile with the poison masks of their units. -/
def tileLines (xs : List Xfer) : List (Nat × Nat) :=
  xs.flatMap fun x => (List.range x.lines).map fun j => (x.data / 2 ^ (4096 * j) % 2 ^ 4096, x.poison / 2 ^ (8 * j) % 2 ^ 8)

/-- The transfers that the far station injects: the far hop tag with its own `SRC` and each transfer's index (R28). -/
def farXfers (st : Nat) (lines : List (Nat × Nat)) : List Xfer :=
  let tag := HopTag.ofBits ((lines.headD (0, 0)).1 % 2 ^ 64)
  (List.range lines.length).map fun i =>
    let l := lines.getD i (0, 0)
    { tag := { tag with src := st, xfer := i }, data := l.1, poison := l.2 }

/-- Whether an acknowledgement of transfer `x` is that of a fetched tile: by what its hop tag names (R152). -/
def SentTile.isOf (t : SentTile) (x : Xfer) : Bool :=
  t.tile == x.tag.tile && t.retire == x.tag.retire && t.dir == x.tag.dir && t.line == x.tag.bufLine && t.xferLast == x.tag.xferLast

/-- The retire station of a tile that a Parting core fetched acknowledges its last transfer; of several tiles that a tag names, the oldest's
(R152). -/
def State.ackTile (s : State) (d st : Nat) (x : Xfer) : State :=
  match coreOfStation x.tag.src with
  | some n =>
      if isParting n ∧ x.near = false ∧ x.msg = none ∧ x.tag.retire = st ∧ x.tag.xfer = x.tag.xferLast then
        let k := 4 * d + n / 6
        let p := Sparse.get Parting.initial s.parts k
        match p.sent.find? fun t => t.isOf x with
        | some t => { s with parts := Sparse.put Parting.initial s.parts k { p with sent := p.sent.erase t } }
        | none => s
      else s
  | none => s

/-- A reply has left at the Control station: a Headstock core's access completes with its last part (R379). The loader and the receive rings
take up their own. -/
def State.hsReply (s : State) (id : Nat) : State :=
  match s.findReq id with
  | some r =>
      if r.left = 0 ∧ r.requester = ctrlWho ∧ r.lane < coreLanes then
        (s.dropReq id).hsComplete r.lane r.addr r.write r.failed r.data r.poison
      else s
  | none => s

/-- PORT_TILE_ARRIVE: the oldest complete tile at a port station leaves the die by the station's link (R27, R28). -/
def execPortTileArrive (d : Fin 8) (st : Fin 30) (s : State) : Out :=
  let y := s.station d st
  match takeTile y.arrived with
  | none => .next s
  | some (xs, rest) =>
      if xs.any fun x => !x.credit && !x.creditFree then
        .next (((s.setStation d st { y with arrived := rest }).errBit d (stBlk st) 3).event d (stBlk st) 2 0 1 3 0)
      else
        let s := s.setStation d st { y with arrived := rest, drained := y.drained + (xs.filter fun x => x.credit).length, refusals := 0 }
        let s := xs.foldl (fun s x => s.ackTile d st x) s
        let leave := s.setStation d st { s.station d st with left := (s.station d st).left ++ [(s.tick, xs)] }
        match farSide d st, xs.head?.bind (·.msg) with
        | some (fd, _), some m =>
            (match m.legs with
            | l :: rest => .next (s.relay fd xs m l rest)
            | [] => .next leave)
        | some (fd, fst), none => .next ((s.post fd fst linkKey (farXfers fst (tileLines xs))).flushMsgs fd fst)
        | none, some m =>
            (match m.body with
            | .reply id _ _ _ _ => .next ((xs.foldl (fun s x => s.deliverMsg m x) s).hsReply id)
            | .values f => .next (s.valuesHere f (xs.foldl (fun u x => u ||| x.poison) 0))
            | _ => .next leave)
        | none, none => .next leave

/-- Requests of a Lathe die outstanding at its Tailstock (R240). -/
def State.sapOutstanding (s : State) (d : Nat) : Nat :=
  (s.station d sapStation).left.length + ((Sparse.get Tail.initial s.tails (d / 4)).filling.filter fun r => r.1.via == d && r.1.die != 8).length

/-- Requests that a Lathe die may hold outstanding at its Tailstock (R240). -/
def sapLimit : Nat := 512

/-- Whether a push tile at a Net station waits for room in its engine's parking area (R115). -/
def State.pushTileWaits (s : State) (d : Nat) : Bool :=
  let e := Sparse.get Engine.initial s.engines d
  (s.station d 14).left.any fun t =>
    let h := match t.2 with | x :: _ => x.data | [] => 0
    bitsOf h 504 8 == 0 && !(e.buckets.any fun b => bitsOf b.desc 0 16 == bitsOf h 0 16 && b.step == bitsOf h 16 32) &&
      decide (256 < (e.parked.map parkedSize).sum + t.2.length)

/-- CREDIT_RETURN: credit of transfers that have left the die returns to the port station's pool (R28); the Net station grants none
while its engine's parking area is full or has no room for a tile that waits (R115), and the Sapwood station none while its die holds 512 requests at its Tailstock
(R240). -/
def execCreditReturn (d : Fin 8) (st : Fin 30) (s : State) : Out :=
  let y := s.station d st
  let e := Sparse.get Engine.initial s.engines d
  if y.drained = 0 || (st.val == 14 && (decide (256 ≤ (e.parked.map parkedSize).sum) || s.pushTileWaits d)) ||
      (st.val == sapStation && decide (sapLimit ≤ s.sapOutstanding d)) then .next s
  else .next ((s.setStation d st { y with drained := 0 }).setFld d (stBlk st) 0x108 0 9 (min 256 (s.credit d st + y.drained)))

/-- STARVE_MAX_CLR: writing 1 to `BED.STARVE_MAX_CLR` clears `BED.STARVE_MAX` (R34). -/
def execStarveMaxClr (d : Fin 8) (st : Fin 30) (v : W32) (s : State) : Out :=
  .next (if v.getLsbD 0 && !s.inReset then s.setFld d (stBlk st) 0x130 0 8 0 else s)

/-! ### Crossings -/

/-- The released transfer is written: line `BUF_LINE` + `XFER` of the operand buffer or scratch, and its landing recorded if
it is the tile's last (R22, R25, R26); a message goes where it is meant for, and a copy-and-forward transfer is written by Gouge
cores alone. -/
def State.deliver (s : State) (d n path : Nat) (same : Bool) (x : Xfer) : State :=
  match x.msg with
  | some m => s.deliverMsg m x
  | none =>
    if x.tag.mode && !isGouge n then s
    else
      let per := if x.near then 4 else 1
      let a := (x.tag.bufLine + per * x.tag.xfer) * 512
      let s := s.putBuf d n (path + 1) same a (512 * x.lines) x.data x.poison x.tag.tile
      if x.tag.xfer = x.tag.xferLast then s.landTile d n x.tag.tile else s

/-- A counted transfer has been released: its tile's entry notes transfer 0, and is freed by the last (R260, R443). -/
def State.endEntry (s : State) (d n path : Nat) (x : Xfer) : State :=
  let c := s.core d n
  match x.stamp, c.entryOf path x.tag.tile with
  | some _, some e =>
      if x.tag.xfer = x.tag.xferLast then s.setCore d n (c.setEntries path ((c.entries path).erase e))
      else if x.tag.xfer = 0 then s.setCore d n (c.putEntry path e { e with released := true })
      else s
  | _, _ => s

/-- Whether a landed transfer has passed the synchroniser: 2 receiving cycles after it reached the crossing (R259, R261). -/
def State.ready2 (s : State) (d n : Nat) (x : Xfer) : Bool := decide (x.came + 2 ≤ (s.quarter d (n / 6)).periods)

/-- Whether the crossing releases the first transfer of a landing buffer now (R175, R259, R260, R261): once it is ready, and if it is
counted not before its R_i. -/
def State.releasable (s : State) (d n path : Nat) (x : Xfer) : Bool :=
  match x.stamp with
  | none => s.ready2 d n x
  | some st =>
      if st.freed then true
      else
        let e := (s.core d n).entryOf path x.tag.tile
        if x.tag.xfer = 0 ∧ e = none then false
        else
          s.ready2 d n x &&
            ((x.tag.xfer == 0 && (match e with | some e => e.late | none => false)) ||
              decide (s.releaseOf d n path x st e ≤ s.phaseNow d (n / 6)))

/-- The first transfer of a landing buffer released into the quarter (R25, R259); `same`: in the cycle of the write before it (R26). -/
def State.releaseHead (s : State) (d n path : Nat) (same : Bool) (x : Xfer) (rest : List Xfer) : State :=
  let st := stationOfCore n
  let s := s.setStation d st ((s.station d st).setLanding path rest)
  (((s.deliver d n path same x).endEntry d n path x).ackTile d st x).landHeld d path st

/-- What the read of a landing buffer's SRAM does to a transfer (R312, R313): corrected words are counted at the station, and units with a
double-bit error become poisoned. -/
def State.landErrors (s : State) (d st : Nat) (f : LandFacts) (x : Xfer) : Xfer × State :=
  let s := s.bump d (stBlk st) 0x140 f.corrected
  let bad := f.doubleErr % 2 ^ (8 * x.lines)
  if bad = 0 then (x, s) else ({ x with poison := x.poison ||| bad }, s.event d (stBlk st) 1 4 0 0x7F x.tag.bits)

/-- Whether an uncounted transfer leaves its landing buffer in the present tick: its second cycle there lies in it (R259). -/
def State.leavesNow (s : State) (d n : Nat) (x : Xfer) : Bool :=
  x.stamp.isNone && decide (x.came + 2 ≤ (s.quarter d (n / 6)).periods + cyclesPerTick (s.curPt d (n / 6)))

/-- TRANSFER_RELEASE: a crossing releases its oldest landed transfer into the quarter (R25, R259); `same`: in the cycle of the write
before it (R26). Stream data of a Parting station are taken by PARTING_RECEIVE. -/
def execTransferRelease (d : Fin 8) (path : Fin 4) (st : Fin 30) (same : Bool) (f : LandFacts) (s : State) : Out :=
  match coreOfStation st with
  | none => .next s
  | some n =>
    if !s.powered || !s.qRuns d (n / 6) then .next s
    else
      match (s.station d st).landing path with
      | [] => .next s
      | x :: rest =>
          if (s.leavesNow d n x || s.releasable d n path x) && !(isParting n && x.msg.isNone) then
            let (x, s) := s.landErrors d st f x
            .next (s.releaseHead d n path same x rest)
          else .next s

/-- A transfer 0 that waits at the head of a landing buffer takes the entry that the oldest tile freed; its tile's transfers that landed behind it
have arrived (R260). -/
def State.takeEntry (s : State) (d n path : Nat) : State :=
  match (s.station d (stationOfCore n)).landing path with
  | [] => s
  | x :: rest =>
      let c := s.core d n
      let es := c.entries path
      match x.stamp with
      | none => s
      | some t =>
          if x.tag.xfer = 0 ∧ es.length < countedDepth ∧ c.entryOf path x.tag.tile = none then
            let cyc := unwrapStamp t (s.phaseNow d (n / 6)) (s.curPt d (n / 6))
            let behind := (rest.takeWhile fun y => y.tag.xfer != 0 || y.tag.tile != x.tag.tile).filter fun y => y.tag.tile == x.tag.tile
            let next := behind.foldl (fun m y => max m (y.tag.xfer + 1)) 1
            let e : CountedTile :=
              { tile := x.tag.tile, r0 := s.releaseOf d n path x t none, c0 := cyc, declared := false, started := true, next := next,
                last := x.tag.xferLast }
            s.setCore d n (c.setEntries path (es ++ [e]))
          else s

/-- The phase cycle in which a quarter executed the first of its periods at or after `per` in the tick that has ended (R259, R261). -/
def Quarter.cycleAt (x : Quarter) (per : Nat) : Nat :=
  match x.spells.find? fun w => decide (per < w.1 + w.2.2) with
  | some w => w.2.1 + (max per w.1 - w.1)
  | none => x.cycle - x.phaseBase

/-- The cycle of the tick that has ended in which the first transfer of a landing buffer leaves it (R259): a counted one not before its R_i. -/
def State.leaveCycle (s : State) (d n path : Nat) (x : Xfer) : Nat :=
  let t := (s.quarter d (n / 6)).cycleAt (x.came + 2)
  match x.stamp with
  | some st => max t (s.releaseOf d n path x st ((s.core d n).entryOf path x.tag.tile))
  | none => t

/-- The transfer of core `n` that leaves its landing buffers next, in the order of its cycle and, in one cycle, of R26; none before cycle
`from_`. -/
def State.nextRelease (s : State) (d n from_ : Nat) : Option (Nat × Nat × Xfer × List Xfer) :=
  (List.range 4).foldl (fun o path =>
    match (s.station d (stationOfCore n)).landing path with
    | [] => o
    | x :: rest =>
        if s.releasable d n path x && !(isParting n && x.msg.isNone) then
          let t := max from_ (s.leaveCycle d n path x)
          match o with
          | some p => if t < p.1 then some (t, path, x, rest) else o
          | none => some (t, path, x, rest)
        else o) none

/-- Transfers of core `n` whose cycle has come are released in the order of their cycles (R26, R259). -/
def State.releaseFrom (s : State) (d n from_ : Nat) (same : Bool) : (fuel : Nat) → State
  | 0 => s
  | fuel + 1 =>
      let s := (List.range 4).foldl (fun s path => s.takeEntry d n path) s
      match s.nextRelease d n from_ with
      | none => s
      | some (t, path, x, rest) => (s.releaseHead d n path (same && t == from_) x rest).releaseFrom d n t true fuel

def State.releaseAll (s : State) (d n : Nat) : State :=
  if (List.range 4).all fun path => ((s.station d (stationOfCore n)).landing path).isEmpty then s
  else s.releaseFrom d n 0 false (4 * landDepthMost)

/-! ### Slip holds -/

/-- Transfers on their way that will be written into core `c`, each with its path: on a ring direction, on a near lane, or in a landing
buffer (R22, R195). -/
def State.comingTo (s : State) (d c : Nat) : List (Nat × Xfer) :=
  let st := stationOfCore c
  let ring (path t : Nat) : List (Nat × Xfer) :=
    let p := (s.station d t).port path
    (((p.inject ++ p.through ++ p.held.toList).filter fun x =>
      t != st && (if x.tag.mode then isGouge c && decide (hopsTo path t st ≤ hopsTo path t x.tag.retire) else x.tag.retire == st)).map
        fun x => (path, x)) ++ ((if t = st then p.held.toList else []).map fun x => (path, x))
  let lane (path : Nat) : List (Nat × Xfer) := ((s.station d (prevStation path st)).lane path).map fun x => (path, x)
  let landed (path : Nat) : List (Nat × Xfer) := ((s.station d st).landing path).map fun x => (path, x)
  (([0, 1].flatMap fun path => (List.range 30).flatMap fun t => ring path t) ++ [2, 3].flatMap lane ++ (List.range 4).flatMap landed).filter
    fun p => p.2.msg.isNone

/-- The cycle R_i of a tile's next transfer, which has not arrived: by the stamp it carries where it is in the fabric, else no earlier
than its place in the tile (R260, R261). -/
def State.nextDue (s : State) (d n path : Nat) (e : CountedTile) : Nat :=
  let here := (s.comingTo d n).find? fun p => p.1 == path && p.2.tag.tile == e.tile && p.2.tag.xfer == e.next && p.2.stamp.isSome
  match here.bind fun p => p.2.stamp.map fun st => (p.2, st) with
  | some (x, st) => s.releaseOf d n path x st (some e)
  | none => e.r0 + spacing e.next (s.curPt d (n / 6))

/-- Whether a landed transfer stands behind a transfer 0 that waits for an entry (R260). -/
def State.blocked (s : State) (d n path : Nat) (x : Xfer) : Bool :=
  match (s.station d (stationOfCore n)).landing path with
  | [] => false
  | y :: _ => y != x && y.stamp.isSome && y.tag.xfer == 0 && (s.core d n).entryOf path y.tag.tile == none

/-- Counted transfers that the crossing of core `n` knows to be due and that are not ready, or that wait behind one that has no entry: the cycle
R_i of each, and the period of the quarter in which it becomes ready, none where that is not known (R170, R261, R262). -/
def State.dues (s : State) (d n path : Nat) : List (Nat × Option Nat) :=
  let es := (s.core d n).entries path
  (es.filterMap fun e =>
    if e.started then (if e.next ≤ e.last then some (s.nextDue d n path e, none) else none)
    else if e.declared then some (e.r0, none) else none) ++
  ((s.station d (stationOfCore n)).landing path).filterMap fun x =>
    match x.stamp, (s.core d n).entryOf path x.tag.tile with
    | some st, some e =>
        if st.freed || (x.tag.xfer == 0 && e.late) then none
        else if s.blocked d n path x then some (s.releaseOf d n path x st (some e), none)
        else if s.ready2 d n x then none
        else some (s.releaseOf d n path x st (some e), some (x.came + 2))
    | _, _ => none

/-- The transfers due and not ready at the crossings of a quarter (R261); in hinted mode there is none (R262). -/
def State.duesOf (s : State) (d q : Nat) : List (Nat × Option Nat) :=
  if s.counted d q then (List.range 6).flatMap fun j => (List.range 4).flatMap fun path => s.dues d (6 * q + j) path else []

/-- Slip holds counted, and the longest run of them (R261). -/
def State.countSlips (s : State) (d q n run : Nat) : State :=
  let s := s.bump d (qBlk q) 0x120 n
  if s.fld d (qBlk q) 0x140 0 16 < min run 65535 then s.setFld d (qBlk q) 0x140 0 16 (min run 65535) else s

/-- SLIP_HOLD: a quarter stops for one nominal period because a counted transfer due in its next cycle is not ready (R261). The periods
of a tick that no command accounts for are slip holds as well while that lasts. -/
def execSlipHold (d : Fin 8) (q : Fin 4) (s : State) : Out :=
  let now := s.phaseNow d q
  if s.powered && s.qRuns d q && (s.duesOf d q).any fun r => decide (r.1 ≤ now) then
    let x := s.quarter d q
    .next ((s.setQuarter d q { x with slipRun := x.slipRun + 1, slipDebt := x.slipDebt + 8, periods := x.periods + 1 }).countSlips d q 1
      (x.slipRun + 1))
  else .next s

/-- COUNTED_TILE_WAIT_END: a transfer 0 that waits at the head of a landing buffer takes the entry that the oldest tile
freed (R260). -/
def execCountedTileWaitEnd (d : Fin 8) (path : Fin 4) (st : Fin 30) (s : State) : Out :=
  match coreOfStation st with
  | some n => .next (s.takeEntry d n path)
  | none => .next s

end Sys2Proof.Machine
end

