-- ==== Sys2Proof/Machine/Operands.lean ====
section
/-!
DEFINITION. Operand forms of the engine instructions: tiles, rows, accumulator words, descriptors, tables, vector elements
(R37 to R43, R49, R50, R55, R56, R67, R138, R191, R202, R213, R217).
-/
namespace Sys2Proof.Machine

/-! ### Shapes -/

/-- N of an `NCODE` (R212). -/
def colsOf (ncode : Nat) : Nat := 32 * 2 ^ ncode

/-- Words of an accumulator bank (Table 2.1). -/
def bankWords (core : Nat) : Nat := if isBGouge core then 16384 else 8192

/-- Whether rows of `n` columns from word base `b` leave the bank (R42). -/
def outOfBank (core b m n : Nat) : Bool := decide (bankWords core < b + m * (n / 32))

/-- Arrays of a mask, ascending. -/
def arraysOf (mask : Nat) : List Nat := (List.range 4).filter fun a => bitOf mask a

/-- Physical array of logical array `a` (`GOUGE.AMAP`, R31). -/
def State.physOf (s : State) (d c a : Nat) : Nat := s.fld d c 0x2B0 (3 * a) 3

def tile0 (_ : Nat) : WTile := {}

/-- Whether a streamed and a stationary format may meet (R39). -/
def mayMeet (x w : Nat) : Bool :=
  fmtOperand x && fmtOperand w &&
    (x == w || (x == 3 && w == 4) || (x == 4 && w == 3) || (decide (5 ≤ x) && decide (x ≤ 8) && decide (5 ≤ w) && decide (w ≤ 8)) ||
      (x == 0x0A && w == 0x0B) || (x == 0x0B && w == 0x0A))

/-- Whether rows issue in pairs: a 4-bit stream that meets 4-bit tiles only and is not fused; with a wider tile the row rate is that of the
wider operand, and an epilogue takes one row per cycle (R39, R43, R46). -/
def pairsOf (fmt : Nat) (fused : Bool) (tiles : List WTile) : Bool :=
  fmtBits fmt == 4 && !fused && tiles.all fun t => match t.fmt with | some f => fmtBits f == 4 | none => true

/-- Formats that the transposed path accepts (R52). -/
def mayTranspose (core f : Nat) : Bool := isBGouge core && fmtOperand f && !fmtMX f

/-! ### Weight tiles and rows -/

/-- The scale value of a scale byte times `v`: 2^(X − 127), or NaN for 0xFF (R66). -/
def scaled (x : Nat) (v : FVal) : FVal := if x = 0xFF then .nan else v.scale ((x : Int) - 127)

/-- Element code of row `k`, column `n` of a stored tile (R49). -/
def Core.tileElem (c : Core) (size src pitch w : Nat) (transpose : Bool) (k n : Nat) : Nat :=
  let i := if transpose then n else k
  let j := if transpose then k else n
  let bit := j * w
  c.readBuf size ((src + i * pitch) * 64 + bit / 8) (ceilDiv (bit % 8 + w) 8) / 2 ^ (bit % 8) % 2 ^ w

/-- The first poisoned unit that a stored tile's elements lie in. -/
def Core.tileBad (c : Core) (src pitch w k n : Nat) (transpose : Bool) : Option Nat :=
  let rows := if transpose then n else k
  let bytes := ceilDiv ((if transpose then k else n) * w) 8
  (List.range rows).findSome? fun i => c.badUnit ((src + i * pitch) * 64) bytes

/-- The first poisoned unit that a weight load reads, its scales after its elements (R62). -/
def Core.loadBad (c : Core) (transpose : Bool) (fmt k n src pitch scale : Nat) : Option Nat :=
  match c.tileBad src pitch (fmtBits fmt) k n transpose with
  | some u => some u
  | none => if fmtMX fmt then c.badUnit (scale * 64) (k / 32 * n) else none

/-- The words of 32 columns that the poisoned units of a weight load touch, as a mask (R62). -/
def Core.tilePoison (c : Core) (transpose : Bool) (fmt k n src pitch scale : Nat) : Nat :=
  let w := fmtBits fmt
  let elems (j : Nat) : Bool :=
    if transpose then (List.range 32).any fun i => c.bufBad ((src + (32 * j + i) * pitch) * 64) (ceilDiv (k * w) 8)
    else (List.range k).any fun i => c.bufBad ((src + i * pitch) * 64 + 4 * j * w) (4 * w)
  let scales (j : Nat) : Bool := fmtMX fmt && (List.range (k / 32)).any fun i => c.bufBad (scale * 64 + i * n + 32 * j) 32
  (List.range (n / 32)).foldr (fun j m => b2n (elems j || scales j) + 2 * m) 0

/-- Listed elements of a tile: those that are not zero. -/
def tileElems (k n : Nat) (f : Nat → Nat → Nat) : Sparse Nat :=
  (List.range k).foldl (fun m i => (List.range n).foldl (fun m j => Sparse.put nat0 m (128 * i + j) (f i j)) m) []

/-- The residue of an exact value; 0 for a NaN or an infinity, whose rows are not checked (R303, R305). -/
def residueOf : FVal → Nat
  | .fin neg mag exp => residue neg mag exp
  | _ => 0

/-- Value of element (k, n) of a tile with its block scale (R66, R68). -/
def WTile.value (t : WTile) (k n : Nat) : FVal :=
  match t.fmt with
  | none => .fin false 0 0
  | some f =>
      let v := decodeElem f (Sparse.get nat0 t.elems (128 * k + n))
      if fmtMX f then scaled (Sparse.get nat0 t.scales (128 * (k / 32) + n)) v else v

/-- The check column of a tile (R304). -/
def WTile.withCheck (t : WTile) : WTile :=
  { t with check := (List.range t.k).foldl (fun m k =>
      Sparse.put nat0 m k (((List.range t.n).foldl (fun a n => a + residueOf (t.value k n)) 0) % 15)) [] }

/-- The tile that a weight load reads (R37, R38, R49). -/
def Core.loadTile (c : Core) (size : Nat) (transpose : Bool) (fmt k n src pitch scale : Nat) : WTile :=
  let w := fmtBits fmt
  let elems := tileElems k n (c.tileElem size src pitch w transpose)
  let scales := if fmtMX fmt then tileElems (k / 32) n (fun i j => c.readBuf size (scale * 64 + i * n + j) 1) else []
  WTile.withCheck { fmt := some fmt, k := k, n := n, elems := elems, scales := scales,
                    poison := c.tilePoison transpose fmt k n src pitch scale, src := src, pitch := pitch,
                    scale := scale, transposed := transpose }

/-- The first `k` element codes of streamed row `r` of a stream that is not transposed (R41, R67). -/
def Core.rowElems (c : Core) (size : Nat) (fmt row pitch r k : Nat) : List Nat :=
  let w := fmtBits fmt
  let n := c.readBuf size ((row + r * pitch) * 64) (ceilDiv (k * w) 8)
  (List.range k).map fun i => elemAt w n i

/-- Stored row `i` of block `b` as the fill reads it: the bytes of its 128 elements and their poisoned units (R50, R51). -/
def Core.storedRow (c : Core) (size fmt row pitch b i : Nat) : StoredRow :=
  let n := 16 * fmtBits fmt
  let a := (row + i * pitch) * 64 + b * n
  ⟨c.readBuf size a n, (unitsOf a n).filter fun u => Sparse.get false0 c.bufPoison u⟩

/-- Streamed row `r` of the block that a transpose buffer holds: element r mod 128 of each stored row (R50). -/
def blockRow (fmt r : Nat) (l : List StoredRow) : List Nat := l.map fun x => elemAt (fmtBits fmt) x.data (r % 128)

/-- The first poisoned unit that streamed row `r` takes from a block's first `k` stored rows (R62). -/
def blockBad (fmt row pitch r k : Nat) (l : List StoredRow) : Option Nat :=
  let w := fmtBits fmt
  ((l.take k).zipIdx.findSome? fun p =>
    let a := (row + p.2 * pitch) * 64 + r / 128 * (16 * w) + r % 128 * w / 8
    (unitsOf a (ceilDiv (r % 128 * w % 8 + w) 8)).find? fun u => p.1.bads.contains u)

/-- The four scale bytes of streamed row `r` (R41). -/
def Core.rowScales (c : Core) (size fmt scale r : Nat) : List Nat :=
  if fmtMX fmt then (List.range 4).map fun j => c.readBuf size (scale * 64 + 4 * r + j) 1 else []

/-- The first poisoned unit of streamed row `r` of a stream that is not transposed (R62). -/
def Core.rowBad (c : Core) (fmt row pitch scale r k : Nat) : Option Nat :=
  match c.badUnit ((row + r * pitch) * 64) (ceilDiv (k * fmtBits fmt) 8) with
  | some u => some u
  | none => if fmtMX fmt then c.badUnit (scale * 64 + 4 * r) (ceilDiv k 32) else none

/-- Value of streamed element `k` with its block scale (R66). -/
def rowValue (fmt : Nat) (xs scales : List Nat) (k : Nat) : FVal :=
  let v := decodeElem fmt (xs.getD k 0)
  if fmtMX fmt then scaled (scales.getD (k / 32) 0) v else v

/-! ### Accumulator words -/

/-- Key of lane `n` of the row at word `b` of an array's bank (R42). -/
def accKey (a b n : Nat) : Nat := (a * 16384 + b + n / 32) * 32 + n % 32

/-- The values of `n` columns at word `b` of array `a`'s bank. -/
def Core.accRow (c : Core) (a b n : Nat) : List W32 := (List.range n).map fun j => Sparse.get w320 c.acc (accKey a b j)

/-- Key of the first 64 B unit of word `b` of array `a`'s bank: a word has two, of 16 columns each (R313). -/
def accUnit (a b : Nat) : Nat := (a * 16384 + b) * 2

/-- The units of a row set to a poison of each; a record covers what poison they then have (R62, R313). -/
def Core.markAcc (c : Core) (a b : Nat) (bads : List Bool) : Core :=
  { c with accPoison := Sparse.putRange false0 c.accPoison (accUnit a b) bads
           accNew := Sparse.clearRange c.accNew (accUnit a b) bads.length }

/-- A row written with its class and the poison of each of its 64 B units (R42, R62, R212, R313). -/
def Core.setAccRow (c : Core) (a b : Nat) (vs : List W32) (int : Bool) (bads : List Bool) : Core :=
  { c with acc := Sparse.putRange w320 c.acc (accKey a b 0) vs
           accInt := Sparse.putRange false0 c.accInt (a * 16384 + b) (List.replicate (vs.length / 32) int) }.markAcc a b bads

/-- The poison of the 64 B units of a row of `n` columns at word `b`. -/
def Core.accBads (c : Core) (a b n : Nat) : List Bool := Sparse.getRange false0 c.accPoison (accUnit a b) (n / 16)

/-- Whether the row at word `b` is of a class. -/
def Core.accClassIs (c : Core) (a b n : Nat) (int : Bool) : Bool :=
  (List.range (n / 32)).all fun j => Sparse.get false0 c.accInt (a * 16384 + b + j) == int

/-! ### Epilogue descriptors and activation tables -/

/-- Bits of `DEST_EXT` that a destination uses (Table 2.5, R105). -/
def extUsed (dest : Nat) : Nat :=
  match dest with
  | 1 => 50
  | 2 => 37
  | 3 => 48
  | _ => 0

/-- The descriptor that 512 bits hold; none for an illegal one (R55, R64, R83). -/
def epiDesc (w : Nat) : Option EpiDesc :=
  let dest := bitsOf w 102 2
  let fmt := bitsOf w 104 8
  let ext := bitsOf w 160 64
  let rsvd := bitsOf w 18 14 + bitsOf w 50 14 + bitsOf w 145 15 + bitsOf w 224 288 + ext / 2 ^ extUsed dest
  if rsvd ≠ 0 ∨ fmtOutput fmt = false ∨ (dest = 3 ∧ fmt ≠ 0) then none
  else some {
    cscale := if bitOf w 17 then some (bitsOf w 0 17) else none
    bias := if bitOf w 49 then some (bitsOf w 32 17) else none
    tscale := if bitOf w 96 then some (BitVec.ofNat 32 (bitsOf w 64 32)) else none
    table := if bitOf w 99 then some (bitsOf w 97 2) else none
    sr := bitOf w 100
    sat := bitOf w 101
    dest := dest
    fmt := fmt
    pitch := bitsOf w 112 16
    addr := bitsOf w 128 17
    ext := ext }

/-- FP32 value `i` of a list in the operand buffer. -/
def Core.f32At (c : Core) (size unit i : Nat) : W32 := BitVec.ofNat 32 (c.readBuf size (unit * 64 + 4 * i) 4)

/-- Keys of a table slot: header `LO` and flags, then slope and intercept of each entry (R56). -/
def tableKey (slot i : Nat) : Nat := slot * 1024 + i

/-- 2^e as an exact value. -/
def pow2 (e : Int) : FVal := .fin false 1 e

/-- ⌊(x − lo) / 2^e⌋ of finite values. -/
def segment (x lo : FVal) (e : Int) : Int :=
  match (x.add lo.neg).scale (-e) with
  | .fin neg mag exp =>
      match exp with
      | .ofNat k => if neg then -((mag * 2 ^ k : Nat) : Int) else ((mag * 2 ^ k : Nat) : Int)
      | .negSucc k => if neg then -((ceilDiv mag (2 ^ (k + 1)) : Nat) : Int) else ((mag / 2 ^ (k + 1) : Nat) : Int)
  | _ => 0

/-- An activation table applied (R56): NaN and infinities take the entry and clamp that the comparisons give. The upper clamp lo + 256 × 2^e
is the exact value: R56 rounds it nowhere (DESIGN CHOICE, log entry 83). -/
def Core.applyTable (c : Core) (slot : Nat) (x : W32) : W32 :=
  let get (i : Nat) : W32 := Sparse.get w320 c.tables (tableKey slot i)
  let lo := f32 (get 0)
  let e := toSigned 8 ((get 1).toNat % 256)
  let clamp := (get 1).getLsbD 8
  let hi := lo.add (pow2 (e + 8))
  let pick (i : Nat) (v : FVal) : W32 :=
    toF32 .rne (((f32 (get (2 + 2 * i))).mul v).add (f32 (get (3 + 2 * i))))
  match f32 x with
  | .nan => nan32
  | .inf true => pick 0 (if clamp then lo else .inf true)
  | .inf false => pick 255 (if clamp then hi else .inf false)
  | v =>
      let i := segment v lo e
      if i < 0 then pick 0 (if clamp then lo else v)
      else if 255 < i then pick 255 (if clamp then hi else v)
      else pick i.toNat v

/-! ### Vector elements -/

/-- Key of lane word `i` of a Skew register (R138). -/
def vKey (r i : Nat) : Nat := 2048 * r + i

/-- Lane word `i` of a Skew register. -/
def Core.lane (c : Core) (r i : Nat) : W32 := Sparse.get w320 c.vregs (vKey r i)

/-- Element `i` of `w` bits of a Skew register (R138, R219). -/
def Core.elem (c : Core) (r w i : Nat) : Nat :=
  let bit := i * w
  let lo := (c.lane r (bit / 32)).toNat / 2 ^ (bit % 32)
  let hi := if bit % 32 + w ≤ 32 then 0 else (c.lane r (bit / 32 + 1)).toNat * 2 ^ (32 - bit % 32)
  (lo + hi) % 2 ^ w

/-- Key of 64 B unit `u` of a Skew register (R313). -/
def vUnit (r u : Nat) : Nat := 128 * r + u

/-- The 64 B units that element `i` of `w` bits lies in. -/
def elemUnits (w i : Nat) : List Nat := (List.range ((i * w + w - 1) / 512 + 1 - i * w / 512)).map fun j => i * w / 512 + j

/-- Whether a 64 B unit that element `i` lies in is poisoned. -/
def Core.elemBad (c : Core) (r w i : Nat) : Bool := (elemUnits w i).any fun u => Sparse.get false0 c.vpoison (vUnit r u)

/-- A lane word written; its unit's poison is `markElems`'s. -/
def Core.setLane (c : Core) (r i : Nat) (v : W32) : Core := { c with vregs := Sparse.put w320 c.vregs (vKey r i) v }

/-- Element `i` of `w` bits written within its lane words; other bits keep their values. -/
def Core.setElem (c : Core) (r w i v : Nat) : Core :=
  let bit := i * w
  let j := bit / 32
  let n := (c.lane r j).toNat + (c.lane r (j + 1)).toNat * 2 ^ 32
  let m := withBits n (bit % 32) w v
  let c1 := c.setLane r j (BitVec.ofNat 32 m)
  if bit % 32 + w ≤ 32 then c1 else c1.setLane r (j + 1) (BitVec.ofNat 32 (m / 2 ^ 32))

/-- The poison of a register's units after a write of elements 0 on, each with its poison: a unit written whole is poisoned as its elements
are, and a narrower write leaves a poisoned unit poisoned (R313). -/
def Core.markElems (c : Core) (r w : Nat) (bads : List Bool) : Core :=
  let bits := bads.length * w
  (List.range (ceilDiv bits 512)).foldl (fun c u =>
    let whole := decide (512 * (u + 1) ≤ bits)
    let first := 512 * u / w
    let bad := (List.range (511 / w + 2)).any fun j => (elemUnits w (first + j)).contains u && bads.getD (first + j) false
    { c with vpoison := Sparse.put false0 c.vpoison (vUnit r u) (bad || (!whole && Sparse.get false0 c.vpoison (vUnit r u)))
             vNew := Sparse.put false0 c.vNew (vUnit r u) (!whole && Sparse.get false0 c.vNew (vUnit r u)) }) c

/-- Registers that a Skew instruction reads, and those that it writes (R139). -/
def vReads : EngInstr → List Nat
  | .vfp _ va vb vc func _ => if func = 3 ∨ func = 9 then [va, vb, vc] else if 10 ≤ func then [va] else [va, vb]
  | .vbf _ va vb vc func _ => if func = 3 ∨ func = 9 then [va, vb, vc] else if 10 ≤ func then [va] else [va, vb]
  | .vint _ _ va vb _ _ _ => [va, vb]
  | .vsfu _ _ va _ _ => [va]
  | .vred _ va _ _ => [va]
  | .vperm _ va vb func _ => if func = 0 then [va, vb] else [va]
  | .vcvt _ _ _ va srcFmt _ _ _ => if fmtMX srcFmt then [va, va + 1] else [va]
  | .sst v _ _ => [v]
  | _ => []

def vWrites : EngInstr → List Nat
  | .vfp vd _ _ _ _ _ => [vd]
  | .vbf vd _ _ _ _ _ => [vd]
  | .vint _ vd _ _ _ _ _ => [vd]
  | .vsfu _ vd _ _ _ => [vd]
  | .vred vd _ _ _ => [vd]
  | .vperm vd _ _ _ _ => [vd]
  | .vcvt _ _ vd _ _ dstFmt _ _ => if fmtMX dstFmt then [vd, vd + 1] else [vd]
  | .sld v _ _ => [v]
  | .vimm vd _ _ => [vd]
  | _ => []

/-! ### Illegal operands found at dispatch -/

/-- Last line of the buffer at a core's station. -/
def lastLine (core : Nat) : Nat := if isGouge core then 16383 else 8191

/-- The station that a near-lane SEND or chain-out with a direction flag reaches (Tables 8.2 and 8.4). -/
def neighbour (st : Nat) (down : Bool) : Nat := if down then (st + 29) % 30 else (st + 1) % 30

/-- Lines of 512 B that `m` rows of `n` FP32 values take. -/
def chainLines (m n : Nat) : Nat := ceilDiv (m * n * 4) 512

/-- Whether a chain-out's or chain-in's sizes are illegal operands (R213). -/
def chainBad (core wbase m n : Nat) : Bool := decide (131072 < m * n * 4) || outOfBank core wbase m n

/-- SEND's illegal operands (R210). -/
def sendBad (core : Nat) (near dir : Bool) (mode : Bool) (xferLast retire bufLine : Nat) : Bool :=
  let st := stationOfCore core
  if near then
    match coreOfStation (neighbour st dir) with
    | some c => !isParting c && decide (lastLine c < bufLine + xferLast)
    | none => false
  else
    decide (29 < retire) || retire == st ||
      (match lineLimit mode retire with | some n => decide (n < bufLine + xferLast) | none => false)

/-- The address of a QREQ: `ADDR` plus the address register, modulo 2^48 (R205). -/
def qreqAddr (axs : List Nat) (addr : Nat) (axen : Bool) (ax : Nat) : Nat :=
  if axen then (addr + axs.getD ax 0) % 2 ^ 48 else addr

/-- Illegal operands that dispatch finds (R202), but for a back-fill program's grants. -/
def badOperand (core : Nat) (axs : List Nat) : EngInstr → Bool
  | .qreq _ loc lenM1 addr axen ax =>
      decide (qreqAddr axs addr axen ax % 64 ≠ 0) || decide (bufBytes core / 64 ≤ loc + lenM1)
  | .send _ mode dir near _ xferLast retire bufLine _ => sendBad core near dir mode xferLast retire bufLine
  | .wld transpose _ fmt kM1 _ _ _ _ =>
      !fmtOperand fmt || (transpose && !mayTranspose core fmt) || (fmtMX fmt && decide ((kM1 + 1) % 32 ≠ 0))
  | .rs _ transpose _ _ _ _ _ _ fmt _ _ _ => !fmtOperand fmt || (transpose && !mayTranspose core fmt)
  | .epi _ _ _ wbase m ncode _ _ => outOfBank core wbase m (colsOf ncode)
  | .chout _ _ wbase m ncode dkind bufLine retire _ _ own =>
      let n := colsOf ncode
      let st := stationOfCore core
      let gougeAt (t : Nat) : Bool := match coreOfStation t with | some c => isGouge c | none => false
      chainBad core wbase m n ||
        (match dkind with
          | 0 => decide (131072 < own + ceilDiv (m * n * 4) 64)
          | 1 => !gougeAt (neighbour st true)
          | 2 => !gougeAt (neighbour st false)
          | _ => !gougeAt retire) ||
        (decide (dkind ≠ 0) && decide (16384 < bufLine + chainLines m n))
  | .chin _ _ wbase m ncode _ _ => chainBad core wbase m (colsOf ncode)
  | .vfp _ _ _ _ _ vl => decide (2048 ≤ vl)
  | .vint _ _ _ _ _ _ vl => decide (2048 ≤ vl)
  | .vsfu packed _ _ _ vl => !packed && decide (2048 ≤ vl)
  | .vred _ _ _ vl => decide (2048 ≤ vl)
  | .vperm _ _ _ _ vl => decide (2048 ≤ vl)
  | .vcvt _ _ vd va srcFmt dstFmt vl _ =>
      decide (0x0C < srcFmt) || decide (0x0C < dstFmt) || (fmtMX srcFmt && va == 63) || (fmtMX dstFmt && vd == 63) ||
        ((fmtBits srcFmt == 32 || fmtBits dstFmt == 32) && decide (2048 ≤ vl))
  | .sld _ _ vl => decide (2048 ≤ vl)
  | .sst _ _ vl => decide (2048 ≤ vl)
  | .vimm _ _ vl => decide (2048 ≤ vl)
  | _ => false

/-! ### A back-fill program's grants (R191) -/

/-- Units of the operand buffer or scratch that an instruction names, as (first, count); `ks` is the largest K that a row
stream meets (R50). -/
def bufUses (ks : Nat) : EngInstr → List (Nat × Nat)
  | .qreq _ loc lenM1 _ _ _ => [(loc, lenM1 + 1)]
  | .send _ _ _ _ src xferLast _ _ _ => [(src, 8 * (xferLast + 1))]
  | .wld transpose _ fmt kM1 ncode src pitch scale =>
      let k := kM1 + 1
      let n := colsOf ncode
      let rows := if transpose then n else k
      let bytes := ceilDiv ((if transpose then k else n) * fmtBits fmt) 8
      ((List.range rows).map fun i => (src + i * pitch, ceilDiv bytes 64)) ++
        (if fmtMX fmt then [(scale, ceilDiv (k / 32 * n) 64)] else [])
  | .rs _ transpose ed _ _ m row pitch fmt _ scale _ =>
      let w := fmtBits fmt
      (if transpose then (List.range ks).map fun i => (row + i * pitch, ceilDiv (m * w) 512)
        else (List.range m).map fun r => (row + r * pitch, ceilDiv (ks * w) 512)) ++
        (if fmtMX fmt then [(scale, ceilDiv (4 * m) 64)] else []) ++ (match ed with | some x => [(x, 1)] | none => [])
  | .epi _ _ _ _ _ _ desc _ => [(desc, 1)]
  | .tbld _ src => [(src, 33)]
  | .chout _ _ _ m ncode dkind _ _ _ _ own => if dkind = 0 then [(own, ceilDiv (m * colsOf ncode * 4) 64)] else []
  | .chin _ _ _ m ncode bufLine _ => [(8 * bufLine, 8 * chainLines m (colsOf ncode))]
  | .sld _ unit vl => [(unit, ceilDiv (4 * (vl + 1)) 64)]
  | .sst _ unit vl => [(unit, ceilDiv (4 * (vl + 1)) 64)]
  | .spush unit countM1 _ _ => [(unit, 8 * (countM1 + 1))]
  | _ => []

/-- Accumulator words that an instruction names, as (array, first, count, writes); `n` is the largest N that a row stream
may meet. -/
def accUses (n : Nat) : EngInstr → List (Nat × Nat × Nat × Bool)
  | .rs _ _ ed mask mode m _ _ _ wbase _ _ =>
      if ed.isSome && mode == 3 then [] else (arraysOf mask).map fun a => (a, wbase, m * (n / 32), true)
  | .epi _ _ mask wbase m ncode _ _ => (arraysOf mask).map fun a => (a, wbase, m * (colsOf ncode / 32), false)
  | .chout _ a wbase m ncode _ _ _ _ _ _ => [(a, wbase, m * (colsOf ncode / 32), false)]
  | .chin _ a wbase m ncode _ _ => [(a, wbase, m * (colsOf ncode / 32), true)]
  | _ => []

/-- The first place at or after `first` that no grant of a resource among those left covers; each grant is passed once. -/
def grantEnd (res : Nat) : (fuel : Nat) → List Grant → (first : Nat) → Nat
  | 0, _, first => first
  | fuel + 1, gs, first =>
      match gs.find? fun g => g.res == res && decide (g.first ≤ first) && decide (first < g.first + g.count) with
      | some g => grantEnd res fuel gs (g.first + g.count)
      | none => first

/-- Whether a range lies in the grants of a resource, one or several that adjoin: 0 the buffer, 1 the accumulator words of every bank
(R191). -/
def granted (gs : List Grant) (res first count : Nat) : Bool := decide (first + count ≤ grantEnd res (gs.length + 1) gs first)

/-- Whether a back-fill instruction names something outside its grant: queues other than LQ6, LQ7 and SQ3, units, words, and
the weight buffers in a window without `W` (R191). `words` are the accumulator words that it names. What a grant cannot name, an
activation-table slot and a Skew register, a back-fill program may use (DESIGN CHOICE, log entry 78). -/
def outsideGrant (gs : List Grant) (w : Bool) (ks : Nat) (words : List (Nat × Nat × Nat × Bool)) (i : EngInstr) : Bool :=
  (match i with
    | .qreq q _ _ _ _ _ => !(q == 6 || q == 7 || q == 11)
    | .qwait q _ => !(q == 6 || q == 7 || q == 11)
    | .wld .. => !w
    | .wswap _ => !w
    | .rs .. => !w
    | _ => false) ||
  (bufUses ks i).any (fun u => !granted gs 0 u.1 u.2) || words.any (fun u => !granted gs 1 u.2.1 u.2.2.1)

/-- Units of the operand buffer that an epilogue over `m` rows of the masked arrays names by its descriptor: scales, biases and its own
output; `cols` are the arrays with their columns (R53, R55, R67, R82, R216). -/
def epiUses (e : EpiDesc) (m : Nat) (cols : List (Nat × Nat)) : List (Nat × Nat) :=
  let side (u : Option Nat) : List (Nat × Nat) := match u with
    | some u => cols.map fun p => (u + p.1 * p.2 / 16, p.2 / 16)
    | none => []
  let n := cols.foldl (fun n p => n + p.2) 0
  let row := ceilDiv (n * fmtBits e.fmt) 512
  let out := if e.dest = 0 then
      ((List.range m).map fun r => (e.addr + r * e.pitch, if r + 1 < m then max row e.pitch else row)) ++
        (if fmtMX e.fmt then [(e.addr + m * e.pitch, ceilDiv (m * (n / 32)) 64)] else [])
    else []
  side e.cscale ++ side e.bias ++ out

/-- Whether a back-fill epilogue's descriptor names something outside the grant: units, or a store queue other than SQ3 (R191). -/
def epiOutside (gs : List Grant) (e : EpiDesc) (m : Nat) (cols : List (Nat × Nat)) : Bool :=
  (epiUses e m cols).any (fun u => !granted gs 0 u.1 u.2) || (e.dest == 1 && bitsOf e.ext 0 2 != 3)

end Sys2Proof.Machine
end

