-- ==== Sys2Proof/Machine/Flags.lean ====
section
/-!
DEFINITION. Status fields of the Gouge and Skew pages: program state, illegal instructions, poison, fenced arrays
(R31, R60, R62, R203, R223, R306, R311, R312, R313).
-/
namespace Sys2Proof.Machine

/-- `PROG.PC` and `PROG.STATE` (Table 8.9). -/
def State.progPc (s : State) (d c : Nat) : Nat := s.fld d c 0x2A0 0 14
def State.progState (s : State) (d c : Nat) : Nat := s.fld d c 0x2A0 14 2
def State.setProgPc (s : State) (d c pc : Nat) : State := s.setFld d c 0x2A0 0 14 pc
def State.setProgState (s : State) (d c x : Nat) : State := s.setFld d c 0x2A0 14 2 x

/-- The main (`false`) or back-fill (`true`) program of a core. -/
def Core.progOf (c : Core) (bf : Bool) : Prog :=
  if bf then (match c.backfill with | some b => b.prog | none => {}) else c.prog

def Core.setProgOf (c : Core) (bf : Bool) (p : Prog) : Core :=
  if bf then { c with backfill := c.backfill.map fun b => { b with prog := p } } else { c with prog := p }

/-- A core changed. -/
def State.onCore (s : State) (d c : Nat) (f : Core → Core) : State := s.setCore d c (f (s.core d c))

/-- The back-fill program stops and counts as ended (R190, R203). -/
def Core.endBackfill (c : Core) : Core := { c with backfill := c.backfill.map fun b => { b with ended := true } }

/-- A program stops: a back-fill program ends, a main program's state becomes fault (R203). -/
def State.stopDispatch (s : State) (d c : Nat) (bf : Bool) : State :=
  if bf then s.onCore d c Core.endBackfill else s.setProgState d c 3

/-- An illegal instruction is recorded and its program stops (R203, R223): `kind` 0 illegal encoding, 1 illegal operand at
dispatch, 2 illegal operand found by a unit. -/
def State.illegal (s : State) (d c : Nat) (bf : Bool) (word first kind : Nat) : State :=
  let s := if s.flag d c 0x018 0 then s
    else ((s.setRg d c 0x290 (BitVec.ofNat 32 (word + kind * 2 ^ 14 + b2n bf * 2 ^ 16))).setRg d c 0x294
      (BitVec.ofNat 32 first)).setRg d c 0x298 (BitVec.ofNat 32 (first / 2 ^ 32))
  let s := (s.errBit d c 0).event d c 2 0 1 0 (word + b2n bf * 2 ^ 14 + first * 2 ^ 16)
  s.stopDispatch d c bf

/-- `BLK_ERR.POISON_READ` of a Gouge or a Skew page (Tables 6.11 and 12.2). -/
def poisonBit (c : Nat) : Nat := if isGouge c then 5 else 1

/-- A poisoned value carried on: its readers set `POISON_READ` and make no new record for poison that a record covers (R62). -/
def State.poisonRead (s : State) (d c : Nat) (b : Bool) : State := if b then s.errBit d c (poisonBit c) else s

/-- Poison enters arithmetic at a unit of the core's buffer: one uncontained record (R62, R145, R313). -/
def State.poisonUsed (s : State) (d c unit : Nat) : State :=
  (s.errBit d c (poisonBit c)).event d c 2 4 1 (poisonBit c) (unit * 64 + c * 2 ^ 48)

/-- A double-bit error found in a core's SRAM: the creation of poison is contained (R313). `addr` stands for the place. -/
def State.sramPoison (s : State) (d c addr : Nat) : State :=
  let s := if isGouge c then s.errBit d c 4 else s
  s.event d c 1 4 0 (if isGouge c then 4 else 0x7F) (addr % 2 ^ 48 + c * 2 ^ 48)

/-- Words of a core's SRAM that an access corrects (R312). -/
def State.sramCorrected (s : State) (d c n : Nat) : State := s.bump d c (if isGouge c then 0x2C0 else 0x148) n

/-- Units of the buffer in which a read finds double-bit errors become poisoned, and corrected words are counted (R312, R313). -/
def State.bufErrors (s : State) (d c : Nat) (f : EngFacts) : State :=
  let s := s.sramCorrected d c f.corrected
  f.doubleErr.foldl (fun s u =>
    if u < bufBytes c / 64 then
      (s.onCore d c fun x => { x with bufPoison := Sparse.put false0 x.bufPoison u true }).sramPoison d c (u * 64)
    else s) s

/-- Arithmetic takes a poisoned value from place `addr` of a core's SRAM that no uncontained record covers: one is made, where the poison
first enters (R313, R322). -/
def State.poisonEnters (s : State) (d c addr : Nat) : State :=
  (s.errBit d c (poisonBit c)).event d c 2 4 1 (poisonBit c) (addr % 2 ^ 48 + c * 2 ^ 48)

/-- Arithmetic reads `n` columns at word `b` of array `a`'s bank: poison sets `POISON_READ`, and what no record covers is recorded once for
each unit (R62, R313). -/
def State.useAcc (s : State) (d c a b n : Nat) : State :=
  let x := s.core d c
  let s := s.poisonRead d c ((x.accBads a b n).any id)
  let new := (List.range (n / 16)).filter fun j => Sparse.get false0 x.accNew (accUnit a b + j)
  new.foldl (fun s j =>
    (s.onCore d c fun x => { x with accNew := Sparse.put false0 x.accNew (accUnit a b + j) false }).poisonEnters d c (64 * (accUnit a b + j))) s

/-- Arithmetic reads the first `n` elements of `w` bits of a Skew register: the same of its units (R62, R145, R313). -/
def State.useVec (s : State) (d c r w n : Nat) : State :=
  let x := s.core d c
  let units := List.range (ceilDiv (n * w) 512)
  let s := s.poisonRead d c (units.any fun u => Sparse.get false0 x.vpoison (vUnit r u))
  (units.filter fun u => Sparse.get false0 x.vNew (vUnit r u)).foldl (fun s u =>
    (s.onCore d c fun x => { x with vNew := Sparse.put false0 x.vNew (vUnit r u) false }).poisonEnters d c (64 * vUnit r u)) s

/-- Units of accumulators and of Skew registers in which a read finds double-bit errors become poisoned; no uncontained record covers that
poison yet (R313). -/
def State.regErrors (s : State) (d c : Nat) (f : EngFacts) : State :=
  let s := if isGouge c then
      f.accErr.foldl (fun s p =>
        if p.1 < 4 ∧ p.2 < 2 * bankWords c then
          let k := accUnit p.1 0 + p.2
          (s.onCore d c fun x => { x with accPoison := Sparse.put false0 x.accPoison k true
                                          accNew := Sparse.put false0 x.accNew k true }).sramPoison d c (64 * k)
        else s) s
    else s
  if isSkew c then
    f.vecErr.foldl (fun s p =>
      if p.1 < 64 ∧ p.2 < 128 then
        let k := vUnit p.1 p.2
        (s.onCore d c fun x => { x with vpoison := Sparse.put false0 x.vpoison k true
                                        vNew := Sparse.put false0 x.vNew k true }).sramPoison d c (64 * k)
      else s) s
  else s

/-- What an instruction meets in its core's SRAM (R312, R313): where it computes with what it reads, `poisonUsed`, `useAcc` and `useVec` say
that the poison enters; where it moves it, none does. -/
def State.sramErrors (s : State) (d c : Nat) (f : EngFacts) : State := (s.bufErrors d c f).regErrors d c f

/-- Tables of the special-function unit, or an activation table, in whose reads double-bit errors are found: the poison is created, and
what is computed with it consumes it at once (R310, R313). -/
def State.tableErrors (s : State) (d c : Nat) (f : EngFacts) (n : Nat) : State :=
  (f.tableErr.filter fun i => decide (i < n)).foldl (fun s i => (s.sramPoison d c i).poisonEnters d c i) s

/-- The physical array of logical array `a` mismatched twice and is fenced: the spare takes its number, or none remains
(R60, R306); and whether the spare took over. -/
def State.fence (s : State) (d c a tile : Nat) : Bool × State :=
  let p := s.physOf d c a
  let s := s.setRg d c 0x2B4 (BitVec.ofNat 32 (p + tile * 2 ^ 3))
  let s := s.setFlag d c 0x2B0 (12 + p) true
  let syn := p + tile * 2 ^ 3
  if s.flag d c 0x2B0 17 then
    let used := (List.range 4).map fun x => s.physOf d c x
    let spare := ((List.range 5).find? fun x => !used.contains x).getD 4
    let s := (s.setFlag d c 0x2B0 17 false).setFld d c 0x2B0 (3 * a) 3 spare
    let s := s.onCore d c fun x => { x with
      active := Sparse.put tile0 x.active spare (Sparse.get tile0 x.active p)
      shadow := Sparse.put tile0 x.shadow spare (Sparse.get tile0 x.shadow p) }
    (true, (s.errBit d c 1).event d c 1 5 0 1 syn)
  else (false, (s.errBit d c 2).eventQuiesce d c 5 2 syn 2 (dieMask d))

/-- The epilogue's or a slice's second mismatch stops the core (R309, R311). -/
def State.checkFailed (s : State) (d c cause syn : Nat) : State :=
  (s.setProgState d c 3).eventQuiesce d c 5 cause syn 2 (dieMask d)

end Sys2Proof.Machine
end

