-- ==== Sys2Proof/Machine/Board.lean ====
section
/-!
DEFINITION. Completion boards and the whittle path (R154 to R163).
-/
namespace Sys2Proof.Machine

/-- The Parting core of quarter `q` (Table 1.1). -/
def ptCore (q : Nat) : Nat := 6 * q + 5

def State.part (s : State) (d q : Nat) : Parting := Sparse.get Parting.initial s.parts (4 * d + q)
def State.setPart (s : State) (d q : Nat) (x : Parting) : State :=
  { s with parts := Sparse.put Parting.initial s.parts (4 * d + q) x }
def State.onPart (s : State) (d q : Nat) (f : Parting → Parting) : State := s.setPart d q (f (s.part d q))

def hart0 (_ : Nat) : Hart := {}
def w640 (_ : Nat) : W64 := 0

def State.hart (s : State) (d q h : Nat) : Hart := Sparse.get hart0 (s.part d q).harts h
def State.setHart (s : State) (d q h : Nat) (x : Hart) : State :=
  s.onPart d q fun p => { p with harts := Sparse.put hart0 p.harts h x }

/-- A hart's registers: x0 reads zero and discards writes (R148). -/
def Hart.reg (x : Hart) (r : Nat) : W64 := if r = 0 then 0 else Sparse.get w640 x.regs r
def Hart.setReg (x : Hart) (r : Nat) (v : W64) : Hart := if r = 0 then x else { x with regs := Sparse.put w640 x.regs r v }

/-- `PART.HART_STATE` of a hart: 0 stopped, 1 running, 2 done, 3 fault (Table 6.12). -/
def State.hartState (s : State) (d q h : Nat) : Nat := s.fld d (ptCore q) 0x108 (2 * h) 2
def State.setHartState (s : State) (d q h v : Nat) : State := s.setFld d (ptCore q) 0x108 (2 * h) 2 v

/-- A wait of a hart ends with a value for its destination. -/
def State.endWaitOf (s : State) (d q h rd : Nat) (v : W64) : State :=
  s.setHart d q h { (s.hart d q h).setReg rd v with wait := none }

/-! ### The board -/

/-- The counter of slot `n` (R154, Table 6.12). -/
def State.slot (s : State) (d q n : Nat) : Nat := (s.rg d (ptCore q) (0x800 + 4 * n)).toNat
def State.setSlot (s : State) (d q n v : Nat) : State := s.setRg d (ptCore q) (0x800 + 4 * n) (BitVec.ofNat 32 v)

/-- Slot, quarter and reserved bits of a slot address (Table 6.7). -/
def slotOf (addr : Nat) : Nat := addr % 512
def slotQuarter (addr : Nat) : Nat := addr / 512 % 4
def slotReserved (addr : Nat) : Nat := addr / 2048 % 32

/-- The 16 B of a log record (R158). -/
def ArrRec.bits (r : ArrRec) : Nat := r.slot + r.idx * 2 ^ 10 + r.die * 2 ^ 16 + r.count * 2 ^ 32 + (r.tick % 2 ^ 64) * 2 ^ 64

/-- The record of an index, newest first; zeros beyond the records held (R158). -/
def Parting.logRecord (p : Parting) (i : Nat) : Nat := match p.log[i]? with | some r => r.bits | none => 0

/-- `PART.CB_LOG_DATA0–3` show the selected record (R158). -/
def State.logWindow (s : State) (d q : Nat) : State :=
  let n := (s.part d q).logRecord (s.fld d (ptCore q) 0x180 0 8)
  (List.range 4).foldl (fun s j => s.setRg d (ptCore q) (0x184 + 4 * j) (BitVec.ofNat 32 (n / 2 ^ (32 * j)))) s

/-- Order of arrivals within a tick: die, then block index of the source (R158). -/
def ArrRec.place (r : ArrRec) : Nat := r.die * 4096 + (if r.idx < 24 then r.idx else if r.idx < 32 then 0x70 else 0xFFF)

/-- A record put into the log, newest first (R158). -/
def logInsert (r : ArrRec) : List ArrRec → List ArrRec
  | [] => [r]
  | a :: l => if a.tick = r.tick ∧ r.place < a.place then a :: logInsert r l else r :: a :: l

/-- Records of the arrival log (R158). -/
def arrivalLogDepth : Nat := 256

/-- The arrival log takes an arrival at slot `n` if it is enabled for the slot (R158). -/
def State.logArrival (s : State) (d q n : Nat) (a : Arrival) : State :=
  let c := ptCore q
  if s.flag d c 0x150 0 && decide (s.fld d c 0x150 1 9 ≤ n) && decide (n ≤ s.fld d c 0x150 10 9) then
    let l := logInsert ⟨n, a.idx, a.die, a.count, s.tick⟩ (s.part d q).log
    ((s.onPart d q fun p => { p with log := l.take arrivalLogDepth }).bump d c 0x178 (l.length - arrivalLogDepth)).logWindow d q
  else s

/-- A slot address with a reserved bit set at a board (R154). -/
def State.slotRange (s : State) (d q : Nat) : State := (s.errBit d (ptCore q) 2).event d (ptCore q) 2 0 1 2 0

/-- The read of a slot's counter finds a double-bit error: its unit is poisoned, which the addition consumes (R312, R313). -/
def State.slotLost (s : State) (d q n : Nat) : State :=
  let syn := 0x800 + 4 * n + ptCore q * 2 ^ 48
  let s := s.onPart d q fun p => { p with slotPoison := Sparse.put false0 p.slotPoison (n / 16) true }
  (s.event d (ptCore q) 1 4 0 0x7F syn).event d (ptCore q) 2 4 1 0x7F syn

/-- An arrival at a board (R154, R155, R157, R158); a counter in a poisoned unit holds a free value (R313). -/
def State.boardAdd (s : State) (d q : Nat) (a : Arrival) : State :=
  if slotReserved a.addr ≠ 0 then s.slotRange d q
  else
    let n := slotOf a.addr
    let (lost, t) := s.freeNat 32
    let poisoned := Sparse.get false0 (s.part d q).slotPoison (n / 16)
    let v := if poisoned then lost else s.slot d q n + a.count
    let s := if poisoned then t else s
    let s := if 2 ^ 32 ≤ v then (s.setSlot d q n (2 ^ 32 - 1)).setFlag d (ptCore q) 0x154 0 true else s.setSlot d q n v
    (s.onPart d q fun p => { p with masks := Sparse.put nat0 p.masks n (Sparse.get nat0 p.masks n ||| 2 ^ a.idx) }).logArrival
      d q n a

/-- A signal to a slot from source `idx` of die `d`, handed to the board of its own quarter `q` or sent by the whittle path, with its stamp if
it is counted (R155, R172). -/
def State.signal (s : State) (d q idx die addr count : Nat) (counted : Bool := false) : State :=
  if die = d ∧ slotQuarter addr = q then
    s.onPart d q fun p => { p with arrivals := p.arrivals ++ [⟨addr, count, idx, d⟩] }
  else
    let m : WMsg := { dst := 4 * die + slotQuarter addr, src := 4 * d + q, len := 0, type := 2, arg := addr, count := count,
                      payload := [], idx := idx, die := d, stamp := if counted then some (s.stampNow d q) else none }
    { s.bump d (ptCore q) 0x160 1 with whittle := s.whittle ++ [m] }

/-- The phase tick that `TICK` names around tick `t` (R208); of two that lie equally far, the earlier (DESIGN CHOICE, log entry 90). -/
def phaseTickOf (t k : Nat) : Nat :=
  let diff := (k + 2 ^ 27 - t % 2 ^ 27) % 2 ^ 27
  if diff < 2 ^ 26 ∨ t + diff < 2 ^ 27 then t + diff else t + diff - 2 ^ 27

/-- What a program's token wait becomes once its take is made (R208). -/
def afterTake (now : Nat) (tick : Option Nat) : Option Hold := tick.map fun k => .phase (phaseTickOf now k)

/-- Whether the back-fill program of a core acts now: a window is open and not yet suspended (R190, R192). -/
def Core.bfActive (x : Core) : Bool := x.window.isSome && !x.suspended

/-- The quarter waits for a phase start at tick `t` from now on (R168). -/
def State.awaitPhase (s : State) (d q t : Nat) : State :=
  let x := s.quarter d q
  if x.phaseTick = some t then s else s.setQuarter d q { x with phaseTick := some t, phaseFirst := none }

/-- A program's hold replaced by what follows a take; a phase wait, or the take that comes before one, is made known to its quarter. -/
def State.holdAfter (s : State) (d c : Nat) (bf : Bool) (h : Option Hold) : State :=
  let s := s.onCore d c fun x => x.setProgOf bf { x.progOf bf with hold := h, since := s.tick }
  match h with
  | some (.phase t) => s.awaitPhase d (c / 6) t
  | some (.token _ _ (some k)) => s.awaitPhase d (c / 6) (phaseTickOf s.tick k)
  | _ => s

/-- A core's waits on slot `n` served in turn (R156). -/
def State.serveCore (s : State) (d c n : Nat) (bf : Bool) : State :=
  let x := s.core d c
  match (x.progOf bf).hold with
  | some (.token slot count tick) =>
      let v := s.slot d (c / 6) n
      if slot = n ∧ count ≤ v ∧ (!bf || x.bfActive) = true then
        (s.setSlot d (c / 6) n (v - count)).holdAfter d c bf (afterTake s.tick tick)
      else s
  | _ => s

/-- A hart's wait on slot `n` served (R156). -/
def State.serveHart (s : State) (d q n h : Nat) : State :=
  match (s.hart d q h).wait with
  | some (.token slot count rd) =>
      let v := s.slot d q n
      if slot = n ∧ count ≤ v ∧ s.hartState d q h = 1 then (s.setSlot d q n (v - count)).endWaitOf d q h rd 0 else s
  | _ => s

/-- The waits on slot `n` of a board that come before hart `h`: in ascending core number, then H0 on (R156). -/
def State.serveBefore (s : State) (d q n h : Nat) : State :=
  let s := (List.range 5).foldl (fun s j => (s.serveCore d (6 * q + j) n false).serveCore d (6 * q + j) n true) s
  (List.range h).foldl (fun s h => s.serveHart d q n h) s

/-- The waits on slot `n` of a board, in ascending core number and then H0 to H3 (R156). -/
def State.serveSlot (s : State) (d q n : Nat) : State := s.serveBefore d q n 4

/-- BOARD_ARRIVAL: the oldest signal on its way to a board adds its count and sets its source bit (R154 to R158); `err` is whether the counter
has a double-bit error (R313). -/
def execBoardArrival (d : Fin 8) (q : Fin 4) (err : Bool) (s : State) : Out :=
  match (s.part d q).arrivals with
  | [] => .next s
  | a :: rest =>
      if s.powered && s.qRuns d q then
        let s := s.onPart d q fun p => { p with arrivals := rest }
        .next ((if err && slotReserved a.addr == 0 then s.slotLost d q (slotOf a.addr) else s).boardAdd d q a)
      else .next s

/-- WAIT_SATISFIED: the waits on a slot whose counter has reached their count take it (R156). -/
def execWaitSatisfied (d : Fin 8) (q : Fin 4) (slot : Fin 512) (s : State) : Out :=
  .next (if s.powered && s.qRuns d q then s.serveSlot d q slot else s)

/-! ### Messages -/

/-- Endpoints of Table 6.9. -/
inductive Endpoint where
  | parting (d q : Nat)
  | engine (d : Nat)
  | headstock (c : Nat)
  | reserved
  deriving DecidableEq, Repr

/-- The endpoint at an address (Table 6.9). -/
def endpointOf (a : Nat) : Endpoint :=
  if a < 0x20 then .parting (a / 4) (a % 4)
  else if a < 0x28 then .engine (a - 0x20)
  else if 0x40 ≤ a ∧ a < 0x80 then .headstock a
  else .reserved

/-- Die and page block of an endpoint, for records. -/
def endpointBlock (a : Nat) : Nat × Nat :=
  match endpointOf a with
  | .parting d q => (d, ptCore q)
  | .engine d => (d, 0x70)
  | .headstock c => (24 + (c - 0x40) / 32, 0xFFF)
  | .reserved => (24, 0xFFF)

/-- A REFUSE message returns to the sender (R161). -/
def State.refuseMsg (s : State) (m : WMsg) (reason : Nat) : State :=
  { s with whittle := s.whittle ++ [{ dst := m.src, src := m.dst, len := 0, type := 0x80, arg := reason, count := 0, payload := [],
                                      idx := 0, die := 0, hart := m.hart }] }

/-- The message is accepted: its sender's WSEND returns 0, and a Parting endpoint counts it (R161, Table 6.12). The reply to a quarter that is held
waits at its crossing (R258). -/
def State.acceptMsg (s : State) (m : WMsg) : State :=
  let s := match endpointOf m.dst with
    | .parting d q => s.bump d (ptCore q) 0x168 1
    | _ => s
  match endpointOf m.src, m.hart with
  | .parting d q, some h =>
      match (s.hart d q h).wait with
      | some (.send rd _) => if s.qRuns d q then s.endWaitOf d q h rd 0 else s.setHart d q h { s.hart d q h with wait := some (.accepted rd) }
      | _ => s
  | _, _ => s

/-- Replies to harts of a quarter that waited at its crossing arrive once it runs (R258). -/
def State.takeAccepts (s : State) (d q : Nat) : State :=
  if !s.qRuns d q then s
  else
    (List.range 4).foldl (fun s h => match (s.hart d q h).wait with | some (.accepted rd) => s.endWaitOf d q h rd 0 | _ => s) s

/-- The header is uncorrectable: the message is dropped where it is found (R163). -/
def State.whittleUe (s : State) (m : WMsg) : State :=
  let (z, i) := endpointBlock m.dst
  match endpointOf m.dst with
  | .parting _ _ => (s.errBit z i 3).event z i 2 0 1 3 0
  | _ => s.event z i 2 0 1 0x7F 0

/-- Source index and die of an endpoint's slot signals (Table 6.8). -/
def sourceOf (a : Nat) : Nat × Nat :=
  match endpointOf a with
  | .parting d q => (ptCore q, d)
  | .engine d => (24 + d, d)
  | .headstock c => (32 + (c - 0x40) / 32, 24 + (c - 0x40) / 32)
  | .reserved => (0, 0)

/-- A message that a Headstock core sends goes behind those that it has sent before (R162); a token signal may be counted (R172). -/
def State.hsSend (s : State) (src dst type : Nat) (f : WhittleFacts) : State :=
  match f.hs, endpointOf src with
  | some h, .headstock _ =>
      let (idx, die) := sourceOf src
      let m : WMsg := { dst := dst, src := src, len := h.payload.length, type := type, arg := h.arg.toNat, count := h.count.toNat,
                        payload := h.payload, idx := idx, die := die,
                        stamp := if type = 2 then h.counted.map fun p => (⟨p.1 % 8, p.2 % 2 ^ 20, false⟩ : Stamp) else none }
      { s with whittle := s.whittle ++ [m] }
  | _, _ => s

/-- The message of a type that arrives from `src` at `dst`, the oldest on its way between the two (R162), and the state without it. -/
def State.arriving (s : State) (src dst type bad : Nat) : Option (WMsg × State) :=
  match s.whittle.find? fun m => m.src == src && m.dst == dst with
  | none => none
  | some m => if m.type = type then some ({ m with poison := m.poison ||| bad }, { s with whittle := s.whittle.erase m }) else none

/-- Whether a message waits at its crossing: for a quarter that is held, or, a counted signal, for the cycle in which it is released (R172,
R258, R259). -/
def State.msgWaits (s : State) (m : WMsg) : Bool :=
  match endpointOf m.dst with
  | .parting d q =>
      !s.qRuns d q ||
        (match m.stamp with
          | some st =>
              let pr := s.curPt d q
              let now := s.phaseNow d q
              let span := match endpointOf m.src with | .headstock _ => 15 | _ => if m.die = d then 1 else 10
              s.counted d q && decide (now < inReceiver (unwrapStamp st now pr) st.point pr + whittleTau span pr)
          | none => false)
  | _ => false

/-- Entries of a mailbox (R147, R161). -/
def mailboxDepth : Nat := 64

/-- A MAIL at its endpoint (R161). A field that Table 6.10 says is otherwise zero is ignored where it is not (DESIGN CHOICE, log entry
88). -/
def State.mailArrives (s : State) (m : WMsg) : State :=
  match endpointOf m.dst with
  | .parting d q =>
      if m.len = 0 ∨ 32 < m.len then s.refuseMsg m 4
      else if mailboxDepth ≤ (s.part d q).mailbox.length then (s.bump d (ptCore q) 0x170 1).refuseMsg m 1
      else (s.onPart d q fun p => { p with mailbox := p.mailbox ++ [m] }).acceptMsg m
  | .headstock c =>
      let box := Sparse.get (fun _ => []) s.hsMail c
      if m.len = 0 ∨ 32 < m.len then s.refuseMsg m 4
      else if mailboxDepth ≤ box.length then s.refuseMsg m 1
      else { s with hsMail := Sparse.put (fun _ => []) s.hsMail c (box ++ [m]) }.acceptMsg m
  | .engine _ => s.refuseMsg m 3
  | .reserved => s.refuseMsg m 2

/-- A SLOT_ADD at its endpoint (R154, R161). -/
def State.slotAddArrives (s : State) (m : WMsg) : State :=
  match endpointOf m.dst with
  | .parting d q =>
      if m.len ≠ 0 ∨ m.count = 0 then s.refuseMsg m 4
      else if slotReserved m.arg ≠ 0 then (s.slotRange d q).refuseMsg m 5
      else if slotQuarter m.arg ≠ q then s.refuseMsg m 5
      else (s.boardAdd d q ⟨m.arg, m.count, m.idx, m.die⟩).acceptMsg m
  | .reserved => s.refuseMsg m 2
  | _ => s.refuseMsg m 3

/-- Bytes of a Parting core's data and instruction memories (R147). -/
def dmemBytes : Nat := 2 ^ 18
def imemBytes : Nat := 2 ^ 17

/-- Harts whose reservation lies in bytes that are written lose it, by 8 B (R148). -/
def Parting.endResv (p : Parting) (a n : Nat) : Parting :=
  { p with harts := (List.range 4).foldl (fun m h =>
      let x := Sparse.get hart0 m h
      match x.resv with
      | some r => if a / 8 ≤ r / 8 ∧ r / 8 ≤ (a + n - 1) / 8 then Sparse.put hart0 m h { x with resv := none } else m
      | none => m) p.harts }

/-- Bytes written to data memory, with the poison of the 64 B units they touch; reservations of them end (R148). -/
def Parting.writeData (p : Parting) (a n data mask : Nat) : Parting :=
  { p.endResv a n with dmem := Sparse.putRange byte0 p.dmem a (bytesOf n data), dmemPoison := writePoison p.dmemPoison a n mask }

/-- The 8 B words of a message written to data memory; a poisoned word poisons its unit (R161, R163). -/
def Parting.writeWords (p : Parting) (a : Nat) (ws : List W64) (bad : Nat) : Parting :=
  (ws.zipIdx.foldl (fun p w => p.writeData (a + 8 * w.2) 8 w.1.toNat (b2n (bitOf bad w.2))) p)

/-- A WRITE at its endpoint (R161). -/
def State.writeArrives (s : State) (m : WMsg) : State :=
  match endpointOf m.dst with
  | .parting d q =>
      if m.len = 0 ∨ 32 < m.len ∨ dmemBytes < 8 * m.arg + 8 * m.len then s.refuseMsg m 4
      else (s.onPart d q fun p => p.writeWords (8 * m.arg) m.payload m.poison).acceptMsg m
  | .reserved => s.refuseMsg m 2
  | _ => s.refuseMsg m 3

/-- A message arrives, once nothing holds it at its crossing: dropped if its header is uncorrectable, else handled. -/
def State.messageArrives (s : State) (src dst type : Nat) (f : WhittleFacts) (handle : State → WMsg → State) : State :=
  if s.powered then
    let s := s.hsSend src dst type f
    match s.arriving src dst type f.bad with
    | none => s
    | some (m, t) => if s.msgWaits m then s else if f.headerBad then t.whittleUe m else handle t m
  else s

/-- MAIL: a mail message is accepted into the endpoint's mailbox or refused (R161, R163). -/
def execMail (src dst : Byte) (f : WhittleFacts) (s : State) : Out :=
  .next (s.messageArrives src.toNat dst.toNat 1 f State.mailArrives)

/-- SLOT_ADD: the message is added to the receiving board or refused (R154, R161). -/
def execSlotAdd (src dst : Byte) (f : WhittleFacts) (s : State) : Out :=
  .next (s.messageArrives src.toNat dst.toNat 2 f State.slotAddArrives)

/-- WRITE: the payload is written to a Parting core's data memory or refused (R161). -/
def execWhittleWrite (src dst : Byte) (f : WhittleFacts) (s : State) : Out :=
  .next (s.messageArrives src.toNat dst.toNat 4 f State.writeArrives)

/-- A refusal reaches its sender: the WSEND that waits returns the reason (R161, Table 6.12). -/
def State.refuseArrives (s : State) (m : WMsg) : State :=
  match endpointOf m.dst, m.hart with
  | .parting d q, some h =>
      match (s.hart d q h).wait with
      | some (.send rd _) =>
          let s := s.endWaitOf d q h rd (BitVec.ofNat 64 m.arg)
          if m.arg = 2 then s.errBit d (ptCore q) 4 else s
      | _ => s
  | _, _ => s

/-- REFUSE: a refusal reason returns to the sender's WSEND (R161). -/
def execRefuse (src dst : Byte) (f : WhittleFacts) (s : State) : Out :=
  .next (s.messageArrives src.toNat dst.toNat 0x80 { f with hs := none } State.refuseArrives)

/-- WSEND_TIMEOUT: a WSEND without acceptance for 1,024 ticks returns reason 2 (R163). -/
def execWsendTimeout (d : Fin 8) (q h : Fin 4) (s : State) : Out :=
  match (s.hart d q h).wait with
  | some (.send rd since) =>
      if since + 1024 ≤ s.tick ∧ s.hartState d q h = 1 ∧ s.qRuns d q = true then .next ((s.endWaitOf d q h rd 2).errBit d (ptCore q) 4) else .next s
  | _ => .next s

end Sys2Proof.Machine
end

