-- ==== Sys2Proof/Machine/Clock.lean ====
section
/-!
DEFINITION. Operating points, region holds, droop, clock faults and the tick generator (R252 to R276).
-/
namespace Sys2Proof.Machine

/-! ### Operating points -/

/-- The highest permitted point at or below `p`; the current point where none is (R256). -/
def State.subst (s : State) (d q p : Nat) : Nat :=
  let mask := s.fld d (qBlk q) 0x10C 0 8
  match (List.range (p + 1)).reverse.find? fun x => bitOf mask x with
  | some x => x
  | none => s.curPt d q

/-- The rail moves for the pending point: a raise ramps up, and a ramp that ran down stops (R257). -/
def State.rampFor (s : State) (d q p : Nat) : State :=
  let mv := railOf (s.subst d q p)
  if s.rail d q < mv then s.startRamp d q mv
  else
    let x := s.quarter d q
    (s.setQuarter d q { x with rampLeft := 0, rampTo := s.rail d q }).setFlag d (qBlk q) 0x108 8 false

/-- A request for a point (R255): the latest prevails, and one equal to the current point, or to the point that a hold goes
to, is discarded, and a deferral of what was pending with it; the core rail then keeps the ramp that it has begun, which the spec does not say
(DESIGN CHOICE, log entry 98). While an alert lasts it only replaces the pending point (R268). -/
def State.requestPoint (s : State) (d q p : Nat) : State :=
  if (s.quarter d q).faulted then s
  else
    let cur := if s.holding d q then (s.quarter d q).holdTo else s.curPt d q
    if p = cur then (s.setQuarter d q { s.quarter d q with deferFrom := none }).setFlag d (qBlk q) 0x108 6 false
    else
      let s := (s.setFld d (qBlk q) 0x108 3 3 p).setFlag d (qBlk q) 0x108 6 true
      let x := s.quarter d q
      let s := s.setQuarter d q { x with pendTick := s.tick, reqTick := s.tick }
      if s.alerted d q || s.holding d q || s.run != .ready then s else s.rampFor d q p

/-- A request with its maker: a core's number, or 24 for a register write, the loader or the Governor (R255). -/
def State.requestBy (s : State) (d q p who : Nat) : State :=
  let s := s.requestPoint d q p
  s.setQuarter d q { s.quarter d q with reqBy := who }

/-- OP_REQ_WRITE: a write of `QCLK.OP_REQ` sets the quarter's pending point (R255). -/
def State.wOpReq (s : State) (d q : Nat) (v : W32) : State := (s.writeAcc d (qBlk q) 0x104 v).requestBy d q (v.toNat % 8) 24

def execOpReqWrite (d : Fin 8) (q : Fin 4) (v : W32) (s : State) : Out := .next (if s.inReset then s else s.wOpReq d q v)

/-- RAIL_RAMP_COMPLETE: a core rail ramp that has reached the new voltage is over; the hold that follows may begin in the tick after the
ramp's last (R257, R267). -/
def execRailRampComplete (d : Fin 8) (q : Fin 4) (s : State) : Out :=
  let x := s.quarter d q
  if s.ramping d q && x.rampLeft == 0 then
    .next ((s.setFlag d (qBlk q) 0x108 8 false).setFld d (qBlk q) 0x110 16 16 x.rampTo)
  else .next s

/-- The highest junction reading of a die in a sample. -/
def hottest (f : SensorSample) (z : Nat) : Nat :=
  (f.junction.filter fun p => p.1 == z).foldl (fun m p => max m p.2) 0

/-- Tj of Lathe die `d`: the highest sensor of LDd, HD(2d) and HD(2d+1) (R298). -/
def dieTj (f : SensorSample) (d : Nat) : Nat := max (hottest f d) (max (hottest f (8 + 2 * d)) (hottest f (9 + 2 * d)))

/-- Tj of a Lathe die as last sampled (R298). -/
def State.tjOf (s : State) (d : Nat) : Nat := dieTj s.gov.sensors d

/-- Whether the conditions of a boost to S7 hold for a die (R291), but for its permission. -/
def State.boostOk (s : State) (d : Nat) : Bool :=
  s.flag 24 0 0x10C 0 && decide (10 * s.fld 24 0 0x114 0 16 ≤ 9 * s.fld 24 0 0x108 0 13) &&
    decide (s.tjOf d < 90) && !s.flag 24 0 0x188 0

/-- Whether a change of point is ready to begin its region hold but for droop (R257, R268). -/
def State.holdReady (s : State) (d q : Nat) : Bool :=
  s.run == .ready && s.pendValid d q && !s.alerted d q && !s.holding d q && !(s.quarter d q).faulted &&
    (!s.ramping d q || decide (railOf (s.subst d q (s.pendPt d q)) ≤ s.rail d q)) && decide ((s.quarter d q).reqTick < s.tick)

/-- REGION_HOLD_BEGIN: a quarter begins a region hold to change its point (R256, R257, R267, R291). -/
def execRegionHoldBegin (d : Fin 8) (q : Fin 4) (s : State) : Out :=
  let x := s.quarter d q
  if s.holdReady d q && !x.droopSeen then
    let want := s.pendPt d q
    let p := s.subst d q want
    let p := if p = 7 ∧ s.boostOk d = false then s.subst d q 6 else p
    let late := match x.deferFrom with | some t => s.tick - t | none => 0
    let before : Before := ⟨s.rg d (qBlk q) 0x118, s.rg d (qBlk q) 0x11C, x.deferFrom, s.rg d (qBlk q) 0x104,
      Sparse.get noStage s.staged (rkey d (qBlk q) 0x104)⟩
    let s := s.setRg d (qBlk q) 0x118 (BitVec.ofNat 32 (min late (2 ^ 32 - 1)))
    let s := if p = want then s else s.setFlag d (qBlk q) 0x11C 1 true
    let s := (s.setFlag d (qBlk q) 0x108 6 false).commit d (qBlk q) 0x104
    if p = s.curPt d q then .next (s.setQuarter d q { x with deferFrom := none })
    else
      let s := s.setQuarter d q { x with deferFrom := none, holdAt := some s.tick, lockAt := none, holdTo := p, before := some before }
      .next (((s.setFlag d (qBlk q) 0x108 7 true).bump d (qBlk q) 0x128 1).markLanded d q true)
  else .next s

/-- GENERATOR_LOCK: the clock generator locks at the new frequency, at most 280 ticks after the hold began (Table 10.3). -/
def execGeneratorLock (d : Fin 8) (q : Fin 4) (s : State) : Out :=
  let x := s.quarter d q
  match x.holdAt, x.lockAt with
  | some t, none =>
      if s.holding d q && !x.faulted && decide (t + 1 ≤ s.tick) && decide (s.tick ≤ t + 280) then
        .next (s.setQuarter d q { x with lockAt := some s.tick })
      else .next s
  | _, _ => .next s

/-- A hold ends: the quarter resumes with the pads of the new point, or at the S0 period while an alert lasts (R257, R265,
R268, R295, R407). -/
def State.resumeQuarter (s : State) (d q : Nat) : State :=
  let x := s.quarter d q
  let slow := s.alerted d q || s.run != .ready
  let p := if slow then 0 else x.holdTo
  let s := if s.alerted d q && !s.pendValid d q && x.holdTo != 0 then
      (s.setFld d (qBlk q) 0x108 3 3 x.holdTo).setFlag d (qBlk q) 0x108 6 true
    else s
  let len := match x.holdAt with | some t => s.tick - t | none => 0
  let s := s.setQuarter d q { x with holdAt := none, lockAt := none, before := none, limTo := min x.limTo x.cycle }
  let s := ((s.setFld d (qBlk q) 0x108 0 3 p).setFlag d (qBlk q) 0x108 7 false).setFlag d (qBlk q) 0x108 11 false
  let s := s.setFld d (qBlk q) 0x114 0 16 (min len 65535)
  let s := if railOf p < s.rail d q then s.startRamp d q (railOf p) else s
  let s := if s.pendValid d q && !s.alerted d q && s.run == .ready then
      let y := s.quarter d q
      let s := s.setQuarter d q { y with reqTick := s.tick }
      if railOf (s.subst d q (s.pendPt d q)) ≤ s.rail d q then s else s.rampFor d q (s.pendPt d q)
    else s
  s.applyQuarter d q

/-- REGION_HOLD_RESUME: after the monitor check of 20 ticks the quarter resumes, at most 300 ticks after the hold began (R257,
Table 10.3). -/
def execRegionHoldResume (d : Fin 8) (q : Fin 4) (s : State) : Out :=
  let x := s.quarter d q
  match x.lockAt with
  | some t =>
      let late := match x.holdAt with | some h => decide (h + 300 < s.tick) | none => false
      if s.holding d q && !x.faulted && decide (t + 20 ≤ s.tick) && !late then .next (s.resumeQuarter d q) else .next s
  | none => .next s

/-- A region clock fault stops the quarter at once; its event waits for the next tick (R266). -/
def State.clockFault (s : State) (d q : Nat) (jitter duty overrun : Bool) : State :=
  let s := s.setQuarter d q { s.quarter d q with
    faulted := true, faultEv := some (b2n (!(jitter || overrun)), q + b2n jitter * 4 + b2n duty * 8 + b2n overrun * 16) }
  let s := if jitter || overrun then s.errBit d (qBlk q) 0 else s
  if duty then s.errBit d (qBlk q) 1 else s

/-- A tick edge samples a region clock fault as a class 3 event: recorded as uncontained, and the module quiesces (R266). -/
def State.sampleFault (s : State) (d q : Nat) : State :=
  match (s.quarter d q).faultEv with
  | some (cause, syn) =>
      (s.setQuarter d q { s.quarter d q with faultEv := none }).eventQuiesce d (qBlk q) 3 cause syn 1 (dieMask d)
  | none => s

/-- HOLD_OVERRUN: a region hold not resumed by T_h + 300 is a region clock fault (R266). -/
def execHoldOverrun (d : Fin 8) (q : Fin 4) (s : State) : Out :=
  let x := s.quarter d q
  match x.holdAt with
  | some t =>
      if s.powered && s.holding d q && !x.faulted && decide (t + 300 ≤ s.tick) then .next (s.clockFault d q false false true) else .next s
  | none => .next s

/-- OP_CHANGE_STALLED: 100,000 ticks of deferral set the sticky flag; the change keeps waiting (R267). -/
def execOpChangeStalled (d : Fin 8) (q : Fin 4) (s : State) : Out :=
  match (s.quarter d q).deferFrom with
  | some t => .next (if s.powered && decide (t + 100000 ≤ s.tick) then s.setFlag d (qBlk q) 0x11C 0 true else s)
  | none => .next s

/-! ### Droop -/

/-- Stretched periods in the last 64 cycles above which the droop limit engages (R265). -/
def droopLimit : Nat := 16

/-- A quarter executes `n` cycles of the present tick: at a window boundary that they cross it takes the issue-rate limit that was set
before the tick (R284, R444). -/
def Quarter.run (x : Quarter) (n : Nat) : Quarter :=
  { x with cycle := x.cycle + n, periods := x.periods + n,
           k := if (x.cycle + n) / 64 = x.cycle / 64 then x.k else x.kNext
           kPrev := if (x.cycle + n) / 64 = x.cycle / 64 then x.kPrev else x.k }

/-- PERIOD_STRETCH: a rail sag makes the generator stretch the current period by 1 to 8 eighths of the nominal period; it is one cycle
(R264, R265). -/
def execPeriodStretch (d : Fin 8) (q : Fin 4) (eighths : Fin 9) (s : State) : Out :=
  if s.powered && s.qRuns d q && decide (0 < eighths.val) && !((s.duesOf d q).any fun r => decide (r.1 ≤ s.phaseNow d q)) then
    let x := s.quarter d q
    let recent := (true :: x.recent).take 64
    let s := s.setQuarter d q { x.run 1 with slipDebt := x.slipDebt + 8 + eighths, slipRun := 0, unstretched := 0, recent := recent }
    let s := (s.bump d (qBlk q) 0x130 1).setFlag d (qBlk q) 0x108 10 true
    let s := if droopLimit < recent.countP (· == true) && !s.droopLim d q then
        (s.setFlag d (qBlk q) 0x108 11 true).setQuarter d q { s.quarter d q with limFrom := x.cycle }
      else s
    .next (if s.droopLim d q then s.bump d (qBlk q) 0x138 1 else s)
  else .next s

/-- DROOP_FLAG_CLEAR: the droop flag clears after 64 consecutive unstretched cycles (R265). -/
def execDroopFlagClear (d : Fin 8) (q : Fin 4) (s : State) : Out :=
  .next (if s.qRuns d q && s.droopFlag d q && decide (64 ≤ (s.quarter d q).unstretched) then s.setFlag d (qBlk q) 0x108 10 false else s)

/-- DROOP_LIMIT_RELEASE: the droop limit is released after 256 consecutive unstretched cycles; the end of a hold releases it
in REGION_HOLD_RESUME (R265). -/
def execDroopLimitRelease (d : Fin 8) (q : Fin 4) (s : State) : Out :=
  .next (if s.qRuns d q && s.droopLim d q && decide (256 ≤ (s.quarter d q).unstretched) then s.setFlag d (qBlk q) 0x108 11 false else s)

/-- REGION_CLOCK_FAULT: the jitter or duty-cycle monitor finds a period outside its limits (R266). -/
def execRegionClockFault (d : Fin 8) (q : Fin 4) (c : ClockSample) (s : State) : Out :=
  let jitter := if c.stretched then decide (2200 < c.period) else decide (c.period < 900) || decide (1100 < c.period)
  let duty := decide (c.duty < 400) || decide (600 < c.duty)
  if s.powered && !(s.quarter d q).faulted && (jitter || duty) then .next (s.clockFault d q jitter duty false) else .next s

/-! ### Issue of rows -/

/-- Whether cycle `j` of an issue-rate window is permitted at limit `k` (R284, R444). -/
def permittedAt (k j : Nat) : Bool := (j + 1) * k / 64 - j * k / 64 == 1

/-- Whether the droop limit held in the cycle whose count is `n` (R265). -/
def State.droopLimAt (s : State) (d q n : Nat) : Bool :=
  let x := s.quarter d q
  decide (x.limFrom ≤ n) && (s.droopLim d q || decide (n < x.limTo))

/-- Whether a quarter's row streamers may issue in the cycle whose count is `n`, of the present window or the one before: the issue-rate limit, the
droop limit and debug mode all permit it (R44, R194, R265, R284, R444). -/
def State.issuesAt (s : State) (d q n : Nat) : Bool :=
  let x := s.quarter d q
  let base := if s.counted d q then x.phaseBase else x.startBase
  permittedAt (if n / 64 = x.cycle / 64 then x.k else x.kPrev) (n % 64) && (!s.droopLimAt d q n || n % 64 % 2 == 0) && (!s.debug d q || (n - base) % 2 == 0)

/-- Cycles from count `at_` on, of at most `left`, until `need` of them may issue: the cycles, and how many of them may. -/
def takeSlots (ok : Nat → Bool) : (left at_ need : Nat) → Nat × Nat
  | 0, _, _ => (0, 0)
  | left + 1, at_, need =>
      if need = 0 then (0, 0)
      else
        let n := b2n (ok at_)
        let r := takeSlots ok left (at_ + 1) (need - n)
        (r.1 + 1, r.2 + n)

/-! ### One tick of a quarter -/

/-- What is left of the periods of a tick, executed one after another: cycles executed, periods gone by, slip holds, the run of slip holds
and its longest, while the transfers of `dues` hold the quarter in their cycles (R261). `phase` and `per` are the phase cycle and the
period that come next. -/
structure Advance where
  phase : Nat
  per : Nat
  left : Nat
  slips : Nat := 0
  run : Nat := 0
  longest : Nat := 0
  spells : List (Nat × Nat × Nat) := []

/-- The quarter executes `n` cycles, or takes `n` slip holds, of the periods left. -/
def Advance.cycles (a : Advance) (n : Nat) : Advance :=
  { a with phase := a.phase + n, per := a.per + n, left := a.left - n, run := if n = 0 then a.run else 0,
           spells := if n = 0 then a.spells else a.spells ++ [(a.per, a.phase, n)] }
def Advance.holds (a : Advance) (n : Nat) : Advance :=
  { a with per := a.per + n, left := a.left - n, slips := a.slips + n, run := a.run + n, longest := max a.longest (a.run + n) }

/-- The periods of a tick: cycles to the next due cycle, slip holds until what is due there is ready, and so on (R261). -/
def Advance.go (a : Advance) (dues : List (Nat × Option Nat)) : (fuel : Nat) → Advance
  | 0 => a.holds a.left
  | fuel + 1 =>
      let open_ := dues.filter fun r => match r.2 with | some p => decide (a.per < p) | none => true
      if a.left = 0 then a
      else if open_.isEmpty then a.cycles a.left
      else
        let now := open_.filter fun r => decide (r.1 ≤ a.phase)
        if now.isEmpty then
          Advance.go (a.cycles (min a.left (open_.foldl (fun m r => min m (r.1 - a.phase)) a.left))) dues fuel
        else
          let wait := now.foldl (fun m r => max m (match r.2 with | some p => p - a.per | none => a.left)) 0
          Advance.go (a.holds (min a.left wait)) dues fuel

/-- The core rail after one tick of its ramp, and the ticks of the ramp that are left; a downward ramp pauses while the droop flag is set
(R257, R267). -/
def State.rampTick (s : State) (d q : Nat) : Nat × Nat :=
  let x := s.quarter d q
  let up := decide (s.rail d q < x.rampTo)
  let left := if x.rampLeft = 0 || (!up && s.droopFlag d q) then x.rampLeft else x.rampLeft - 1
  (if x.rampLeft = 0 then s.rail d q else if up then x.rampTo - (left + 3) / 4 else x.rampTo + (left + 3) / 4, left)

/-- A tick of `n` cycles put before the ticks already listed; and a list cut to its first `k` ticks (R275). -/
def addTick (n : Nat) : List (Nat × Nat) → List (Nat × Nat)
  | [] => [(n, 1)]
  | w :: l => if w.1 = n then (n, w.2 + 1) :: l else (n, 1) :: w :: l
def ticksUpTo (k : Nat) : List (Nat × Nat) → List (Nat × Nat)
  | [] => []
  | w :: l => if k ≤ w.2 then (if k = 0 then [] else [(w.1, k)]) else w :: ticksUpTo (k - w.2) l

/-- What a quarter executes in the tick that ends, and what a tick edge samples of it: cycles and slip holds, issue-rate window, droop
history, ramp, deferral (R257, R258, R261, R264, R265, R267, R284, R444). -/
def State.quarterTick (s : State) (d q : Nat) : State :=
  let x := s.quarter d q
  let all := 8 * if s.qRuns d q then cyclesPerTick (s.curPt d q) else 0
  let n := ceilDiv (all - x.slipDebt) 8
  let dues := if n = 0 then [] else s.duesOf d q
  let phase := s.phaseNow d q
  let a := Advance.go { phase := phase, per := x.periods, left := n, run := x.slipRun } dues (2 * dues.length + 2)
  let ran := a.phase - phase
  let calm := x.unstretched + ran
  let s := if s.droopFlag d q && decide (64 ≤ calm) then s.setFlag d (qBlk q) 0x108 10 false else s
  let limited := if s.droopLim d q then min ran (256 - x.unstretched) else 0
  let freed := s.droopLim d q && decide (256 ≤ calm)
  let s := s.bump d (qBlk q) 0x138 limited
  let s := if freed then s.setFlag d (qBlk q) 0x108 11 false else s
  let s := if a.slips = 0 then s else s.countSlips d q a.slips a.longest
  let (mv, left) := s.rampTick d q
  let raised := decide (s.rail d q < x.rampTo) && x.rampLeft != 0 && left == 0
  let s := s.setFld d (qBlk q) 0x110 16 16 mv
  let y := { x.run ran with
    lastEdge := x.edge
    edge := x.cycle + ran
    spells := a.spells
    periods := a.per
    slipDebt := 8 * n + x.slipDebt - all
    slipRun := a.run
    kNext := s.kd d
    unstretched := calm
    limTo := if freed then x.cycle + limited else x.limTo
    meas := ticksUpTo 1024 (addTick (x.cycle + ran - x.edge) x.meas)
    recent := (List.replicate (min ran 64) false ++ x.recent).take 64
    rampLeft := left
    reqTick := if raised then s.tick else x.reqTick
    droopSeen := s.droopFlag d q
    phaseFirst := if x.phaseTick = some s.tick then some (x.cycle + ran) else x.phaseFirst }
  let s := (s.setFld d (qBlk q) 0x110 0 16 (y.meas.foldl (fun n w => n + w.1 * w.2) 0 * 100 / 1024)).setQuarter d q y
  let waits := s.holdReady d q && y.droopSeen && x.deferFrom.isNone
  if waits then s.setQuarter d q { s.quarter d q with deferFrom := some s.tick } else s

/-- The transfers whose cycles a quarter has executed are released (R259). -/
def State.quarterReleases (s : State) (d q : Nat) : State :=
  if s.qRuns d q then (List.range 6).foldl (fun s j => s.releaseAll d (6 * q + j)) s
  else s

/-! ### The tick generator -/

/-- Whether a die program is loaded on any Lathe die (R269). -/
def State.programLoaded (s : State) : Bool := s.job.isSome

/-- A tick moved with a load of the counter. -/
def rebase (old new t : Nat) : Nat := if old ≤ t then new + (t - old) else new - (old - t)

/-- Times of a flow's two sides, of a bucket and of a hart moved. -/
def TxFlow.rebase (f : Nat → Nat) (x : TxFlow) : TxFlow :=
  { x with
    unacked := x.unacked.map fun k => { k with first := f k.first }
    resting := Sparse.mapVals nat0 (fun _ v => f v) x.resting
    cutAt := x.cutAt.map f
    calmFrom := f x.calmFrom
    used := f x.used
    paidTo := f (x.paidTo / 10000) * 10000 + x.paidTo % 10000 }
def RxFlow.rebase (f : Nat → Nat) (x : RxFlow) : RxFlow := { x with oldest := f x.oldest, used := f x.used }
def Engine.rebase (f : Nat → Nat) (x : Engine) : Engine := { x with buckets := x.buckets.map fun b => { b with since := f b.since } }
def Hart.rebase (f : Nat → Nat) (x : Hart) : Hart :=
  { x with
    since := f x.since
    wait := x.wait.map fun w => match w with
      | .access a => .access { a with since := f a.since }
      | .send rd since => .send rd (f since)
      | w => w }
def Tail.rebase (f : Nat → Nat) (x : Tail) : Tail :=
  let g (r : SapReq) : SapReq := if r.die = 8 then { r with via := f r.via } else r
  { x with queue := x.queue.map g, filling := x.filling.map fun r => (g r.1, r.2) }

/-- The counter loaded with a new value; intervals in progress keep their lengths (R269). -/
def State.loadTick (s : State) (v : Nat) : State :=
  let f := rebase s.tick v
  { s with
    tick := v
    quarters := Sparse.mapVals Quarter.initial (fun _ x => { x with
      pendTick := f x.pendTick
      reqTick := f x.reqTick
      holdAt := x.holdAt.map f
      lockAt := x.lockAt.map f
      deferFrom := x.deferFrom.map f }) s.quarters
    gov := { s.gov with clearAt := s.gov.clearAt.map f, nextAt := f s.gov.nextAt }
    applyAt := Sparse.mapVals nat0 (fun _ v => f v) s.applyAt
    strobed := s.strobed.map fun x => (x.1, x.2.1, f x.2.2)
    through := s.through.map fun x => { x with since := f x.since }
    parts := Sparse.mapVals Parting.initial (fun _ x => { x with
      harts := Sparse.mapVals (fun _ => {}) (fun _ h => h.rebase f) x.harts
      streams := Sparse.mapVals (fun _ => {}) (fun _ t => { t with retryAt := t.retryAt.map f }) x.streams }) s.parts
    tails := Sparse.mapVals Tail.initial (fun _ x => x.rebase f) s.tails
    stations := Sparse.mapVals Station.initial (fun _ x => { x with left := x.left.map fun l => (f l.1, l.2) }) s.stations
    ctls := Sparse.mapVals Ctl.initial (fun _ x => { x with
      refresh := Sparse.mapVals nat0 (fun _ v => f v) x.refresh
      passAt := f x.passAt }) s.ctls
    engines := Sparse.mapVals Engine.initial (fun _ x => x.rebase f) s.engines
    nets := Sparse.mapVals Net.initial (fun _ x => { x with
      tx := x.tx.map fun y => y.rebase f
      rx := x.rx.map fun y => y.rebase f }) s.nets
    ports := Sparse.mapVals Port.initial (fun _ x => { x with pausedTo := x.pausedTo.map f }) s.ports
    qps := Sparse.mapVals Qp.initial (fun _ x => { x with since := f x.since }) s.qps
    engineReset := s.engineReset.map fun r => { r with tick := f r.tick }
    mgmt := { s.mgmt with
      sessions := s.mgmt.sessions.map fun x => { x with lastAt := f x.lastAt }
      refusals := s.mgmt.refusals.map f
      work := s.mgmt.work.map fun w => { w with since := f w.since }
      helloFrom := f s.mgmt.helloFrom }
    boot := { s.boot with stepAt := f s.boot.stepAt, kicked := f s.boot.kicked } }

/-- A write of `TICK.CTRL` (R269, R276): the load takes place at the next tick. -/
def State.wTickCtrl (s : State) (v : W32) : State :=
  let s := s.writeAcc 24 2 0x108 v
  if v.getLsbD 1 then
    if s.programLoaded then s.setFlag 24 2 0x10C 1 true
    else { s with tickGen := { s.tickGen with setNext := true } }
  else s

/-- TICK_SET: writing `TICK.CTRL.SET` loads `TICK.SET` at the next tick if no program is loaded, else sets `SET_REFUSED`
(R269). -/
def execTickSet (v : W32) (s : State) : Out := .next (if s.inReset then s else s.wTickCtrl v)

/-- A write of `TICK.ADJ_PHASE`, which takes effect at the next tick (R269, R276). -/
def State.wAdjPhase (s : State) (v : W32) : State :=
  { s with tickGen := { s.tickGen with sinceAdj := 0, phases := s.tickGen.phases ++ [v.toInt] } }

/-- ADJ_PHASE: a write of `TICK.ADJ_PHASE` adds a slew correction unless it would exceed ±1,000,000 ns (R269). -/
def execAdjPhase (v : W32) (s : State) : Out := .next (if s.inReset then s else s.wAdjPhase v)

/-- A correction added to the slew remaining; one that would take it beyond ±1,000,000 ns is ignored (Table 10.8). -/
def State.addSlew (s : State) (v : Int) : State :=
  let z := (s.rg 24 2 0x118).toInt + v
  if z < -1000000 ∨ 1000000 < z then s
  else (s.setRg 24 2 0x118 (BitVec.ofInt 32 z)).setFlag 24 2 0x10C 2 (decide (z ≠ 0))

/-- What was written to the tick generator takes effect at a tick edge: `TICK.SET`, the load, `TICK.ADJ_PHASE` and `TICK.ADJ_FREQ`
(R269, R276). -/
def State.takeTickWrites (s : State) : State :=
  let s := ((s.commit 24 2 0x120).commit 24 2 0x124).commit 24 2 0x110
  let s := s.tickGen.phases.foldl (fun s v => s.addSlew v) s
  let set := s.tickGen.setNext
  let s := { s with tickGen := { s.tickGen with phases := [], setNext := false } }
  if set then s.loadTick (s.pair 24 2 0x120) else s

/-- One tick of slew: 0.1 ns of the correction is used up (R269). -/
def State.slewTick (s : State) : State :=
  let z := (s.rg 24 2 0x118).toInt
  if z = 0 then s
  else if s.tickGen.slewTicks < 9 then { s with tickGen := { s.tickGen with slewTicks := s.tickGen.slewTicks + 1 } }
  else
    let z := if z < 0 then z + 1 else z - 1
    let s := (s.setRg 24 2 0x118 (BitVec.ofInt 32 z)).setFlag 24 2 0x10C 2 (decide (z ≠ 0))
    { s with tickGen := { s.tickGen with slewTicks := 0 } }

/-- HOLDOVER: with no adjustment write for 2^28 ticks the generator clears `LOCKED` and sets `HOLDOVER` (R270). -/
def execHoldover (s : State) : Out :=
  if s.flag 24 2 0x108 0 && decide (2 ^ 28 ≤ s.tickGen.sinceAdj) then
    .next ((s.setFlag 24 2 0x108 0 false).setFlag 24 2 0x10C 0 true)
  else .next s

end Sys2Proof.Machine
end

