-- ==== Sys2Proof/Machine/Memory.lean ====
section
/-!
DEFINITION. Heartwood controllers: admission, banks, refresh, scrub, read-ahead, the block code (R228 to R236, R316, R317, R319).
-/
namespace Sys2Proof.Machine

/-! ### The block code -/

/-- `T` of a code register (R316, Table 12.4). -/
def State.eccT (s : State) (z i : Nat) : Nat := min 4 (s.fld z i 0x140 0 3)

/-- What a controller does with a block that it reads in error. -/
inductive Decoded where
  | corrected
  | uncorrectable
  /-- Another code word: its data is a free value (R316). -/
  | miscorrected
  deriving DecidableEq, Repr

/-- The decoder on `n` bytes in error at `t` (R316): above 8 − t bytes it may meet another code word. -/
def State.decodeBlock (s : State) (t n : Nat) : Decoded × State :=
  if n ≤ t then (.corrected, s)
  else if n ≤ 8 - t then (.uncorrectable, s)
  else (if Config.freeBool s.fresh && t != 0 then .miscorrected else .uncorrectable, { s with fresh := s.fresh + 1 })

/-- A block of the page (z, i) read in error: corrected and counted, or entered in the poison table as contained; `bit` is its
`BLK_ERR` bit, if it has one (R316, R317, R319). -/
def State.blockError (s : State) (z i a who : Nat) (bit : Option Nat) (n : Nat) : State :=
  match s.decodeBlock (s.eccT z i) n with
  | (.corrected, s) => s.bump z i 0x148 1
  | (.miscorrected, s) =>
      let v := (Config.freeBits 512 s.fresh).toNat
      { s.bump z i 0x148 1 with mem := Sparse.putRange byte0 s.mem (a / 64 * 64) (bytesOf 64 v), fresh := s.fresh + 1 }
  | (.uncorrectable, s) =>
      let s := match bit with | some b => s.errBit z i b | none => s
      (s.event (memDie a) i 1 4 0 (bit.getD 0x7F) (a / 64 * 64 + who * 2 ^ 48)).markBlock (a / 64 * 64) who

/-- Place of a block of a home range (R228): channel and layer. -/
def chanOf (c u : Nat) : Nat := chanFirst c + u % chanCount c
def layerOf (c u : Nat) : Nat := u / chanCount c / 16 % 2

/-- A corrected symbol counted for its lane; the lane becomes suspect above 256 in a scrub pass (R319). -/
def State.laneHit (s : State) (d c u lane : Nat) : State :=
  let k := (chanOf c u * 2 + layerOf c u) * 64 + lane % 38
  let x := s.ctl d c
  let n := Sparse.get nat0 x.hits k + 1
  let s := s.setCtl d c { x with hits := Sparse.put nat0 x.hits k n }
  if n = 257 ∧ x.suspects.contains k = false then
    let s := s.onCtl d c fun x => { x with suspects := x.suspects ++ [k] }
    let s := s.setRg d (hwcBlk c) 0x154 (BitVec.ofNat 32 (chanOf c u + layerOf c u * 2 ^ 11 + lane % 38 * 2 ^ 12 + 2 ^ 18))
    s.event (8 + 2 * d + layerOf c u) (hwcBlk c) 0 0 0 0x7F (d * 2 ^ 36 + homeOffset c + 64 * u)
  else s

/-- Address of block `u` of a home range. -/
def blockAddr (d c u : Nat) : Nat := d * 2 ^ 36 + homeOffset c + 64 * u

/-- The errors of a read of blocks `u` onward of a home range. -/
def State.heartErrors (s : State) (d c who u : Nat) (bit : Nat) (errs : List BlockErr) : State :=
  errs.foldl (fun s e =>
    if e.lanes = [] then s
    else
      let a := blockAddr d c (u + e.block)
      let s := s.blockError d (hwcBlk c) a who (some bit) e.lanes.length
      if e.lanes.length ≤ s.eccT d (hwcBlk c) then e.lanes.foldl (fun s l => s.laneHit d c (u + e.block) l) s else s) s

/-! ### Parts -/

/-- A write carried out: whole blocks, or bytes within a block, which keeps its poison and takes that of what is written (R232, R317). -/
def State.applyWrite (s : State) (r : MemReq) (first units : Nat) : State :=
  if r.bytes = 0 then
    s.writeBlocks r.requester units (r.addr + 64 * first) (r.data / 2 ^ (512 * first)) (r.poison / 2 ^ first)
  else s.writeBytes r.requester r.addr r.bytes r.data r.poison

/-- Bytes read for blocks `first` onward of a request joined to what it holds. -/
def State.joinRead (s : State) (r : MemReq) (first units : Nat) : State :=
  if r.bytes = 0 then
    let data := s.readMem (r.addr + 64 * first) (64 * units) * 2 ^ (512 * first)
    let poison := s.blocksPoison (r.addr + 64 * first) units * 2 ^ first
    s.updReq r.id fun x => { x with data := x.data + data, poison := x.poison + poison }
  else
    let data := s.readMem r.addr r.bytes
    let poison := b2n (s.blockBad r.addr)
    s.updReq r.id fun x => { x with data := data, poison := poison }

/-- A part served: its read or write takes place (R232), it is counted (Table 9.7), and its requester gets its completion, by a reply
message where it is not the core beneath (R30, R226). -/
def State.servePart (s : State) (p : Part) (errs : List BlockErr) : State :=
  match s.findReq p.req with
  | none => s
  | some r =>
      let reads := !p.write || r.bytes != 0
      let s := if reads then s.heartErrors p.die p.core p.requester (partFirst r p) 0 errs else s
      let s := if p.write then (s.applyWrite r p.first p.units).bump p.die (hwcBlk p.core) 0x118 1
        else s.bump p.die (hwcBlk p.core) 0x110 1
      let s :=
        if p.home then
          (if p.write then s else s.joinRead r p.first p.units).updReq r.id fun x => { x with left := x.left - 1 }
        else
          let (data, poison) :=
            if r.bytes = 0 then (s.readMem (r.addr + 64 * p.first) (64 * p.units), s.blocksPoison (r.addr + 64 * p.first) p.units)
            else (s.readMem r.addr r.bytes, b2n (s.blockBad r.addr))
          s.sendReply p.die p.legs r p.first p.units false data poison
      s.releaseHeld [] s.held

/-! ### Admission and read-ahead -/

/-- The first part in front of a controller that can be admitted now, in order of arrival: a part waits for one of its bank's 64 places,
and no later part of the bank is admitted before it (R229, R230). -/
def State.admissible (s : State) (d c : Nat) : List Part → Option Part
  | [] => none
  | p :: rest => if p.die = d ∧ p.core = c ∧ (s.mayAdmit p || s.raHit p) = true then some p else State.admissible s d c rest

/-- A requester's reads in ascending spans (R236): a span counts as read when any part of a request touches a block of it (DESIGN CHOICE, log entry
104). -/
def Ctl.noteRead (x : Ctl) (requester span : Nat) : Ctl :=
  let (last, run) := Sparse.get (fun _ => (0, 0)) x.spans requester
  let run := if run ≠ 0 ∧ span = last then run else if run ≠ 0 ∧ span = last + 1 then run + 1 else 1
  { x with spans := Sparse.put (fun _ => (0, 0)) x.spans requester (span, run) }

/-- A write part invalidates the read-ahead entries, and spoils the fills, of its blocks (R236). -/
def State.raSnoop (s : State) (d c : Nat) (spans : List Nat) : State :=
  let x := s.ctl d c
  let gone := x.ra.filter fun e => spans.contains e.span
  (s.setCtl d c { x with
    ra := x.ra.filter fun e => !spans.contains e.span
    fills := x.fills.map fun f => if spans.contains f.span then { f with spoiled := true } else f }).bump d (hwcBlk c) 0x130 gone.length

/-- A part put among the admitted ones: behind all before it, but within one controller cycle in ascending requester index (R231). -/
def admitIn (p : Part) : List Part → List Part
  | [] => [p]
  | a :: l =>
      if a.die = p.die ∧ a.core = p.core ∧ a.cycle = p.cycle ∧ p.requester < a.requester then p :: a :: l else a :: admitIn p l

/-- A part admitted, in the controller cycle of the part before it or in a new one; a read part in a read-ahead entry is served from it
instead (R229, R231, R236). -/
def State.admitPart (s : State) (p : Part) (same : Bool) : State :=
  match s.findReq p.req with
  | none => { s with waiting := s.waiting.erase p }
  | some r =>
      let spans := partSpans r p
      let hit := s.raHit p
      let s := { s with waiting := s.waiting.erase p }
      let s := if same then s else s.onCtl p.die p.core fun x => { x with cycle := x.cycle + 1 }
      let q := { p with cycle := (s.ctl p.die p.core).cycle }
      if p.write then
        let s := s.raSnoop p.die p.core spans
        let u := partFirst r p
        let s := s.onCtl p.die p.core fun x => match x.scrubBack with
          | some w => if u ≤ w.1 ∧ w.1 < u + p.units then { x with scrubBack := none } else x
          | none => x
        { s with admitted := admitIn q s.admitted }
      else
        let t := s.onCtl p.die p.core fun x => spans.foldl (fun x k => x.noteRead p.requester k) x
        if hit then
          let t := t.onCtl p.die p.core fun x =>
            { x with ra := (x.ra.filter fun e => !spans.contains e.span) ++ x.ra.filter fun e => spans.contains e.span }
          (t.servePart p []).bump p.die (hwcBlk p.core) 0x128 1
        else { t with admitted := admitIn q t.admitted }

/-- PART_ADMIT: the first part in front of a controller that its bank can take is admitted; `same`: in the controller cycle of the
admission before it (R229, R230, R231, R236). -/
def execPartAdmit (d : Fin 8) (c : Fin 24) (same : Bool) (s : State) : Out :=
  if s.powered then
    match s.admissible d c s.waiting with
    | some p => .next (s.admitPart p same)
    | none => .next s
  else .next s

/-- Whether a refresh of a bank is in progress (R231). -/
def State.refreshing (s : State) (d c bank : Nat) : Bool := decide (s.tick < Sparse.get nat0 (s.ctl d c).refresh bank)

/-- PART_SERVE: a bank serves its oldest admitted part (R231, R232, R316, R317). -/
def execPartServe (d : Fin 8) (c : Fin 24) (bank : Fin 32) (errs : List BlockErr) (s : State) : Out :=
  match s.inBank d c bank with
  | p :: _ =>
      if s.powered && !s.refreshing d c bank then .next ({ s with admitted := s.admitted.erase p }.servePart p errs) else .next s
  | [] => .next s

/-- Ticks of a refresh, 90 ns, and of its period, 3.9 µs (R231). -/
def refreshTicks : Nat := 9
def refreshPeriod : Nat := 390

/-- REFRESH: refresh takes a bank for 90 ns once every 3.9 µs (R231). -/
def execRefresh (d : Fin 8) (c : Fin 24) (bank : Fin 32) (s : State) : Out :=
  let x := s.ctl d c
  let last := Sparse.get nat0 x.refresh bank
  if s.powered && (last == 0 || decide (last + refreshPeriod ≤ s.tick + refreshTicks)) then
    .next (s.setCtl d c { x with refresh := Sparse.put nat0 x.refresh bank (s.tick + refreshTicks) })
  else .next s

/-- Blocks of a home range. -/
def homeBlocks (c : Nat) : Nat := homeBytes c / 64

/-- Ticks of a scrub period of `h` hours (R235). -/
def scrubTicks (h : Nat) : Nat := h * 3600 * 10 ^ 8

/-- The tick of block `u` of a scrub pass that began in tick `t0`: the pass spreads the home range over its period (R235). -/
def scrubDue (c h t0 u : Nat) : Nat := t0 + u * scrubTicks h / homeBlocks c

/-- A corrected block that no write has met is written back (R235). -/
def State.scrubWriteBack (s : State) (d c : Nat) : State :=
  match (s.ctl d c).scrubBack with
  | some (u, v) =>
      let s := s.onCtl d c fun x => { x with scrubBack := none }
      { s with mem := Sparse.putRange byte0 s.mem (blockAddr d c u) (bytesOf 64 v) }
  | none => s

/-- SCRUB_READ: a controller reads the block of its scrub that is due, in a bank without admitted parts; the block is written back if it
was corrected, and one that it cannot correct is poisoned as contained (R235, R319). -/
def execScrubRead (d : Fin 8) (c : Fin 24) (lanes : List Nat) (s : State) : Out :=
  let s' := s.scrubWriteBack d c
  let x := s'.ctl d c
  let u := x.scrub
  let bank := bankOf c u
  let hours := s.fld d (hwcBlk c) 0x104 1 8
  if s.powered && hours != 0 && decide (scrubDue c hours x.passAt u ≤ s.tick) && (s.inBank d c bank).isEmpty &&
      !s.refreshing d c bank then
    let t := s'.heartErrors d c c u 1 [⟨0, lanes⟩]
    let t := if lanes.isEmpty || t.blockBad (blockAddr d c u) then t
      else t.onCtl d c fun x => { x with scrubBack := some (u, t.readMem (blockAddr d c u) 64) }
    if u + 1 < homeBlocks c then .next (t.onCtl d c fun x => { x with scrub := u + 1 })
    else
      .next ((t.onCtl d c fun x => { x with scrub := 0, hits := [], passAt := max s.tick (x.passAt + scrubTicks hours) }).bump d (hwcBlk c) 0x138 1)
  else .next s

/-- READ_AHEAD_FILL: after two spans in ascending order from one requester the controller reads the next span, from banks without
admitted parts (R236); blocks in error are corrected or poisoned as in any read (R316, R317). -/
def execReadAheadFill (d : Fin 8) (c : Fin 24) (requester : Fin 37) (errs : List BlockErr) (s : State) : Out :=
  let x := s.ctl d c
  let (last, run) := Sparse.get (fun _ => (0, 0)) x.spans requester
  let span := last + 1
  let free := (List.range 64).all fun i => (s.inBank d c (bankOf c (64 * span + i))).isEmpty
  if s.powered && s.flag d (hwcBlk c) 0x104 0 && decide (2 ≤ run) && decide (64 * span < homeBlocks c) && free &&
      !(x.ra.any fun e => e.span == span) && !(x.fills.any fun f => f.span == span) then
    .next ((s.setCtl d c { x with fills := x.fills ++ [⟨span, false⟩] }).heartErrors d c c (64 * span) 0 errs)
  else .next s

/-- Read-ahead entries of a controller (R236). -/
def raDepth : Nat := 16

/-- READ_AHEAD_LAND: the oldest fill lands in an entry, replacing the least recently used, or is discarded if a write to its blocks
was admitted; with `HWC.CTRL.RA_EN` clear there is no buffer for it (R236). -/
def execReadAheadLand (d : Fin 8) (c : Fin 24) (s : State) : Out :=
  let x := s.ctl d c
  match x.fills with
  | [] => .next s
  | f :: rest =>
      if !s.powered then .next s
      else if !s.flag d (hwcBlk c) 0x104 0 then .next (s.setCtl d c { x with fills := rest })
      else if f.spoiled then .next ((s.setCtl d c { x with fills := rest }).bump d (hwcBlk c) 0x130 1)
      else .next (s.setCtl d c { x with fills := rest, ra := (x.ra ++ [({ span := f.span } : RaEntry)]).drop (x.ra.length + 1 - raDepth) })

/-- SRAM_WRITEBACK: a corrected word is written back unless a write to it intervened (R312). The model's memories hold corrected
words from the read on, so nothing is left to write. -/
def execSramWriteback (_d : Fin 8) (_c : Fin 24) (s : State) : Out := .next s

end Sys2Proof.Machine
end

