-- ==== Sys2Proof/Machine/Sapwood.lean ====
section
/-!
DEFINITION. The Tailstocks: Sapwood requests, the cache, prefetch, the carve-out (R237 to R241, R314, R318).
-/
namespace Sys2Proof.Machine

def State.tail (s : State) (t : Nat) : Tail := Sparse.get Tail.initial s.tails t
def State.setTail (s : State) (t : Nat) (x : Tail) : State := { s with tails := Sparse.put Tail.initial s.tails t x }
def State.onTail (s : State) (t : Nat) (f : Tail → Tail) : State := s.setTail t (f (s.tail t))

/-- Die of a Tailstock, and block index of its cache page (Table 14.1). -/
def tsDie (t : Nat) : Nat := 26 + t

/-- First address of a half. -/
def halfBase (t : Nat) : Nat := if t = 0 then sapBase else sapUpper

/-- The 256 B lines of its half that a request touches (R237). -/
def SapReq.lines (r : SapReq) (t : Nat) : List Nat :=
  let o := r.addr - halfBase t
  let n := max 1 (64 * r.units)
  (List.range ((o / 64 * 64 + n - 1) / 256 - o / 256 + 1)).map fun i => o / 256 + i

/-- Sets and ways of the cache: 128 MiB, 256 B lines, 16 ways (R240); a line's set is its number modulo the sets. -/
def cacheSets : Nat := 32768
def cacheWays : Nat := 16

/-- A line made the most recently used of its set, filled if it was not there; the least recently used line of a full set leaves,
and the flag says whether it was dirty (R240). -/
def Tail.touch (x : Tail) (line : Nat) (dirty : Bool) : Tail × Bool :=
  match x.cache.find? fun c => c.line == line with
  | some c => ({ x with cache := x.cache.erase c ++ [{ c with dirty := c.dirty || dirty }] }, false)
  | none =>
      let set := x.cache.filter fun c => c.line % cacheSets == line % cacheSets
      if set.length < cacheWays then ({ x with cache := x.cache ++ [⟨line, dirty⟩] }, false)
      else
        match set with
        | v :: _ => ({ x with cache := x.cache.erase v ++ [⟨line, dirty⟩] }, v.dirty)
        | [] => ({ x with cache := x.cache ++ [⟨line, dirty⟩] }, false)

/-- A line touched; a dirty line that leaves is written back to DRAM (R240). -/
def State.touchLine (s : State) (t line : Nat) (dirty : Bool) : State :=
  let (x, back) := (s.tail t).touch line dirty
  let s := s.setTail t x
  if back then s.bump (tsDie t) 0 0x118 4 else s

/-- A line leaves the cache; a dirty one is written back. -/
def State.dropLine (s : State) (t line : Nat) : State :=
  let x := s.tail t
  match x.cache.find? fun c => c.line == line with
  | some c =>
      let s := s.setTail t { x with cache := x.cache.erase c }
      if c.dirty then s.bump (tsDie t) 0 0x118 4 else s
  | none => s

/-- Corrections that an access of a Tailstock meets: in its cache, and on a transfer to or from the packages (R312, R318). -/
def State.sramCounts (s : State) (t : Nat) (f : SapFacts) : State := s.bump (tsDie t) 1 0x130 f.sramCorrected
def State.sapCounts (s : State) (t : Nat) (f : SapFacts) : State := (s.bump (tsDie t) 0 0x158 f.linkCorrected).sramCounts t f

/-- Errors of blocks read from DRAM, the blocks from address `a` on (R316, R317). -/
def State.sapErrors (s : State) (t a who : Nat) (f : SapFacts) : State :=
  f.errs.foldl (fun s e => if e.lanes = [] then s else s.blockError (tsDie t) 0 (a + 64 * e.block) who none e.lanes.length) s

/-- Sub-channel of the 256 B line with a number in its half (R237). -/
def subChannel (line : Nat) : Nat := line % 48

/-- A miss noted in the tracked streams (R241). -/
def noteMiss (l : List Track) (line : Nat) : List Track :=
  match l.find? fun k => k.last + 1 == line || line + 1 == k.last with
  | some k => l.erase k ++ [({ last := line, up := some (decide (k.last < line)) } : Track)]
  | none => (l ++ [({ last := line, up := none } : Track)]).drop (l.length + 1 - 64)

/-! ### Requests -/

/-- The request that an onward header holds, with the data of its transfers; none for a bad header (R239, Table 9.5). -/
def headerRequest (t : Nat) (lines : List (Nat × Nat)) (free : Nat) : Option SapReq :=
  let h := (lines.headD (0, 0)).1
  let op := bitsOf h 0 2
  let a := bitsOf h 2 48
  let units := bitsOf h 50 6 + 1
  if bitsOf h 63 1 ≠ 0 ∨ bitsOf h 67 13 ≠ 0 ∨ bitsOf h 96 416 ≠ 0 ∨ 2 ≤ op ∨ a % 64 ≠ 0 ∨ 4096 < a % 4096 + 64 * units ∨
      regionOf a ≠ .sapwood t then none
  else
    let ls := lines.drop 1
    some { write := op == 1, addr := a, units := units, na := bitOf h 62
           data := (packBits 4096 (ls.map (·.1)) + free * 2 ^ (4096 * ls.length)) % 2 ^ (512 * units)
           poison := packBits 8 (ls.map (·.2)) % 2 ^ units
           die := bitsOf h 64 3, req := none, retStation := bitsOf h 56 5, retDir := bitOf h 61, tag := bitsOf h 80 16 }

/-- Where a reply to a bad header goes: by the same fields (Table 9.5). -/
def headerReturn (lines : List (Nat × Nat)) : SapReq :=
  let h := (lines.headD (0, 0)).1
  { write := true, addr := 0, units := 1, na := false, data := 0, poison := 0, die := bitsOf h 64 3, req := none,
    retStation := bitsOf h 56 5, retDir := bitOf h 61, tag := bitsOf h 80 16 }

/-- A reply tile (R239): its data, or one transfer whose contents the spec does not give. It starts at the Sapwood station at which the
request retired or, for a die that the other Tailstock serves, at that of the die between, and goes to `RET_STATION` of `RET_DIE` in
direction `RET_DIR` (R9, R226). -/
def State.replyTile (s : State) (t : Nat) (r : SapReq) (data : Option (Nat × Nat)) : State :=
  let (line, s) := s.freeNat 14
  let (pad, s) := s.freeNat 4096
  let ls := match data with
    | some (v, p) => (List.range (ceilDiv r.units 8)).map fun i =>
        let n := min 8 (r.units - 8 * i)
        (v / 2 ^ (4096 * i) % 2 ^ 4096 + (if n = 8 then 0 else pad / 2 ^ (512 * n) * 2 ^ (512 * n)), p / 2 ^ (8 * i) % 2 ^ 8)
    | none => [(pad, 0)]
  let from_ := viaDie r.die t
  if from_ = r.die then
    (s.post r.die sapStation linkKey (ringTile sapStation r.retStation r.retDir false line r.tag none (fun i => i) ls)).flushMsgs
      r.die sapStation
  else
    match dieLegs from_ r.die sapStation r.retStation with
    | [a, b] =>
        let m : MemMsg := { num := s.nextReq, body := .tile, legs := [{ b with dir := r.retDir }] }
        (({ s with nextReq := s.nextReq + 1 }).post from_ sapStation linkKey (legTile a line r.tag (some m) ls)).flushMsgs from_ sapStation
    | _ => s

/-- A request answered: a memory request of the module by a reply over the way it came, a Headstock core's directly, one of a receive ring or a
Headstock cache not at all, and a tile by a reply tile (R239, R379, R382). -/
def State.answer (s : State) (t : Nat) (r : SapReq) (failed : Bool) (data poison : Nat) : State :=
  match r.req with
  | some id =>
      (match s.findReq id with
      | some q => s.sendReply r.via (sapLegs q.die t (requesterStation q.requester)) q r.first r.units failed data poison
      | none => s)
  | none =>
      if r.die = 8 then (if r.tag < coreLanes then s.hsComplete r.tag r.addr r.write failed data poison else s)
      else s.replyTile t r (if r.write || failed then none else some (data, poison))

/-- The requester that poison records name. -/
def State.sapWho (s : State) (r : SapReq) : Nat := match r.req.bind s.findReq with | some q => q.requester | none => if r.die = 8 then 36 else 0

/-- A read or write of Sapwood carried out at the point of order, and answered (R240). -/
def State.performSap (s : State) (t : Nat) (r : SapReq) : State :=
  if r.write then
    let s := if r.bytes = 0 then s.writeBlocks (s.sapWho r) r.units r.addr r.data r.poison
      else s.writeBytes (s.sapWho r) r.addr r.bytes r.data r.poison
    s.answer t r false 0 0
  else if r.bytes = 0 then s.answer t r false (s.readMem r.addr (64 * r.units)) (s.blocksPoison r.addr r.units)
  else s.answer t r false (s.readMem r.addr r.bytes) (b2n (s.blockBad r.addr))

/-- A write reaches a line: prefetches of it on their way are spoiled (R241). -/
def State.spoilPrefetch (s : State) (t : Nat) (lines : List Nat) : State :=
  s.onTail t fun x => { x with prefetches := x.prefetches.map fun p => if lines.contains p.line then { p with wrote := true } else p }

/-- Bytes that a request covers. -/
def SapReq.span (r : SapReq) : Nat := if r.bytes = 0 then 64 * r.units else r.bytes

/-- Whether a request reaches into the OS carve-out from another source than a Headstock core (R238). -/
def State.carveHit (s : State) (t : Nat) (r : SapReq) : Bool := t == 1 && r.die != 8 && decide (s.carveBase < r.addr + r.span)

/-- A carve-out request refused (R238). -/
def State.carveRefuse (s : State) (t : Nat) : State := (s.errBit (tsDie t) 0 1).event (tsDie t) 0 2 0 1 1 0

/-- Misses noted in the tracked streams while `SWCACHE.CTRL.PF_EN` is set (R241). -/
def State.noteMisses (s : State) (t : Nat) (misses : List Nat) : State :=
  if s.flag (tsDie t) 1 0x100 0 then s.onTail t fun x => { x with tracks := misses.foldl noteMiss x.tracks } else s

/-- The accesses to the lines of a half counted as hits and misses, and what a write does to prefetches on their way (R240, R241). -/
def State.countLines (s : State) (t : Nat) (write : Bool) (lines : List Nat) : State :=
  let cached (l : Nat) : Bool := (s.tail t).cache.any fun c => c.line == l
  let misses := lines.filter fun l => !cached l
  let s := (s.bump (tsDie t) 1 0x110 (lines.filter cached).length).bump (tsDie t) 1 0x118 misses.length
  (if write then s.spoilPrefetch t lines else s).noteMisses t misses

/-- A request that the Tailstock takes up (R238, R240, R241): refused in the carve-out, completed on hits and for no-allocate, or
left to its fill. A no-allocate read that hits in part counts four blocks of each missing line in `SWC.RD_CNT`, but no more than it has (DESIGN CHOICE, log
entry 105). -/
def State.takeSap (s : State) (t : Nat) (r : SapReq) (f : SapFacts) : State :=
  if s.carveHit t r then (s.carveRefuse t).answer t r true 0 0
  else
    let lines := r.lines t
    let x := s.tail t
    let hits := lines.filter fun l => x.cache.any fun c => c.line == l
    let misses := lines.filter fun l => !x.cache.any fun c => c.line == l
    let s := s.countLines t r.write lines
    let s := if r.na ∧ (r.write = true ∨ misses ≠ []) then s.sapCounts t f else s.sramCounts t f
    if r.na then
      let s := if r.write then (lines.foldl (fun s l => s.dropLine t l) s).bump (tsDie t) 0 0x118 r.units
        else
          let s := hits.foldl (fun s l => s.touchLine t l false) s
          if misses = [] then s else (s.bump (tsDie t) 0 0x110 (min r.units (4 * misses.length))).sapErrors t r.addr (s.sapWho r) f
      s.performSap t r
    else if misses = [] then (hits.foldl (fun s l => s.touchLine t l r.write) s).performSap t r
    else s.onTail t fun x => { x with filling := x.filling ++ [(r, misses)] }

/-- Whether lines are among those of a request in the middle of its service (R240, R241). -/
def Tail.busy (x : Tail) (t : Nat) (lines : List Nat) : Bool := x.filling.any fun p => (p.1.lines t).any fun l => lines.contains l

/-- A request of a tile as the memory request of the module that its message names, which came by die `d`. -/
def SapReq.named (r : SapReq) (d : Nat) (xs : List Xfer) : SapReq :=
  match xs.head?.bind (·.msg) with
  | some m =>
      (match m.body with
        | .sapwood id first off bytes => { r with req := some id, first := first, addr := r.addr + off, bytes := bytes, via := d }
        | _ => { r with via := d })
  | none => { r with via := d }

/-- The request that a tile at a Sapwood station asks for: its header's, or of a memory request of the module its header's with the
name that the message carries; none for a bad header. -/
def sapTileRequest (t d : Nat) (xs : List Xfer) (free : Nat) : Option SapReq :=
  (headerRequest t (tileLines xs) free).map fun r => r.named d xs

/-- A request that waits before a Tailstock: the station's die, 8 for the Headstock, the tick of its arrival, the die that orders it within that tick,
and what it asks for (R240). -/
structure SapWait where
  from_ : Nat
  tick : Nat
  rank : Nat
  req : Option SapReq
  deriving DecidableEq, Repr

/-- The tiles that wait at a Sapwood station in their order; none goes before one in front of it, so that of one tick it counts as of the highest
requester's die up to it (R240). -/
def sapRow (t d : Nat) : (tick rank : Nat) → List (Nat × List Xfer) → List SapWait
  | _, _, [] => []
  | tick, rank, m :: rest =>
      let r := sapTileRequest t d m.2 0
      let own := match r with | some r => r.die | none => d
      let k := if m.1 = tick then max rank own else own
      { from_ := d, tick := m.1, rank := k, req := r } :: sapRow t d m.1 k rest

/-- Everything that waits before a Tailstock (R240). -/
def State.sapQueue (s : State) (t : Nat) : List SapWait :=
  ((List.range 4).flatMap fun j => sapRow t (4 * t + j) 0 0 (s.station (4 * t + j) sapStation).left) ++
    (s.tail t).queue.map fun r => { from_ := 8, tick := r.via, rank := 8, req := some r }

/-- Whether a request of die `rank` for lines, which arrived by station `d` in a tick, waits for one to the same lines that arrived earlier, or in the
same tick from a requester of a lower die; Headstock requests, of die 8, come last of their tick (R240). -/
def State.sapWaits (s : State) (t d rank tick : Nat) (lines : List Nat) : Bool :=
  (s.tail t).busy t lines || (s.sapQueue t).any fun w =>
    w.from_ != d && (decide (w.tick < tick) || (w.tick == tick && decide (w.rank < rank))) &&
      (match w.req with | some r => (r.lines t).any fun l => lines.contains l | none => false)

/-- SAPWOOD_REQUEST: the oldest request of the Headstock's at the Tailstock (`src` 8), or of the tiles that retired at die `src`'s
Sapwood station, is served by the cache (R238 to R240, R379). -/
def execSapwoodRequest (t : Fin 2) (src : Fin 9) (f : SapFacts) (s : State) : Out :=
  if !s.powered then .next s
  else if src.val = 8 then
    match (s.tail t).queue with
    | [] => .next s
    | r :: rest =>
        if s.sapWaits t 8 8 r.via (r.lines t) then .next s
        else .next ((s.onTail t fun x => { x with queue := rest }).takeSap t r f)
  else if src.val / 4 ≠ t then .next s
  else
    match (s.station src sapStation).left with
    | [] => .next s
    | (tick, xs) :: rest =>
        let (free, s') := s.freeNat 32768
        let s' := s'.setStation src sapStation { s'.station src sapStation with left := rest }
        match sapTileRequest t src xs free with
        | none =>
            .next (((s'.errBit (tsDie t) 0 0).event (tsDie t) 0 2 0 1 0 0).answer t ((headerReturn (tileLines xs)).named src xs) true 0 0)
        | some r => if s.sapWaits t src r.die tick (r.lines t) then .next s else .next (s'.takeSap t r f)

/-- SAPWOOD_MISS_FILL: the oldest missed access completes from DRAM and its requester is answered (R240). -/
def execSapwoodMissFill (t : Fin 2) (f : SapFacts) (s : State) : Out :=
  match (s.tail t).filling with
  | [] => .next s
  | (r, misses) :: rest =>
      if s.powered then
        let s := s.onTail t fun x => { x with filling := rest }
        let s := ((s.bump (tsDie t) 0 0x110 (4 * misses.length)).sapCounts t f).sapErrors t (r.addr / 256 * 256) (s.sapWho r) f
        .next (((r.lines t).foldl (fun s l => s.touchLine t l r.write) s).performSap t r)
      else .next s

/-- Lines of a half. -/
def halfLines : Nat := 384 * 2 ^ 30 / 256

/-- Lines ahead of a tracked stream, nearest first (R241): `SWCACHE.CTRL.PF_DEPTH`, where 0 and values above 16 act as 16. -/
def State.aheadOf (s : State) (t : Nat) (k : Track) : List Nat :=
  let n := s.fld (tsDie t) 1 0x100 1 5
  let depth := if n = 0 ∨ 16 < n then 16 else n
  match k.up with
  | none => []
  | some up => (List.range depth).filterMap fun i =>
      if up then (if k.last + i + 1 < halfLines then some (k.last + i + 1) else none)
      else if i + 1 ≤ k.last then some (k.last - i - 1) else none

/-- SAPWOOD_PREFETCH: after two adjacent misses the Tailstock fetches the next line ahead of tracked stream `j`, behind the demand
reads of its sub-channel (R237, R241). -/
def execSapwoodPrefetch (t : Fin 2) (j : Fin 64) (s : State) : Out :=
  let x := s.tail t
  match x.tracks[j.val]? with
  | none => .next s
  | some k =>
      let next := (s.aheadOf t k).find? fun l =>
        !(x.cache.any fun c => c.line == l) && !(x.prefetches.any fun p => p.line == l) && !x.busy t [l]
      match next with
      | some l =>
          if s.powered && s.flag (tsDie t) 1 0x100 0 &&
              !(x.filling.any fun p => p.2.any fun m => subChannel m == subChannel l) then
            .next ((s.setTail t { x with prefetches := x.prefetches ++ [⟨l, false⟩] }).bump (tsDie t) 1 0x120 1)
          else .next s
      | none => .next s

/-- PREFETCH_LAND: the oldest prefetch lands, or is discarded if its line was written after its issue; it never fills a line that a
demand access holds (R241). -/
def execPrefetchLand (t : Fin 2) (f : SapFacts) (s : State) : Out :=
  let x := s.tail t
  match x.prefetches with
  | [] => .next s
  | p :: rest =>
      if s.powered then
        let s := (((s.setTail t { x with prefetches := rest }).bump (tsDie t) 0 0x110 4).sapCounts t f).sapErrors t (halfBase t + 256 * p.line) 0 f
        if p.wrote then .next (s.bump (tsDie t) 1 0x128 1)
        else if x.busy t [p.line] then .next s
        else .next (s.touchLine t p.line false)
      else .next s

/-- CACHE_LINE_REFETCH: a double-bit error in a clean line of a Sapwood cache is corrected by refetching it; in a dirty line its
blocks are written to memory as poisoned, which is contained (R313, R314). -/
def execCacheLineRefetch (t : Fin 2) (line : Nat) (f : SapFacts) (s : State) : Out :=
  let x := s.tail t
  match x.cache.find? fun c => c.line == line with
  | none => .next s
  | some c =>
      if !s.powered then .next s
      else if c.dirty then
        let a := halfBase t + 256 * line
        let s := (s.dropLine t line).event (tsDie t) 1 1 4 0 0x7F a
        .next ((List.range 4).foldl (fun s i => s.markBlock (a + 64 * i) 0) s)
      else .next ((((s.bump (tsDie t) 0 0x110 4).bump (tsDie t) 1 0x130 1).sapCounts t f).sapErrors t (halfBase t + 256 * line) 0 f)

/-- Whether Lathe die `d` is in an engine reset (R404). -/
def State.resetting (s : State) (d : Nat) : Bool := match s.engineReset with | some r => bitOf r.mask d | none => false

/-- Whether `n` bytes at `a` lie in the OS carve-out in part (R238). -/
def State.inCarve (s : State) (a n : Nat) : Bool := decide (s.carveBase < a + n) && decide (a < sapEnd)

end Sys2Proof.Machine
end

