-- ==== Sys2Proof/Machine/NetOps.lean ====
section
/-!
DEFINITION. The named operations of ports and of the collective transport (R326 to R340, R344, R353).
-/
namespace Sys2Proof

/-- The fields of a received HCT packet's header (Table 13.6). -/
def HctIn.field (x : HctIn) (i n : Nat) : Nat := x.hdr.toNat / 2 ^ i % 2 ^ n
def HctIn.version (x : HctIn) : Nat := x.field 0 4
def HctIn.type (x : HctIn) : Nat := x.field 4 2
def HctIn.count (x : HctIn) : Nat := x.field 8 4
def HctIn.srcRank (x : HctIn) : Nat := x.field 12 12
def HctIn.srcCe (x : HctIn) : Nat := x.field 24 3
def HctIn.dstRank (x : HctIn) : Nat := x.field 27 12
def HctIn.dstCe (x : HctIn) : Nat := x.field 39 3
def HctIn.psn (x : HctIn) : Nat := x.field 48 32

/-- What a packet carries, by its `TYPE` (R336). -/
def HctIn.body (x : HctIn) : HctBody :=
  if x.type = 0 then .data x.msgs
  else if x.type = 1 then .ack (x.field 80 32) (x.field 112 64) (x.field 176 16) (x.field 192 16)
  else .ctrl x.count x.ctrl

end Sys2Proof

namespace Sys2Proof.Machine

/-- One bit into CRC-32C, least significant first. -/
def crc32cBit (c : Nat) (b : Bool) : Nat := (c / 2).xor (if bitOf c 0 != b then 0x82F63B78 else 0)
/-- CRC-32C of bytes. -/
def crc32c (bs : List Byte) : Nat :=
  (bs.foldl (fun c b => (List.range 8).foldl (fun c i => crc32cBit c (bitOf b.toNat i)) c) 0xFFFFFFFF).xor 0xFFFFFFFF

/-- A chunk message's bytes, padded to 8 B (Tables 5.5 and 5.6, R336). -/
def msgBytes (m : ChunkMsg) : List Byte := bytesOf 16 m.hdr.toNat ++ bytesOf (ceilDiv m.bytes 8 * 8) (m.data % 2 ^ (8 * m.bytes))
/-- Bytes of an HCT packet before its CRC-32C: its header and its messages (R336). -/
def hctBytes (hdr : Nat) (b : HctBody) : List Byte :=
  bytesOf 32 hdr ++ match b with
    | .data ms => ms.flatMap msgBytes
    | .ctrl _ m => bytesOf 32 m.toNat
    | .ack .. => []
/-- The CRC-32C over header and messages (R336). -/
def hctCrc (hdr : Nat) (b : HctBody) : W32 := BitVec.ofNat 32 (crc32c (hctBytes hdr b))

def State.port (s : State) (p : Nat) : Port := Sparse.get Port.initial s.ports p
def State.setPort (s : State) (p : Nat) (x : Port) : State := { s with ports := Sparse.put Port.initial s.ports p x }
def State.onPort (s : State) (p : Nat) (f : Port → Port) : State := s.setPort p (f (s.port p))
def State.net (s : State) (d : Nat) : Net := Sparse.get Net.initial s.nets d
def State.setNet (s : State) (d : Nat) (x : Net) : State := { s with nets := Sparse.put Net.initial s.nets d x }
def State.engine (s : State) (d : Nat) : Engine := Sparse.get Engine.initial s.engines d
def State.setEngine (s : State) (d : Nat) (x : Engine) : State := { s with engines := Sparse.put Engine.initial s.engines d x }
def State.emit (s : State) (e : Emit) : State := { s with out := s.out ++ [e] }

/-- Die, block index and Lathe die of port `p` (Tables 13.1, 14.1). -/
def portDie (p : Nat) : Nat := 28 + p / 26
def portBlk (p : Nat) : Nat := p % 26
def portLathe (p : Nat) : Nat := 2 * (p / 26) + (if 13 ≤ p % 26 then 1 else 0)
/-- The 13 ports of a Lathe die (Table 13.1). -/
def portsOf (d : Nat) : List Nat := (List.range 13).map fun i => 26 * (d / 2) + 13 * (d % 2) + i
/-- Whether a port belongs to a bypass pair, and the pair's block index and number (R346, Table 14.1). -/
def isBypass (p : Nat) : Bool := decide (p % 26 < 4)
def bypBlk (p : Nat) : Nat := 0x28 + p % 26 / 2
/-- Die and block index of the engine page of a Lathe die. -/
def fpeDie (d : Nat) : Nat := 28 + d / 2
def fpeBlk : Nat := 0x20

/-- Whether a port's link is trained and the port enabled (`FPP.STAT.LINK_UP`, `FPP.CFG.EN`). -/
def State.linkUp (s : State) (p : Nat) : Bool := s.flag (portDie p) (portBlk p) 0x120 0 && s.flag (portDie p) (portBlk p) 0x104 0

/-- The ports of a die that are up and not in ring-native mode (R338). -/
def State.inService (s : State) (d : Nat) : List Nat :=
  (portsOf d).filter fun p => s.linkUp p && !(s.port p).ringNative

/-- Whether a port may send frames: not while Quiesced, nor while its die is in an engine reset (R330). -/
def State.portSends (s : State) (p : Nat) : Bool := (s.run == .startUp || s.run == .ready) && !s.resetting (portLathe p)

/-- A frame boundary of a port: its staged registers take effect (R354, R368). -/
def State.frameBoundary (s : State) (p : Nat) : State :=
  [0x104, 0x108, 0x118, 0x11C, 0x180].foldl (fun s o => s.commit (portDie p) (portBlk p) o) s

/-! ### Sending frames -/

/-- Bytes of a frame. -/
def frameByte (raw i : Nat) : Nat := raw / 2 ^ (8 * i) % 256
/-- Big-endian 16 bits of a frame at byte `i`. -/
def frameWord (raw i : Nat) : Nat := frameByte raw i * 256 + frameByte raw (i + 1)
/-- EAPOL, and PTP over L2, UDP/IPv4 and UDP/IPv6 on ports 319 and 320 (R344, R345). -/
def isEapol (raw : Nat) : Bool := frameWord raw 12 == 0x888E
def isPtp (raw : Nat) : Bool :=
  let et := frameWord raw 12
  let ptpPort (i : Nat) : Bool := frameWord raw i == 319 || frameWord raw i == 320
  et == 0x88F7 || (et == 0x0800 && frameByte raw 23 == 17 && ptpPort (14 + 4 * (frameByte raw 14 % 16) + 2)) ||
    (et == 0x86DD && frameByte raw 20 == 17 && ptpPort 56)

/-- Whether a frame passes unprotected on a port with MACsec (R344). -/
def State.passesClear (s : State) (p : Nat) (b : TxBody) : Bool :=
  match b with
  | .host _ raw => isEapol raw || (isPtp raw && s.flag (portDie p) (portBlk p) 0x180 2)
  | _ => false

/-- The endpoint address of a die (`FPE.EP_A`, `FPE.EP_B`). -/
def State.endpointAddr (s : State) (d : Nat) : Nat :=
  s.pair (fpeDie d) fpeBlk (0x120 + 16 * (d % 2)) + s.pair (fpeDie d) fpeBlk (0x128 + 16 * (d % 2)) * 2 ^ 64

/-- The UDP destination port of RoCEv2 (R341). -/
def roceUdp : Nat := 4791

/-- The addresses and marks of a frame that the hardware originates (R330, R333): the next hop, the port, its VLAN tag, `FPE.HCT.DSCP` and
ECT(0); the endpoint address of the port's die, the destination port, and the CRC-32C of HCT (R335, R336; log entry 108) or the ICRC of RoCEv2 (R341).
A host frame has its own; what else a PFC frame holds is IEEE's (R333). -/
def State.wireOf (s : State) (p : Nat) (b : TxBody) : Option Wire :=
  let z := portDie p
  let i := portBlk p
  let d := portLathe p
  let w (udp : Nat) (check : W32) : Wire :=
    { dst := s.pair z i 0x118 % 2 ^ 48, src := s.pair z i 0x110 % 2 ^ 48
      vlan := if s.flag z i 0x104 2 then some (s.fld z fpeBlk 0x104 22 3, s.fld z i 0x104 3 12) else none
      dscp := s.fld z fpeBlk 0x104 16 6, ecn := 2, endpoint := s.endpointAddr d, v4 := s.flag z fpeBlk 0x140 (d % 2), udp := udp, check := check }
  match b with
  | .host .. => none
  | .pfc .. => none
  | .hct _ _ hdr m => some (w (s.fld z fpeBlk 0x104 0 16) (hctCrc hdr m))
  | .roce peer qpn psn op key a n data bad _ => some (w roceUdp (Config.icrc [s.endpointAddr d, peer, qpn, psn, op, key, a, n, data, bad]))

/-- `n` bytes of a number, the most significant first, as fields of Ethernet and IP headers stand. -/
def wireField (n v : Nat) : List Byte := (bytesOf n v).reverse

/-- The first bytes of a frame that the hardware originates, as its injection register compares them (R353): Ethernet header with its VLAN tag, IP
and UDP headers, and for HCT the packet; a byte that the spec and the layouts of those headers leave open is one of `free` (log entry 110). -/
def wireBytes (w : Wire) (b : TxBody) (free : Nat) : List Byte :=
  let f (n i : Nat) : List Byte := bytesOf n (free / 2 ^ (8 * i))
  let (peer, body) := match b with
    | .hct dest _ hdr m => (dest % 2 ^ 128, hctBytes hdr m ++ bytesOf 4 w.check.toNat)
    | .roce peer .. => (peer % 2 ^ 128, f 128 32)
    | _ => (0, [])
  let n := body.length + 8
  let tos := 4 * w.dscp + w.ecn
  let tag := match w.vlan with
    | some (pcp, vid) => [0x81, 0x00] ++ wireField 2 (pcp * 2 ^ 13 + vid)
    | none => []
  let ip := if w.v4 then
      [0x08, 0x00, 0x45, BitVec.ofNat 8 tos] ++ wireField 2 (n + 20) ++ f 5 0 ++ [17] ++ f 2 5 ++ wireField 4 w.endpoint ++ wireField 4 peer
    else
      [0x86, 0xDD] ++ wireField 4 (6 * 2 ^ 28 + tos * 2 ^ 20 + free / 2 ^ 64 % 2 ^ 20) ++ wireField 2 n ++ [17] ++ f 1 0 ++ wireField 16 w.endpoint ++ wireField 16 peer
  wireField 6 w.dst ++ wireField 6 w.src ++ tag ++ ip ++ f 2 12 ++ wireField 2 w.udp ++ wireField 2 n ++ f 2 14 ++ body

/-- The 32 bits of a frame at a byte offset, as `INJ_VAL` is compared with them: a PFC frame's are free (R353). -/
def State.txWord (s : State) (p off : Nat) (b : TxBody) (free : Nat) : W32 :=
  match b, s.wireOf p b with
  | .host _ raw, _ => BitVec.ofNat 32 (raw / 2 ^ (8 * off))
  | _, some w => packAt (wireBytes w b free) off
  | _, none => BitVec.ofNat 32 free
where
  packAt (l : List Byte) (off : Nat) : W32 := BitVec.ofNat 32 (packBits 8 (((l.drop off).take 4).map (·.toNat)))

/-- A frame leaves a port, protected where MACsec is on (R330, R344). -/
def State.emitFrame (s : State) (p : Nat) (corrupt : Option (Nat × Bool)) (b : TxBody) : State :=
  let z := portDie p
  let i := portBlk p
  if s.flag z i 0x180 0 && !s.passesClear p b then
    let an := b2n (s.flag z i 0x180 1)
    match Sparse.get (fun _ => none) (s.port p).txSa an with
    | none => s
    | some sa =>
        if 2 ^ 64 - 1 ≤ sa.pn then s
        else
          let s := s.onPort p fun x => { x with txSa := Sparse.put (fun _ => none) x.txSa an (some { sa with pn := sa.pn + 1 }) }
          let s := if 2 ^ 62 < sa.pn then s.setFlag z i 0x120 7 true else s
          (s.bump z i 0x130 1).emit (.frame p (s.wireOf p b) (some (an, sa.pn)) corrupt b)
  else (s.bump z i 0x130 1).emit (.frame p (s.wireOf p b) none corrupt b)

/-- A frame passes the port's injection register on its way out (R353). -/
def State.txFrame (s : State) (p : Nat) (b : TxBody) : State :=
  let z := portDie p
  let i := portBlk p
  let (free, s) := match b with
    | .host .. => (0, s)
    | _ => if s.flag z i 0x200 0 then s.freeNat 1280 else (0, s)
  let (hit, s) := s.injectHit z i 0x200 0x208 0x20C 0x214 true (s.txWord p (s.fld z i 0x204 0 7) b free)
  let act := s.fld z i 0x200 1 2
  let n := s.fld z i 0x200 10 4
  if hit && act == 0 then s
  else if hit && act == 2 && n != 0 then s.onPort p fun x => { x with heldTx := x.heldTx ++ [(b, n)] }
  else
    let s := s.emitFrame p (if hit && act == 1 then some ((s.rg z i 0x210).toNat, s.flag z i 0x200 4) else none) b
    let held := (s.port p).heldTx.map fun h => (h.1, h.2 - 1)
    let s := s.onPort p fun x => { x with heldTx := held.filter fun h => h.2 != 0 }
    (held.filter fun h => h.2 == 0).foldl (fun s h => s.emitFrame p none h.1) s

/-- Whether PFC pauses a frame: HCT and RoCEv2 are of the priority, host frames never pause (R333). -/
def TxBody.pauses : TxBody → Bool
  | .host .. => false
  | .pfc .. => false
  | _ => true

/-- A frame handed to a port: lost where the port is down or idles, held while the port is paused (R330, R333, R338). -/
def State.sendFrame (s : State) (p : Nat) (b : TxBody) : State :=
  let s := s.frameBoundary p
  if !s.linkUp p || !s.portSends p then s
  else if b.pauses && s.flag (portDie p) (portBlk p) 0x120 6 then s.onPort p fun x => { x with txq := x.txq ++ [b] }
  else s.txFrame p b

/-- A pause ends: the held frames leave (R333). -/
def State.unpause (s : State) (p : Nat) : State :=
  let q := (s.port p).txq
  let s := (s.onPort p fun x => { x with txq := [], pausedTo := none }).setFlag (portDie p) (portBlk p) 0x120 6 false
  q.foldl (fun s b => s.sendFrame p b) s

/-! ### The receive buffer -/

/-- Bytes of a chunk message, padded to 8 B (R116, R336). -/
def msgSize (m : ChunkMsg) : Nat := 16 + ceilDiv m.bytes 8 * 8

/-- Bytes of a RoCEv2 packet and of an ACK in the receive buffer, as the model counts them (log entry 21). -/
def roceSize (r : RoceIn) : Nat :=
  match r.body with
  | .write _ _ n _ _ => n + 64
  | .send n _ => n + 64
  | _ => 64

/-- Bytes that wait in a port's receive buffer (R331, R333). -/
def State.bufUse (s : State) (p : Nat) : Nat :=
  let d := portLathe p
  (((s.engine d).inbox.filter fun x => x.port == p).map fun x => msgSize x.msg).sum +
    (((s.net d).roce.filter fun x => x.port == p).map fun x => roceSize x.pkt).sum +
    64 * ((s.net d).acks.filter fun x => x.port == p).length

/-- Bytes of a receive buffer, and the uses at which a pause is sent and released (Table 13.1, R333). -/
def rxBufBytes : Nat := 2097152
def pauseAt : Nat := 1572864
def releaseAt : Nat := 1048576

/-- A port pauses its peer's priority, or releases it, as its buffer fills and empties (R333). -/
def State.pfcCheck (s : State) (p : Nat) : State :=
  let use := s.bufUse p
  let x := s.port p
  let pcp := s.fld (portDie p) fpeBlk 0x104 22 3
  match x.pausing with
  | none =>
      if s.flag (portDie p) (portBlk p) 0x104 1 && decide (pauseAt ≤ use) then
        (s.setPort p { x with pausing := some pcp }).sendFrame p (.pfc pcp true)
      else s
  | some pcp => if use ≤ releaseAt then (s.setPort p { x with pausing := none }).sendFrame p (.pfc pcp false) else s

/-! ### HCT: sending -/

/-- Flows and packets that a flow table and a window hold (R337). -/
def flowTable : Nat := 4096
def hctWindow : Nat := 256

/-- The HCT header of a packet (Table 13.6). -/
def hctHeader (type count me ce rank dstCe psn : Nat) : Nat :=
  1 + type * 2 ^ 4 + count * 2 ^ 8 + me * 2 ^ 12 + ce * 2 ^ 24 + rank * 2 ^ 27 + dstCe * 2 ^ 39 + psn % 2 ^ 32 * 2 ^ 48

/-- Type and count fields of a packet's body. -/
def hctTypeCount : HctBody → Nat × Nat
  | .data ms => (0, ms.length)
  | .ack .. => (1, 0)
  | .ctrl k _ => (2, k)

def TxFlow.is (f : TxFlow) (rank ce : Nat) : Bool := f.rank == rank && f.ce == ce
def RxFlow.is (f : RxFlow) (rank ce : Nat) : Bool := f.rank == rank && f.ce == ce
/-- A sending flow, and a change of one. -/
def State.txFlow (s : State) (d rank ce : Nat) : Option TxFlow := (s.net d).tx.find? fun f => f.is rank ce
def State.onTx (s : State) (d rank ce : Nat) (g : TxFlow → TxFlow) : State :=
  let n := s.net d
  s.setNet d { n with tx := n.tx.map fun f => if f.is rank ce then g f else f }

/-- The place in the rotation of the next packet: past entropy values at rest, and past the one before on a retransmission (R338). -/
def TxFlow.nextTurn (f : TxFlow) (now : Nat) (not : Option Nat) : Nat :=
  let ok (j : Nat) : Bool := decide (Sparse.get (fun _ => 0) f.resting (j % 16) ≤ now) && not != some (j % 16)
  f.turn + ((List.range 16).find? fun i => ok (f.turn + i)).getD (if not = some (f.turn % 16) then 1 else 0)

/-- A packet sent or sent again on the flow's next entropy value and port (R338). -/
def State.sendPkt (s : State) (d rank ce : Nat) (k : HctPkt) (again : Bool) : State :=
  match s.txFlow d rank ce with
  | none => s
  | some f =>
      let j := f.nextTurn s.tick (if again then some k.entropy else none)
      let k' := { k with entropy := j % 16 }
      let s := s.onTx d rank ce fun f => { f with
        turn := j + 1, used := s.tick
        unacked := if again then f.unacked.map (fun x => if x.psn = k.psn then k' else x) else f.unacked ++ [k'] }
      let s := s.bump (fpeDie d) fpeBlk 0x1A0 1
      let s := if again then s.bump (fpeDie d) fpeBlk 0x1A8 1 else s
      match (s.inService d)[j % max 1 (s.inService d).length]? with
      | none => s
      | some p =>
          let (type, count) := hctTypeCount k.body
          s.sendFrame p (.hct k.dest (j % 16) (hctHeader type count k.me d rank ce k.psn) k.body)

/-- The kinds of messages that wait for a die's ports: control messages, chunks of reductions, chunks of gathers (R132). -/
inductive SendKind where
  | control | reduction | gather
  deriving DecidableEq, Repr

def HctMsg.kind (m : HctMsg) : SendKind :=
  match m.body with
  | .data _ => if m.gather then .gather else .reduction
  | _ => .control

/-- The first of a list's messages of a kind whose bucket was opened first (R132). -/
def firstOf (k : SendKind) (ms : List HctMsg) : Option HctMsg :=
  (ms.filter fun m => m.kind == k).foldl (fun a m =>
    match a with
    | none => some m
    | some b => if m.order < b.order then some m else some b) none

/-- The messages that share a packet with message `a`: further chunk messages of its bucket to its engine, up to 8 within the room
(R336). -/
def packWith (a : HctMsg) (room : Nat) : List HctMsg → List HctMsg → List HctMsg
  | acc, [] => acc
  | acc, m :: rest =>
      match m.body with
      | .data ms =>
          let n := (ms.map msgSize).sum
          if m.tag = a.tag ∧ m.step = a.step ∧ m.dest = a.dest ∧ m.gather = a.gather ∧ acc.length < 8 ∧ n ≤ room then
            packWith a (room - n) (acc ++ [m]) rest
          else acc
      | _ => acc

/-- Chunk messages of a body. -/
def hctMsgs : HctBody → List ChunkMsg
  | .data ms => ms
  | _ => []

/-- Bytes of an HCT packet: its header, messages and CRC-32C (R336). -/
def pktBytes : HctBody → Nat
  | .data ms => 36 + (ms.map msgSize).sum
  | .ack .. => 36
  | .ctrl .. => 68

/-- A flow's account after a packet of `n` bytes sent in tick `now` at its rate limit b_f, in ps (R339, log entry 57). -/
def TxFlow.pay (f : TxFlow) (now n : Nat) : TxFlow :=
  { f with paidTo := max f.paidTo (now * 10000) + ceilDiv (8000 * n * f.rateDen) (max 1 f.rateNum) }

/-- The port of a flow's next packet (R338). -/
def State.nextPort (s : State) (d : Nat) (f : TxFlow) : Option Nat :=
  (s.inService d)[f.nextTurn s.tick none % max 1 (s.inService d).length]?

/-- Whether a flow may send now: its window and its table have room, its packets so far have gone at its rate, and its next port is not paused: what
waits for a port waits at the engine, which serves the kinds alternately (R132, R333, R337, R339). -/
def State.mayPump (s : State) (d : Nat) (f : TxFlow) : Bool :=
  (match s.nextPort d f with | some p => !s.flag (portDie p) (portBlk p) 0x120 6 | none => true) &&
  decide (f.unacked.length < hctWindow) && decide (f.paidTo < (s.tick + 1) * 10000) &&
    decide (((s.net d).tx.takeWhile fun x => !x.is f.rank f.ce).length < flowTable)

/-- The message that an engine sends next, with its flow: while chunks of reductions and of gathers both wait, a chunk of the kind that
did not go last; within a kind, of the bucket opened first (R132). Control messages go first (log entry 74). -/
def State.nextSend (s : State) (d : Nat) : Option (TxFlow × HctMsg) :=
  let fs := (s.net d).tx.filter fun f => s.mayPump d f
  let pick (k : SendKind) : Option (TxFlow × HctMsg) :=
    match firstOf k (fs.flatMap fun f => f.waiting) with
    | none => none
    | some m => (fs.find? fun f => f.waiting.contains m).map fun f => (f, m)
  let (a, b) := if (s.net d).lastGather then (SendKind.reduction, SendKind.gather) else (SendKind.gather, SendKind.reduction)
  match pick .control with
  | some x => some x
  | none => match pick a with | some x => some x | none => pick b

/-- Waiting messages of an engine's flows sent while their windows and their table allow (R132, R336, R337): one chunk a packet while
the other kind waits too, else up to 8 of a bucket. -/
def State.pump (s : State) (d : Nat) : (fuel : Nat) → State
  | 0 => s
  | fuel + 1 =>
      match s.nextSend d with
      | none => s
      | some (f, m) =>
          if s.run = .quiesced then s
          else
            let p := (s.nextPort d f).getD (26 * (d / 2))
            let mtu := s.fld (portDie p) (portBlk p) 0x108 0 14
            let head := 8 + 32 + 4 + (if s.flag (fpeDie d) fpeBlk 0x140 (d % 2) then 20 else 40) +
              (if s.flag (portDie p) (portBlk p) 0x180 0 then 32 else 0)
            let both := ((s.net d).tx.any fun f => s.mayPump d f && f.waiting.any fun x => x.kind == .gather) &&
              ((s.net d).tx.any fun f => s.mayPump d f && f.waiting.any fun x => x.kind == .reduction)
            let later := (f.waiting.erase m).filter fun x => x.tag == m.tag && x.step == m.step && x.dest == m.dest
            let now := match m.body with
              | .data ms => if both then [m] else packWith m (mtu - head - (ms.map msgSize).sum) [m] later
              | _ => [m]
            let body := match m.body with | .data _ => .data (now.flatMap fun x => hctMsgs x.body) | b => b
            let k : HctPkt := { psn := f.next, dest := m.dest, me := m.me, body := body, first := s.tick }
            let s := s.onTx d f.rank f.ce fun f =>
              { f.pay s.tick (pktBytes body) with next := f.next + 1, waiting := now.foldl (fun l x => l.erase x) f.waiting }
            let s := if m.kind = .control then s else s.setNet d { s.net d with lastGather := m.gather }
            State.pump (s.sendPkt d f.rank f.ce k false) d fuel

/-- Packets that a pump sends at most: one for each waiting message. -/
def State.pumpAll (s : State) (d : Nat) : State := s.pump d ((s.net d).tx.map fun f => f.waiting.length).sum

/-- Flows whose rate limit held messages back send in the ticks in which it lets them (R339). -/
def State.pumpTick (s : State) : State :=
  s.nets.foldl (fun s n => if n.2.tx.any fun f => f.waiting != [] then s.pumpAll n.1 else s) s

/-- A message handed to HCT by engine `d` for engine `ce` of a rank (R335, R337, R339). -/
def State.hctSend (s : State) (d rank ce : Nat) (m : HctMsg) : State :=
  let s := match s.txFlow d rank ce with
    | some _ => s
    | none =>
        let n := s.net d
        let f : TxFlow := { rank := rank, ce := ce, rateNum := s.fld (fpeDie d) fpeBlk 0x108 0 11, calmFrom := s.tick, used := s.tick }
        s.setNet d { n with tx := n.tx ++ [f] }
  (s.onTx d rank ce fun f => { f with waiting := f.waiting ++ [m] }).pumpAll d

end Sys2Proof.Machine
end

