-- ==== Sys2Proof/Machine/Collective.lean ====
section
/-!
DEFINITION. Collective engines: buckets, pushes, Grain-32, the tree, the BF16 fall-back, gathers (chapter 5; R246, R421).
-/
namespace Sys2Proof.Machine

/-- Block index of a collective engine's page, and its requester index (Tables 14.1, 9.3). -/
def ceBlk : Nat := 0x70
def ceWho : Nat := 32

/-- Whether collective engines act: not while Quiesced (R407, R409). -/
def State.ceRuns (s : State) : Bool := s.run == .startUp || s.run == .ready

/-! ### The descriptor -/

/-- Fields of a bucket descriptor (Table 5.1). -/
def descTag (w : Nat) : Nat := bitsOf w 0 16
def descSlot (w : Nat) : Nat := bitsOf w 16 10
def Bucket.tag (b : Bucket) : Nat := descTag b.desc
def Bucket.slot (b : Bucket) : Nat := descSlot b.desc
def Bucket.chunkCount (b : Bucket) : Nat := bitsOf b.desc 32 32 / 256
def Bucket.policy (b : Bucket) : Nat := bitsOf b.desc 64 2
def Bucket.stripes (b : Bucket) : Nat := bitsOf b.desc 66 3 + 1
def Bucket.margin (b : Bucket) : Nat := bitsOf b.desc 69 4
def Bucket.contrib (b : Bucket) : Nat := bitsOf b.desc 73 8
def Bucket.lead (b : Bucket) : Nat := bitsOf b.desc 81 3
def Bucket.rootOnly (b : Bucket) : Bool := bitOf b.desc 84
def Bucket.ranks (b : Bucket) : Nat := bitsOf b.desc 86 12 + 1
def Bucket.myRank (b : Bucket) : Nat := bitsOf b.desc 98 12
def Bucket.rot (b : Bucket) : Nat := bitsOf b.desc 110 12
def Bucket.rankTab (b : Bucket) : Nat := bitsOf b.desc 160 48
def Bucket.scaleOff (b : Bucket) : Nat := bitsOf b.desc 224 36
def Bucket.retOff (b : Bucket) : Nat := bitsOf b.desc 288 36
def Bucket.resultOff (b : Bucket) : Nat := bitsOf b.desc 352 36
def Bucket.destMask (b : Bucket) : Nat := bitsOf b.desc 388 8
def Bucket.doneSlot (b : Bucket) : Nat := bitsOf b.desc 416 16
def Bucket.limit (b : Bucket) : Nat := bitsOf b.desc 448 32

/-- Set bits of an 8-bit mask below bit `n`. -/
def onesBelow (m n : Nat) : Nat := ((List.range n).filter fun i => bitOf m i).length
/-- c: contributing dies (R110). -/
def Bucket.contribs (b : Bucket) : Nat := onesBelow b.contrib 8

/-- Whether a descriptor is invalid: a reserved bit, a range of Table 5.1, a rank above `NRANKS_M1`, `POLICY` 3 with n > 1
(R112). -/
def descBad (w : Nat) : Bool :=
  let reserved := [(26, 6), (85, 1), (122, 38), (208, 16), (260, 28), (324, 28), (396, 20), (432, 16), (480, 32)]
  let elems := bitsOf w 32 32
  let top := bitsOf w 86 12
  (reserved.any fun r => bitsOf w r.1 r.2 != 0) || elems % 256 != 0 || decide (elems < 256) || decide (16777216 < elems) ||
    bitsOf w 73 8 == 0 || decide (top < bitsOf w 98 12) || decide (top < bitsOf w 110 12) || (bitsOf w 64 2 == 3 && top != 0)

/-- One bit into the CRC-16 register (R111). -/
def crc16Bit (c : Nat) (b : Bool) : Nat :=
  let c2 := c * 2 % 65536
  if bitOf c 15 != b then c2 ^^^ 0x1021 else c2
/-- CRC-16 with polynomial 0x1021 and initial value 0xFFFF over bytes, most significant bit first (R111). -/
def crc16 (bs : List Byte) : Nat :=
  bs.foldl (fun c b => (List.range 8).foldl (fun c i => crc16Bit c (bitOf b.toNat (7 - i))) c) 0xFFFF

/-- The descriptor digest: the per-rank fields count as zero (R111). -/
def descDigest (w : Nat) : Nat :=
  crc16 (bytesOf 64 ([(16, 10), (98, 12), (160, 48), (224, 36), (288, 36), (352, 36), (388, 8), (416, 16), (448, 32)].foldl
    (fun w r => withBits w r.1 r.2 0) w))

/-- Stripe and stripe die of a chunk (R113). -/
def Bucket.stripe (b : Bucket) (k : Nat) : Nat := k % b.stripes
def Bucket.stripeDie (b : Bucket) (k : Nat) : Nat := (b.lead + b.stripe k) % 8

/-- The dies whose engines take part in a bucket (R112). -/
def Bucket.dies (b : Bucket) : List Nat :=
  (List.range 8).filter fun d => bitOf b.contrib d || decide ((d + 8 - b.lead) % 8 < b.stripes)

/-- Chunks that the engine of die `d` serves as stripe engine (R113). -/
def Bucket.chunksOf (b : Bucket) (d : Nat) : Nat :=
  let j := (d + 8 - b.lead) % 8
  if j < b.stripes ∧ j < b.chunkCount then (b.chunkCount - j - 1) / b.stripes + 1 else 0

/-- The stripe `j` that die `d` serves. -/
def Bucket.stripeOf (b : Bucket) (d : Nat) : Nat := (d + 8 - b.lead) % 8

/-! ### The tree -/

/-- Position of a rank in stripe `j`'s tree, and rank at a position (R123). -/
def Bucket.posOf (b : Bucket) (j rank : Nat) : Nat :=
  let r := (rank + b.ranks - b.rot) % b.ranks
  if r = 0 then 0 else 1 + (r - 1 + (b.ranks - 1) * 8 - j) % (b.ranks - 1)
def Bucket.rankAt (b : Bucket) (j pos : Nat) : Nat :=
  if pos = 0 then b.rot else (b.rot + 1 + (pos - 1 + j) % (b.ranks - 1)) % b.ranks
/-- This rank's position, its parent, its children (R123). -/
def Bucket.pos (b : Bucket) (j : Nat) : Nat := b.posOf j b.myRank
def Bucket.isRoot (b : Bucket) (j : Nat) : Bool := b.pos j == 0
def Bucket.children (b : Bucket) (j : Nat) : List Nat :=
  let p := b.pos j
  [2 * p + 1, 2 * p + 2].filter fun c => decide (c < b.ranks)
/-- Which child a rank is: 0 or 1; none for another rank. -/
def Bucket.childOf (b : Bucket) (j rank : Nat) : Option Nat :=
  ((b.children j).find? fun c => b.rankAt j c == rank).map fun c => c - (2 * b.pos j + 1)

/-! ### State of a bucket -/

/-- The open bucket of a tag and step at an engine. -/
def State.bucket (s : State) (d tag step : Nat) : Option Bucket :=
  (s.engine d).buckets.find? fun b => b.tag == tag && b.step == step
/-- A change of that bucket. -/
def State.onBucket (s : State) (d : Nat) (b : Bucket) (f : Bucket → Bucket) : State :=
  let e := s.engine d
  s.setEngine d { e with buckets := e.buckets.map fun x => if x.tag = b.tag ∧ x.step = b.step then f x else x }

def chunk0 (_ : Nat) : CeChunk := {}
def group0 (_ : Nat) : CGroup := {}
/-- Chunk `k` of a bucket as it stands now. -/
def State.chunk (s : State) (d : Nat) (b : Bucket) (k : Nat) : CeChunk :=
  match s.bucket d b.tag b.step with
  | some x => Sparse.get chunk0 x.chunks k
  | none => { phase := .done }
def State.onChunk (s : State) (d : Nat) (b : Bucket) (k : Nat) (f : CeChunk → CeChunk) : State :=
  s.onBucket d b fun x => { x with chunks := Sparse.put chunk0 x.chunks k (f (Sparse.get chunk0 x.chunks k)) }
/-- Group `u` of a bucket as it stands now. -/
def State.cgroup (s : State) (d : Nat) (b : Bucket) (u : Nat) : CGroup :=
  match s.bucket d b.tag b.step with
  | some x => Sparse.get group0 x.groups u
  | none => {}
def State.onGroup (s : State) (d : Nat) (b : Bucket) (u : Nat) (f : CGroup → CGroup) : State :=
  s.onBucket d b fun x => { x with groups := Sparse.put group0 x.groups u (f (Sparse.get group0 x.groups u)) }

/-- The group of a chunk, its place in it, and the chunks of a group of stripe `j` (R120). -/
def Bucket.groupOf (b : Bucket) (k : Nat) : Nat := k / b.stripes / 1024
def Bucket.placeOf (b : Bucket) (k : Nat) : Nat := k / b.stripes % 1024
def Bucket.groupChunks (b : Bucket) (j u : Nat) : List Nat :=
  ((List.range 1024).map fun i => j + b.stripes * (1024 * u + i)).filter fun k => decide (k < b.chunkCount)

/-- `CE.OPEN` and `CE.PARK` show the engine (Table 5.12). -/
def Engine.parkUse (e : Engine) : Nat := (e.parked.map parkedSize).sum
def Engine.netUse (e : Engine) : Nat := (e.netParked.map fun m => msgSize m.msg).sum
def State.ceShow (s : State) (d : Nat) : State :=
  let e := s.engine d
  (s.setRg d ceBlk 0x104 (BitVec.ofNat 32 e.buckets.length)).setRg d ceBlk 0x10C (BitVec.ofNat 32 (min 256 e.parkUse + e.netUse / 1024 * 2 ^ 9))

/-- An error of an engine: uncontained, with slot, tag, chunk and step, and the descriptor's address where it could not be read; of event class 4
where it has consumed poison (R135, R322, Table 16.5). -/
def State.ceError (s : State) (d bit slot tag chunk step addr : Nat) (ev : Nat := 0) : State :=
  (s.errBit d ceBlk bit).event d ceBlk 2 ev 1 bit (slot + tag * 2 ^ 10 + chunk % 2 ^ 16 * 2 ^ 26 + step * 2 ^ 42 + addr * 2 ^ 74)
def State.bucketError (s : State) (d bit : Nat) (b : Bucket) (k : Nat) : State := s.ceError d bit b.slot b.tag k b.step 0

/-! ### Memory of the engine -/

/-- Whether an address lies in Heartwood. -/
def inHeartwood (a : Nat) : Bool := match regionOf a with | .heartwood _ => true | _ => false

/-- Requests of the engine of die `d` to memory: requester 32 there, in one queue (R229, R230). -/
def ceReq (d : Nat) (write : Bool) (data poison : Nat) : MemReq :=
  { id := 0, die := d, requester := ceWho, lane := 0, addr := 0, units := 0, write := write, data := data, poison := poison, left := 0 }

/-- `n` bytes read at `a` (R30, R226). -/
def State.ceRead (s : State) (d a n : Nat) : Span × State := s.ask (ceReq d false 0 0) a n

/-- `n` bytes written at `a`, where that is Heartwood; `bad` is the poison of their 64 B units (R30, R226, R313). -/
def State.ceWrite (s : State) (d a n data bad : Nat) : Span × State :=
  if inHeartwood a && inHeartwood (a + n - 1) then s.ask (ceReq d true data bad) a n else ({}, s)

/-- An engine goes on with `act` once what it has asked of memory has been served. -/
def State.addJob (s : State) (d : Nat) (spans : List Span) (act : CeAct) : State :=
  s.setEngine d { s.engine d with jobs := (s.engine d).jobs ++ [⟨spans, act⟩] }

/-- Heartwood base of a Lathe die (R110). -/
def dieBase (d : Nat) : Nat := d * 2 ^ 36

/-- Retention address of contribution `i` of chunk `k` (R115). -/
def Bucket.retAddr (b : Bucket) (d k i : Nat) : Nat := dieBase d + b.retOff + (k / b.stripes * b.contribs + i) * 1024

/-- 256 values of 1,024 B. -/
def valuesOf (n : Nat) : List W32 := (List.range 256).map fun e => BitVec.ofNat 32 (elemAt 32 n e)

/-- Whether the engine holds a bucket's contributions itself: under `POLICY` 3 there is no retention (Table 5.2), and `POLICY` 1 takes them as they
land, without reading the retention area (R127). -/
def Bucket.holds (b : Bucket) : Bool := b.policy == 1 || b.policy == 3

/-- The contributions of a chunk that the engine holds itself. -/
def State.heldValues (s : State) (d : Nat) (b : Bucket) (k : Nat) : List (List W32) :=
  (List.range b.contribs).map fun i => (List.range 256).map fun e => Sparse.get (fun _ => 0) (s.chunk d b k).held (256 * i + e)

/-- The retained contributions of a chunk read (R115). -/
def State.readRetained (s : State) (d : Nat) (b : Bucket) (k : Nat) : List Span × State :=
  (List.range b.contribs).foldl (fun a i => (let (x, s) := a.2.ceRead d (b.retAddr d k i) 1024; (a.1 ++ [x], s))) ([], s)

/-- Scale byte of a chunk (R117). -/
def Bucket.scaleAddr (b : Bucket) (d k : Nat) : Nat := dieBase d + b.scaleOff + k / b.stripes

/-- A chunk's result written on every die of `DEST_MASK` (R124). -/
def State.writeResult (s : State) (d : Nat) (b : Bucket) (k data : Nat) : List Span × State :=
  ((List.range 8).filter fun z => bitOf b.destMask z).foldl (fun a z =>
    (let (x, s) := a.2.ceWrite d (dieBase z + b.resultOff + k * 1024) 1024 data 0; (a.1 ++ [x], s))) ([], s)

/-! ### Chunk messages -/

/-- Fields of a chunk header (Table 5.5). -/
def chunkHdr (m : ChunkMsg) (lo len : Nat) : Nat := bitsOf m.hdr.toNat lo len
def hdrFlag (m : ChunkMsg) (i : Nat) : Bool := bitOf m.hdr.toNat i

/-- Flags of a header to be sent. -/
structure HdrFlags where
  exp : Nat := 0
  ovf : Bool := false
  special : Bool := false
  fmt : Bool := false
  redo : Bool := false
  down : Bool := false
  hdrOnly : Bool := false
  prepass : Bool := false
  version : Nat := 0
  deriving DecidableEq, Repr

/-- The header of a message about chunk `k` (Table 5.5). -/
def Bucket.header (b : Bucket) (k : Nat) (f : HdrFlags) : BitVec 128 :=
  BitVec.ofNat 128 (f.exp % 256 + b2n f.ovf * 2 ^ 8 + b2n f.special * 2 ^ 9 + b2n f.fmt * 2 ^ 10 + b2n f.redo * 2 ^ 11 +
    b2n f.down * 2 ^ 12 + b2n f.hdrOnly * 2 ^ 13 + b2n f.prepass * 2 ^ 14 + b.tag * 2 ^ 16 + b.step * 2 ^ 32 +
    k % 2 ^ 16 * 2 ^ 64 + b.stripe k * 2 ^ 80 + f.version * 2 ^ 84 + descDigest b.desc * 2 ^ 112)

/-- A message about chunk `k` sent to a position of its tree: the engine of the same die of the rank there, once the endpoint record of that rank has
been read (R110, R113, R123). -/
def State.sendChunk (s : State) (d : Nat) (b : Bucket) (k pos : Nat) (f : HdrFlags) (data bytes : Nat) : State :=
  let rank := b.rankAt (b.stripe k) pos
  let (x, s) := s.ceRead d (b.rankTab + 256 * rank + 32 * d) 32
  s.addJob d [x] (.send rank
    { tag := b.tag, step := b.step, dest := 0, me := b.myRank, body := .data [{ hdr := b.header k f, data := data, bytes := bytes }]
      gather := b.policy == 2, order := b.order })

/-- A message sent to every child. -/
def State.sendDown (s : State) (d : Nat) (b : Bucket) (k : Nat) (f : HdrFlags) (data bytes : Nat) : State :=
  (b.children (b.stripe k)).foldl (fun s c => s.sendChunk d b k c { f with down := true } data bytes) s

/-! ### Completion -/

/-- A completion signalled by an engine to a board (R124, R155). -/
def State.ceSignal (s : State) (d die addr : Nat) : State :=
  let m : WMsg := { dst := 4 * die + slotQuarter addr, src := 0x20 + d, len := 0, type := 2, arg := addr, count := 1, payload := [],
                    idx := 24 + d, die := d }
  { s with whittle := s.whittle ++ [m] }

/-- Whether a chunk's result or scale byte has arrived here (R124). -/
def CeChunk.over (c : CeChunk) : Bool := c.phase == .writing || c.phase == .done

/-- KiB of retention that a chunk holds at its engine (R115, R124). -/
def CeChunk.retains (c : CeChunk) : Nat := if c.over then 0 else (c.got.filter fun g => g.2 != 0).length
/-- KiB of retention that a bucket's chunks hold at an engine. -/
def Bucket.retained (b : Bucket) : Nat := if b.policy = 3 then 0 else (b.chunks.map fun c => c.2.retains).sum

/-- `CE.RET_USE` less what is released. -/
def State.releaseRet (s : State) (d n : Nat) : State := s.setRg d ceBlk 0x108 (s.rg d ceBlk 0x108 - BitVec.ofNat 32 n)

/-- A bucket closes on every engine, and what its chunks still retain there is released (R112, R124, R404). -/
def State.closeBucket (s : State) (tag step : Nat) : State :=
  (List.range 8).foldl (fun s d =>
    let e := s.engine d
    let (gone, kept) := e.buckets.partition fun b => b.tag == tag && b.step == step
    let s := s.setEngine d { e with buckets := kept, refused := e.refused.filter fun r => r != (tag, step) }
    (s.releaseRet d (gone.map Bucket.retained).sum).ceShow d) s

/-- Whether every engine that takes part in a bucket has opened it and, as a stripe engine, finished its chunks; one that serves no chunk may have
refused it (R112). -/
def State.bucketDone (s : State) (b : Bucket) : Bool :=
  b.dies.all fun d =>
    match s.bucket d b.tag b.step with
    | some x => decide (x.finished = b.chunksOf d)
    | none => b.chunksOf d == 0 && (s.engine d).refused.contains (b.tag, b.step)

/-- A bucket that is done closes (R112, R124). -/
def State.closeIfDone (s : State) (b : Bucket) : State := if s.bucketDone b then s.closeBucket b.tag b.step else s

/-- A chunk's result or scale byte has reached this rank: its retention is released, and it is finished once its writes are done (R124). -/
def State.endChunk (s : State) (d : Nat) (b : Bucket) (k : Nat) (writes : List Span) (act : CeAct) : State :=
  let c := s.chunk d b k
  let s := if b.policy = 3 then s else s.releaseRet d c.retains
  (s.onChunk d b k fun c => { phase := .writing, got := c.got }).addJob d writes act

/-- A chunk's result is written or its scale byte received: after the last chunk of the engine `DONE_SLOT` is signalled, and after the last of the
module the bucket closes (R124). -/
def State.finishChunk (s : State) (d : Nat) (b : Bucket) (k : Nat) : State :=
  if (s.chunk d b k).phase = .done then s
  else
    let s := (s.onChunk d b k fun c => { c with phase := .done }).onBucket d b fun x => { x with finished := x.finished + 1 }
    match s.bucket d b.tag b.step with
    | none => s
    | some x =>
        if x.finished ≠ b.chunksOf d then s
        else
          let dests := (List.range 8).filter fun z => bitOf b.destMask z
          let s := (if dests = [] then [b.lead] else dests).foldl (fun s z => s.ceSignal d z b.doneSlot) s
          s.closeIfDone b

/-! ### Scale bytes -/

/-- ⌊log₂ max|y|⌋ + 1 over the finite nonzero values, clamped (R119). -/
def scaleOf (ys : List W32) : Int :=
  match maxLead (ys.map f32) with
  | some m => max (-127) (min 127 (m + 1))
  | none => -127

/-- Bytes of a group's messages (R120). -/
def Bucket.groupSize (b : Bucket) (d u : Nat) : Nat := ceilDiv (b.groupChunks (b.stripeOf d) u).length 8 * 8

/-- First chunk of a group: what its messages name (R120). -/
def Bucket.groupFirst (b : Bucket) (d u : Nat) : Nat := b.stripeOf d + b.stripes * (1024 * u)

/-- The scale byte that a chunk's result gives; a base above 127 has no byte and is free (R119). -/
def State.newScale (s : State) (d : Nat) (b : Bucket) (k : Nat) (ys : List W32) (fall : Bool) : Nat × State :=
  let m := scaleOf ys
  let m := if fall then max m ((s.chunk d b k).base + 2) else m
  if m ≤ 127 then ((m + 127).toNat, s) else s.freeNat 8

/-- A chunk's scale byte written; only `POLICY` 0 has forecasts (R119, Table 5.2). -/
def State.writeScale (s : State) (d : Nat) (b : Bucket) (k v : Nat) : List Span × State :=
  if b.policy = 0 then (let (x, s) := s.ceWrite d (b.scaleAddr d k) 1 v 0; ([x], s)) else ([], s)

/-- With `RESULT` = 1 the root sends a group's new scale bytes down once it has formed them all (R119, R120). -/
def State.rootScales (s : State) (d : Nat) (b : Bucket) (k v : Nat) : State :=
  if b.rootOnly && b.isRoot (b.stripe k) then
    let u := b.groupOf k
    let s := s.onGroup d b u fun g => { g with closed := Sparse.put (fun _ => none) g.closed k (some v) }
    let ks := b.groupChunks (b.stripe k) u
    let bytes := ks.filterMap fun k => Sparse.get (fun _ => none) (s.cgroup d b u).closed k
    if bytes.length = ks.length then s.sendDown d b (b.groupFirst d u) { prepass := true } (packBits 8 bytes) (b.groupSize d u) else s
  else s

/-! ### Results -/

/-- A chunk's 256 values become the result here: written, except with `RESULT` = 1 away from the root, with the scale byte that they give, and the
chunk is finished (R119, R124). -/
def State.resultHere (s : State) (d : Nat) (b : Bucket) (k : Nat) (ys : List W32) (fall : Bool) : State :=
  let (ws, s) := if b.rootOnly && !b.isRoot (b.stripe k) then ([], s) else s.writeResult d b k (packBits 32 (ys.map BitVec.toNat))
  let (v, s) := s.newScale d b k ys fall
  let (w, s) := s.writeScale d b k v
  (s.rootScales d b k v).endChunk d b k (ws ++ w) (.written b.tag b.step k)

/-- A Grain-32 sum with its forecast exponent becomes the result here (R118, R119, R124). -/
def State.grainDown (s : State) (d : Nat) (b : Bucket) (k : Nat) (sum : List Int) (f : Int) : State :=
  let s := if b.rootOnly then s
    else s.sendDown d b k { exp := (f + 127).toNat } (packBits 32 (sum.map fun z => fromSigned 32 z)) 1024
  (s.bump d ceBlk 0x120 1).resultHere d b k (sum.map fun z => toF32 .rne (ofInt z (f - 31))) false

/-- A BF16 result, 512 B, becomes the result here, widened (R119, R127). -/
def State.bfDown (s : State) (d : Nat) (b : Bucket) (k data : Nat) : State :=
  let s := if b.rootOnly then s else s.sendDown d b k { fmt := true } data 512
  s.resultHere d b k ((List.range 256).map fun e => BitVec.ofNat 32 (elemAt 16 data e * 65536)) true

/-- An FP32 value rounded to BF16 and widened (R127). -/
def viaBf16 (w : W32) : W32 := BitVec.ofNat 32 (toFloat fmtBF16 false .rne (f32 w) * 65536)

/-- One element of the fall-back sum: own contributions in ascending die, then the children (R127). -/
def bfElement (own : List W32) (kids : List W32) : W32 :=
  viaBf16 (kids.foldl fadd (viaBf16 (own.foldl fadd 0#32)))

/-- A poisoned contribution was to be read: the chunk never completes (R115). -/
def State.poisonIn (s : State) (d : Nat) (b : Bucket) (k : Nat) : State :=
  (s.onChunk d b k fun c => { c with phase := .stuck }).ceError d 5 b.slot b.tag k b.step 0 4

/-- The BF16 sum leaves once the own values and every child's are present (R127). -/
def State.bfTry (s : State) (d : Nat) (b : Bucket) (k : Nat) : State :=
  let c := s.chunk d b k
  let kids := (b.children (b.stripe k)).length
  let have_ := (List.range kids).filterMap fun i => Sparse.get (fun _ => none) c.bf i
  match c.vals with
  | none => s
  | some own =>
      if c.phase ≠ .redo ∨ c.sentBf = true ∨ have_.length < kids then s
      else
        let out := (List.range 256).map fun e =>
          bfElement (own.map fun l => l.getD e 0#32) (have_.map fun n => BitVec.ofNat 32 (elemAt 16 n e * 65536))
        let data := packBits 16 (out.map fun w => w.toNat / 65536)
        let s := s.onChunk d b k fun c => { c with sentBf := true }
        if b.isRoot (b.stripe k) then s.bfDown d b k data
        else s.sendChunk d b k ((b.pos (b.stripe k) - 1) / 2) { fmt := true } data 512

/-- Contributions for the BF16 reduction are there, or some are poisoned (R115, R127). -/
def State.bfValues (s : State) (d : Nat) (b : Bucket) (k : Nat) (cs : List (List W32)) (bad : Bool) : State :=
  if bad then s.poisonIn d b k else (s.onChunk d b k fun c => { c with vals := some cs }).bfTry d b k

/-- An entry of the fall-back log (R421): `HEAD` counts it once it is written. -/
def State.fbLog (s : State) (d : Nat) (b : Bucket) (k : Nat) : State :=
  let n := s.fld d ceBlk 0x188 0 16
  let next := s.rg d ceBlk 0x18C + BitVec.ofNat 32 ((s.engine d).jobs.filter fun j => j.act == .logged).length
  let tail := s.rg d ceBlk 0x190
  let a := s.pair d ceBlk 0x180 + 8 * (next.toNat % max 1 n)
  if n = 0 ∨ n ≤ (next - tail).toNat ∨ inHeartwood a = false then s.setFlag d ceBlk 0x194 0 true
  else (let (x, s) := s.ceWrite d a 8 (b.tag + k % 2 ^ 16 * 2 ^ 16 + b.step * 2 ^ 32) 0; s.addJob d [x] .logged)

/-- A REDO received, or sent by the root: the chunk's contributions are read again from retention (R126, R127, R421). -/
def State.redo (s : State) (d : Nat) (b : Bucket) (k : Nat) : State :=
  let c := s.chunk d b k
  if c.phase = .redo ∨ c.phase = .stuck ∨ c.over = true then s
  else
    let s := ((s.onChunk d b k fun c => { c with phase := .redo, vals := none }).fbLog d b k).bump d ceBlk 0x130 1
    let s := s.sendDown d b k { redo := true, fmt := true, hdrOnly := true } 0 0
    let (xs, s) := s.readRetained d b k
    s.addJob d xs (.redo b.tag b.step k)

/-! ### Grain-32 upward -/

/-- Integers added one after another; none once a sum leaves ±2^31 (R124). -/
def addInts (a b : List Int) : Option (List Int) :=
  let l := a.zipWith (· + ·) b
  if l.all fun z => decide (-2147483648 ≤ z) && decide (z < 2147483648) then some l else none

/-- Elements of a Grain-32 message (R116). -/
def grainInts (m : ChunkMsg) : List Int := (List.range 256).map fun e => toSigned 32 (elemAt 32 m.data e)

/-- A position's Grain sum, or overflow, leaves once its own sum and every child's message are present (R124, R126). -/
def State.upTry (s : State) (d : Nat) (b : Bucket) (k : Nat) : State :=
  let c := s.chunk d b k
  let j := b.stripe k
  let kids := (b.children j).length
  let ms := (List.range kids).filterMap fun i => Sparse.get (fun _ => none) c.up i
  if c.phase ≠ .grain ∨ c.sentUp = true ∨ ms.length < kids then s
  else
    let s := s.onChunk d b k fun c => { c with sentUp := true }
    let overflowed := c.ovf || ms.any fun m => hdrFlag m 8
    let special := c.special || ms.any fun m => hdrFlag m 9
    let sum := if overflowed then none else ms.foldl (fun a m => a.bind fun l => addInts l (grainInts m)) (some c.own)
    let s := if overflowed || sum.isSome then s else s.bump d ceBlk 0x128 1
    match sum with
    | none =>
        if b.isRoot j then s.redo d b k
        else s.sendChunk d b k ((b.pos j - 1) / 2) { ovf := true, special := special, hdrOnly := true } 0 0
    | some l =>
        if b.isRoot j then s.grainDown d b k l c.fexp
        else s.sendChunk d b k ((b.pos j - 1) / 2) { exp := (c.fexp + 127).toNat } (packBits 32 (l.map fun z => fromSigned 32 z)) 1024

/-- ⌈log₂ n⌉. -/
def clog2 (n : Nat) : Nat := if n ≤ 1 then 0 else Nat.log2 (n - 1) + 1

/-- g + h of a bucket, and the forecast exponent of a base (R117). -/
def Bucket.headroom (b : Bucket) : Nat := clog2 b.ranks + 1 + clog2 b.contribs
def Bucket.forecast (b : Bucket) (m : Int) : Int := min 127 (m + b.margin + b.headroom)

/-- The integer of a contribution under a forecast; none where it is beyond its limit, NaN or infinite (R117, R118). -/
def grainOf (f : Int) (headroom : Nat) (w : W32) : Option Int :=
  match f32 w with
  | .fin neg mag e =>
      if mag = 0 then some 0
      else if (leadBit mag : Int) + e < f - headroom then
        let n : Int := ((roundUnits .rne mag (e + 31 - f) 0 : Nat) : Int)
        some (if neg then -n else n)
      else none
  | _ => none

/-- The exact sum of contributions as integers; none where one does not convert. -/
def grainSum (f : Int) (headroom : Nat) (cs : List (List W32)) : Option (List Int) :=
  cs.foldl (fun a c => a.bind fun l => (c.mapM fun w => grainOf f headroom w).map fun n => l.zipWith (· + ·) n)
    (some (List.replicate 256 0))

/-- A chunk with a base is converted, or found to overflow (R118, R122, R126). -/
def State.convert (s : State) (d : Nat) (b : Bucket) (k : Nat) (m : Int) (cs : List (List W32)) : State :=
  let f := b.forecast m
  let sum := grainSum f b.headroom cs
  let s := if sum.isNone then s.bump d ceBlk 0x128 1 else s
  (s.onChunk d b k fun c => { c with phase := .grain, base := m, fexp := f, ovf := sum.isNone, own := sum.getD [], vals := none }).upTry d b k

/-! ### Prepass -/

/-- A group's prepass bytes have come back from the root: its chunks convert (R120). -/
def State.prepassDown (s : State) (d : Nat) (b : Bucket) (u data : Nat) : State :=
  let s := s.onGroup d b u fun g => { g with got := true }
  let s := s.sendDown d b (b.groupFirst d u) { prepass := true } data (b.groupSize d u)
  (b.groupChunks (b.stripeOf d) u).foldl (fun s k =>
    let c := s.chunk d b k
    if c.phase = .prepass then s.convert d b k ((elemAt 8 data (b.placeOf k) : Nat) - 127) (c.vals.getD []) else s) s

/-- A group's prepass leaves once the own byte of every chunk and every child's bytes are present; the byte of a chunk with a forecast is
free, and nobody uses it (R120). -/
def State.groupTry (s : State) (d : Nat) (b : Bucket) (u : Nat) : State :=
  let g := s.cgroup d b u
  let j := b.stripeOf d
  let ks := b.groupChunks j u
  let kids := (b.children j).length
  let cs := (List.range kids).filterMap fun i => Sparse.get (fun _ => none) g.child i
  let own := ks.filterMap fun k => (Sparse.get (fun _ => none) g.own k).map fun v => (k, v)
  if g.sent || !g.pre || decide (cs.length < kids) || decide (own.length < ks.length) then s
  else
    let data := packBits 8 (own.map fun p => cs.foldl (fun m c => max m (elemAt 8 c (b.placeOf p.1))) p.2)
    let s := s.onGroup d b u fun g => { g with sent := true }
    if b.isRoot j then s.prepassDown d b u data
    else s.sendChunk d b (b.groupFirst d u) ((b.pos j - 1) / 2) { prepass := true } data (b.groupSize d u)

/-! ### Conversion -/

/-- Whether an earlier step's result for chunk `k` has yet to update the scale byte (R121). -/
def State.forecastWaits (s : State) (d : Nat) (b : Bucket) (k : Nat) : Bool :=
  b.policy == 0 && (s.engine d).buckets.any fun x =>
    x.tag == b.tag && decide (x.step < b.step) && x.policy == 0 && decide (k < x.chunkCount) && (s.chunk d x k).phase != .done

/-- Whether all contributions of a chunk have arrived (R115). -/
def State.chunkFull (s : State) (d : Nat) (b : Bucket) (k : Nat) : Bool :=
  (List.range b.contribs).all fun i => Sparse.get nat0 (s.chunk d b k).got i == 2 ^ 256 - 1

/-- A chunk whose contributions, and under `POLICY` 0 its scale byte, the engine has: it starts on its policy's way (R115, R118, R120, R122, R127, Table
5.2). The sum of `POLICY` 3 starts from +0, as R127's does: Table 5.2 does not say from what it starts (DESIGN CHOICE, log entry 76). -/
def State.chunkHere (s : State) (d : Nat) (b : Bucket) (k : Nat) (cs : List (List W32)) (bad : Bool) (scale : Nat) : State :=
  if bad then s.poisonIn d b k
  else
    let special := cs.any fun c => c.any fun w => (f32 w).isNan || (f32 w).isInf
    let s := if special then (s.onChunk d b k fun c => { c with special := true }).bump d ceBlk 0x148 1 else s
    if b.policy = 3 then
      let ys := (List.range 256).map fun e => (cs.map fun l => l.getD e 0#32).foldl fadd 0#32
      let (ws, s) := s.writeResult d b k (packBits 32 (ys.map BitVec.toNat))
      s.endChunk d b k ws (.written b.tag b.step k)
    else if b.policy = 1 then (s.onChunk d b k fun c => { c with phase := .redo }).bfValues d b k cs false
    else
      let u := b.groupOf k
      if scale = 0xFF then
        let m := scaleOf cs.flatten
        let s := (s.onChunk d b k fun c => { c with phase := .prepass, vals := some cs }).bump d ceBlk 0x138 1
        (s.onGroup d b u fun g => { g with pre := true, own := Sparse.put (fun _ => none) g.own k (some (m + 127).toNat) }).groupTry d b u
      else
        let (v, s) := s.freeNat 8
        let s := s.onGroup d b u fun g => { g with own := Sparse.put (fun _ => none) g.own k (some v) }
        (s.convert d b k ((scale : Nat) - 127) cs).groupTry d b u

/-- A chunk that is ready to convert: under `POLICY` 0 its retained contributions and its scale byte are read first (R115, R117). -/
def State.startChunk (s : State) (d : Nat) (b : Bucket) (k : Nat) : State :=
  if b.holds then s.chunkHere d b k (s.heldValues d b k) ((s.chunk d b k).heldBad != []) 0
  else
    let (xs, s) := s.readRetained d b k
    let (x, s) := s.ceRead d (b.scaleAddr d k) 1
    (s.onChunk d b k fun c => { c with phase := .reading }).addJob d (xs ++ [x]) (.convert b.tag b.step k)

/-- CHUNK_CONVERT: a chunk whose contributions have all arrived and whose scale byte is current is converted, sent as overflow, or
started on its policy's way (R115, R117, R118, R120, R121, R122, R126, R127). -/
def execChunkConvert (d : Fin 8) (slot : Fin 1024) (k : Nat) (s : State) : Out :=
  match (s.engine d).buckets.find? fun b => b.slot == slot.val with
  | none => .next s
  | some b =>
      if s.ceRuns && b.policy != 2 && b.stripeDie k == d.val && decide (k < b.chunkCount) && (s.chunk d b k).phase == .wait &&
          s.chunkFull d b k && !s.forecastWaits d b k then .next ((s.startChunk d b k).ceShow d)
      else .next s

/-! ### Contributions -/

/-- A range of values of a chunk reaches its stripe engine (R115). -/
def State.takeValues (s : State) (d : Nat) (b : Bucket) (f : Forward) : State :=
  let i := onesBelow b.contrib f.origin
  let c := s.chunk d b f.chunk
  let got := Sparse.get nat0 c.got i
  let mask := (2 ^ f.count - 1) * 2 ^ f.start
  if got &&& mask ≠ 0 then s.bucketError d 0 b f.chunk
  else
    let s := if b.holds then
        s.onChunk d b f.chunk fun c => (List.range f.count).foldl (fun c e =>
          { c with held := Sparse.put (fun _ => 0) c.held (256 * i + f.start + e) (BitVec.ofNat 32 (elemAt 32 f.data e))
                   heldBad := if bitOf f.bad e then Sparse.put false0 c.heldBad (256 * i + f.start + e) true else c.heldBad }) c
      else s
    let s := if b.policy = 3 then s
      else
        let a := b.retAddr d f.chunk i + 4 * f.start
        let bad := (List.range f.count).foldl (fun m e =>
          if bitOf f.bad e then m ||| 2 ^ ((a + 4 * e) / 64 - a / 64) else m) 0
        let (x, s) := s.ceWrite d a (4 * f.count) f.data bad
        let s := s.addJob d [x] .nothing
        if got = 0 then s.setRg d ceBlk 0x108 (s.rg d ceBlk 0x108 + 1) else s
    let s := s.onChunk d b f.chunk fun c => { c with got := Sparse.put nat0 c.got i (got ||| mask) }
    if s.chunkFull d b f.chunk && s.forecastWaits d b f.chunk && !(s.chunk d b f.chunk).waited then
      (s.onChunk d b f.chunk fun c => { c with waited := true }).bump d ceBlk 0x140 1
    else s

/-- The part of a line of 128 values, from bucket element `e0`, that falls in chunk `k`. -/
def linePart (origin tag step e0 k : Nat) (l : Nat × Nat) : Forward :=
  let lo := max e0 (256 * k)
  let n := min (e0 + 128) (256 * k + 256) - lo
  { dst := 0, origin := origin, tag := tag, step := step, chunk := k, start := lo % 256, count := n
    data := l.1 / 2 ^ (32 * (lo - e0)) % 2 ^ (32 * n)
    bad := packBits 1 ((List.range n).map fun e => b2n (bitOf l.2 ((lo - e0 + e) / 16))) }

/-- The values of a push tile taken at its engine, or forwarded to the chunks' stripe engines (R113, R115); the flag says that some
lay at or beyond `ELEMS`. -/
def State.pushValues (s : State) (d : Nat) (b : Bucket) (e0 : Nat) : List (Nat × Nat) → Option Nat × State
  | [] => (none, s)
  | l :: ls =>
      let ks := if e0 / 256 = (e0 + 127) / 256 then [e0 / 256] else [e0 / 256, (e0 + 127) / 256]
      let beyond := ks.find? fun k => decide (b.chunkCount ≤ k)
      let s := (ks.filter fun k => decide (k < b.chunkCount)).foldl (fun s k =>
        let f := linePart d b.tag b.step e0 k l
        let t := b.stripeDie k
        if t = d then s.takeValues d b f else { s with forwards := s.forwards ++ [{ f with dst := t, stage := .held }] }) s
      let (m, s) := State.pushValues s d b (e0 + 128) ls
      (match beyond with | some k => some k | none => m, s)

/-- Tag, step and offset of a push tile's header (Table 5.4). -/
def pushTag (h : Nat) : Nat := bitsOf h 0 16
def pushStep (h : Nat) : Nat := bitsOf h 16 32
def pushOffset (h : Nat) : Nat := bitsOf h 48 32
def pushCount (h : Nat) : Nat := bitsOf h 80 7 + 1

/-- A push tile of an open bucket (R115). -/
def State.takePush (s : State) (d : Nat) (b : Bucket) (lines : List (Nat × Nat)) : State :=
  let h := (lines.headD (0, 0)).1
  if bitOf b.contrib d = false then s.bucketError d 6 b (pushOffset h / 256)
  else
    match s.pushValues d b (pushOffset h) ((lines.drop 1).take (pushCount h)) with
    | (some k, s) => s.bucketError d 6 b k
    | (none, s) => s

/-- Transfers and bytes of an engine's parking areas (R115). -/
def parkXfers : Nat := 256
def parkBytes : Nat := 65536

/-- Station of the Net side and the kind of a Net onward header (R27, R334). -/
def netStation : Nat := 14
def netKind (lines : List (Nat × Nat)) : Nat := bitsOf (lines.headD (0, 0)).1 504 8

/-- A Net onward header refused (R334). -/
def State.netHdrBad (s : State) (d : Nat) : State :=
  (s.errBit (fpeDie d) fpeBlk 3).event (fpeDie d) fpeBlk 2 0 1 3 0

/-- The oldest tile at a Net station, and the state without it. -/
def State.netTile (s : State) (d : Nat) : Option (List (Nat × Nat) × State) :=
  let y := s.station d netStation
  match y.left with
  | [] => none
  | (_, xs) :: rest => some (tileLines xs, s.setStation d netStation { y with left := rest })

/-- Whether the stripe engine of forwarded values can take them: their bucket is open there, or its parking area has room for them
beside those on their way (R115). -/
def State.mayForward (s : State) (f : Forward) : Bool :=
  (s.bucket f.dst f.tag f.step).isSome ||
    decide ((s.engine f.dst).parkUse + (s.forwards.filter fun x => x.dst == f.dst && x.stage != .held).length < parkXfers)

/-- Values that forwarding engines hold leave as their stripe engines can take them; others wait (R113, R115). -/
def State.flushForwards (s : State) : State :=
  (s.forwards.filter fun f => f.stage == .held).foldl (fun s f => if s.mayForward f then s.sendValues f else s) s

/-! ### Gathers -/

/-- Address of the epoch tag of chunk `k` on die `z` (R246). -/
def Bucket.tagAddr (b : Bucket) (z k : Nat) : Nat := dieBase z + b.resultOff + 4 * (256 * b.chunkCount) + 8 * k

/-- The epoch tags of chunk `k` written on every die of `DEST_MASK` (R246). -/
def State.writeTags (s : State) (d : Nat) (b : Bucket) (k tag : Nat) : List Span × State :=
  ((List.range 8).filter fun z => bitOf b.destMask z).foldl (fun a z =>
    (let (x, s) := a.2.ceWrite d (b.tagAddr z k) 8 tag 0; (a.1 ++ [x], s))) ([], s)

/-- The data of chunk `k` of a gather written on every die of `DEST_MASK` (R129). -/
def State.writeGather (s : State) (d : Nat) (b : Bucket) (k data bad : Nat) : List Span × State :=
  ((List.range 8).filter fun z => bitOf b.destMask z).foldl (fun a z =>
    (let (x, s) := a.2.ceWrite d (dieBase z + b.resultOff + 1024 * k) 1024 data bad; (a.1 ++ [x], s))) ([], s)

/-- The epoch tag of a gather's chunk, without `VALID` (R246). -/
def Bucket.epoch (b : Bucket) (version : Nat) : Nat := b.step + version * 2 ^ 32

/-- A gather chunk is here: it is passed on, and written in three steps, each done before the next: the tags without `VALID`, the data, the tags
with it (R129, R130, R246). -/
def State.gatherHere (s : State) (d : Nat) (b : Bucket) (k data bad version : Nat) : State :=
  let s := s.sendDown d b k { version := version } data 1024
  let (xs, s) := s.writeTags d b k (b.epoch version)
  s.endChunk d b k xs (.tagsClear b.tag b.step k version data bad)

/-- The root's stripe engine of a gather reads its chunks (R129). -/
def State.gatherStart (s : State) (d : Nat) (b : Bucket) : State :=
  ((List.range b.chunkCount).filter fun k => b.stripeDie k == d).foldl (fun s k =>
    let (x, s) := s.ceRead d (dieBase b.lead + b.resultOff + 1024 * k) 1024
    s.addJob d [x] (.gather b.tag b.step k)) s

/-! ### Opening -/

/-- Whether a slot is in use in the module: slot i is the same one on every engine, and holds one bucket (R109). An open of a bucket that is open
in another slot is not refused for that: R109 forbids it and names no refusal (DESIGN CHOICE, log entry 99). -/
def State.slotBusy (s : State) (d : Nat) (b : Bucket) : Bool :=
  (List.range 8).any fun z => (s.engine z).buckets.any fun x => x.slot == b.slot && (z == d || x.tag != b.tag || x.step != b.step)

/-- A bucket opens at an engine that takes part in it (R109, R112); a fresh one sets every scale byte here to 0xFF (Table 5.3). -/
def State.openHere (s : State) (d : Nat) (b : Bucket) (fresh : Bool) : State :=
  if !b.dies.contains d then s
  else if s.slotBusy d b then
    ((s.setEngine d { s.engine d with refused := (s.engine d).refused ++ [(b.tag, b.step)] }).bucketError d 1 b 0).closeIfDone b
  else
    let e := s.engine d
    let s := s.setEngine d { e with buckets := e.buckets ++ [{ b with order := e.opened }], opened := e.opened + 1 }
    let n := b.chunksOf d
    let s := if fresh && n != 0 then
        (let (x, s) := s.ceWrite d (dieBase d + b.scaleOff) n (2 ^ (8 * n) - 1) 0; s.addJob d [x] .nothing)
      else s
    (if b.policy = 2 ∧ b.isRoot (b.stripeOf d) = true ∧ n ≠ 0 then s.gatherStart d b else s).closeIfDone b

/-- Words of an open message (Table 5.3), and whether they are refused before the descriptor is read (R112). -/
def openWords (m : WMsg) : Nat := packBits 64 (m.payload.map BitVec.toNat)
def openBad (w : Nat) : Bool := w / 2 ^ 97 != 0 || bitsOf w 0 48 % 64 != 0 || !inHeartwood (bitsOf w 0 48)

/-- The descriptor of an open message could not be read (R112, Table 16.5); one that reads as poisoned is poison consumed, of event class 4 (R322). -/
def State.openUnread (s : State) (d w : Nat) (ev : Nat := 0) : State := s.ceError d 2 0x3FF 0 0 (bitsOf w 48 32) (bitsOf w 0 48) ev

/-- An open message at an engine: its descriptor is read (R112). -/
def State.ceOpen (s : State) (d : Nat) (m : WMsg) (relayed : Bool) : State :=
  let w := openWords m
  if openBad w then s.openUnread d w
  else (let (x, s) := s.ceRead d (bitsOf w 0 48) 64; s.addJob d [x] (.opened m relayed))

/-- The descriptor of an open message has been read: it is checked, the open relayed unless an engine sent it, and the slot opened (R112). -/
def State.openRead (s : State) (d : Nat) (m : WMsg) (relayed : Bool) (x : SpanData) : State :=
  let w := openWords m
  let step := bitsOf w 48 32
  let desc := x.data
  if x.ok = false then s.openUnread d w
  else if x.poison ≠ 0 then s.openUnread d w 4
  else if descBad desc then s.ceError d 2 (descSlot desc) (descTag desc) 0 step 0
  else
    let b : Bucket := { desc := desc, step := step, version := bitsOf w 80 16, since := s.tick }
    let s := if relayed then s
      else { s with whittle := s.whittle ++ (b.dies.filter fun z => z != d).map fun z => { m with dst := 0x20 + z, src := 0x20 + d, hart := none } }
    s.openHere d b (bitOf w 96)

/-! ### What follows an access to memory -/

/-- The engine goes on with the bytes that its accesses have brought, in their order; a bucket that has closed since is left alone. -/
def State.ceAct (s : State) (d : Nat) (a : CeAct) (xs : List SpanData) : State :=
  let on (tag step : Nat) (f : Bucket → State) : State := match s.bucket d tag step with | some b => f b | none => s
  let bad := xs.any fun x => x.poison != 0
  let one := xs.headD ⟨false, 0, 0⟩
  match a with
  | .opened m relayed => s.openRead d m relayed one
  | .convert tag step k => on tag step fun b =>
      if (s.chunk d b k).phase = .reading then
        s.chunkHere d b k ((xs.take b.contribs).map fun x => valuesOf x.data) ((xs.take b.contribs).any fun x => x.poison != 0)
          (xs.getLastD ⟨false, 0, 0⟩).data
      else s
  | .redo tag step k => on tag step fun b =>
      if (s.chunk d b k).phase = .redo then s.bfValues d b k (xs.map fun x => valuesOf x.data) bad else s
  | .written tag step k => on tag step fun b => s.finishChunk d b k
  | .gather tag step k => on tag step fun b => if (s.chunk d b k).over then s else s.gatherHere d b k one.data one.poison b.version
  | .tagsClear tag step k version data bad => on tag step fun b =>
      (let (ws, s) := s.writeGather d b k data bad; s.addJob d ws (.dataThere tag step k version))
  | .dataThere tag step k version => on tag step fun b =>
      (let (ws, s) := s.writeTags d b k (b.epoch version + 2 ^ 48); s.addJob d ws (.written tag step k))
  | .send rank m => if one.ok then s.hctSend d rank d { m with dest := one.data } else s
  | .logged => s.setRg d ceBlk 0x18C (s.rg d ceBlk 0x18C + 1)
  | .nothing => s

/-- What the spans of a job have brought, and the state without their requests. -/
def State.takeSpans (s : State) : List Span → List SpanData × State
  | [] => ([], s)
  | x :: l => (let (v, s) := s.takeSpan x; let (vs, s) := s.takeSpans l; (v :: vs, s))

/-- The oldest job of an engine whose accesses have been served goes on, and so forth. -/
def State.ceAdvance (s : State) (d : Nat) : (fuel : Nat) → State
  | 0 => s
  | fuel + 1 =>
      let e := s.engine d
      match e.jobs.find? fun j => j.spans.all fun x => s.spanDone x with
      | none => s
      | some j =>
          let (xs, s) := (s.setEngine d { e with jobs := e.jobs.erase j }).takeSpans j.spans
          State.ceAdvance (s.ceAct d j.act xs) d fuel

/-- What an engine does after it has acted: its accesses that have been served are taken up, held values leave, and its page shows it. -/
def State.ceSettle (s : State) (d : Nat) : State :=
  (if s.ceRuns then s.ceAdvance d (4 * (s.engine d).jobs.length + 4) else s).flushForwards.ceShow d

/-- Engines go on at a tick edge. -/
def State.ceTick (s : State) : State :=
  (List.range 8).foldl (fun s d => if (s.engine d).jobs.isEmpty then s else s.ceSettle d) s

/-- PUSH_TILE_ARRIVE: a push tile at the Net station is retained at or forwarded to the stripe engines, or parked until its bucket
opens (R113, R114, R115). -/
def execPushTileArrive (d : Fin 8) (s : State) : Out :=
  if !s.ceRuns then .next s
  else
    match s.netTile d with
    | none => .next s
    | some (lines, t) =>
        if netKind lines ≠ 0 then .next s
        else
          let h := (lines.headD (0, 0)).1
          if h / 2 ^ 88 ≠ 0 then .next (t.netHdrBad d)
          else
            match t.bucket d (pushTag h) (pushStep h) with
            | some b => .next ((t.takePush d b lines).ceSettle d)
            | none =>
                let e := t.engine d
                if e.parkUse + lines.length ≤ parkXfers then
                  .next ((t.setEngine d { e with parked := e.parked ++ [.tile lines] }).ceShow d)
                else .next s

/-- FORWARDED_VALUES_ARRIVE: the oldest forwarded values that their stripe engine can take reach it (R113, R115). -/
def execForwardedValuesArrive (d : Fin 8) (s : State) : Out :=
  if !s.ceRuns then .next s
  else
    let e := s.engine d
    match s.forwards.find? fun f => f.dst == d.val && f.stage == .here && ((s.bucket d f.tag f.step).isSome || decide (e.parkUse < parkXfers)) with
    | none => .next s
    | some f =>
        let s := { s with forwards := s.forwards.erase f }
        match s.bucket d f.tag f.step with
        | some b => .next ((s.takeValues d b f).ceSettle d)
        | none => .next ((s.setEngine d { e with parked := e.parked ++ [.values f] }).ceSettle d)

/-! ### Arriving messages -/

/-- The messages of Table 5.6. -/
inductive ChunkKind where
  | grain | overflow | prepass | grainResult | redo | bf16 | bf16Result | scales | gather
  deriving DecidableEq, Repr

def msgTag (m : ChunkMsg) : Nat := chunkHdr m 16 16
def msgStep (m : ChunkMsg) : Nat := chunkHdr m 32 32
def msgChunk (m : ChunkMsg) : Nat := chunkHdr m 64 16

/-- What a message is (Tables 5.5, 5.6): prepass bytes that come down before the group has them are the prepass's, later ones are
scale bytes. -/
def State.kindOf (s : State) (d : Nat) (m : ChunkMsg) : ChunkKind :=
  let down := hdrFlag m 12
  let b? := s.bucket d (msgTag m) (msgStep m)
  if hdrFlag m 14 then
    if !down then .prepass
    else
      match b? with
      | some b => (let g := s.cgroup d b (b.groupOf (msgChunk m)); if g.sent && !g.got then .prepass else .scales)
      | none => .prepass
  else if hdrFlag m 11 then .redo
  else if hdrFlag m 8 then .overflow
  else if !down then (if hdrFlag m 10 then .bf16 else .grain)
  else if hdrFlag m 10 then .bf16Result
  else match b? with | some b => (if b.policy = 2 then .gather else .grainResult) | none => .grainResult

/-- An upward message of a child stored for chunk `k`. -/
def storeUp (m : Sparse (Option ChunkMsg)) (i : Nat) (x : ChunkMsg) : Sparse (Option ChunkMsg) := Sparse.put (fun _ => none) m i (some x)

/-- A message for an open bucket handled (R119 to R130). -/
def State.handleMsg (s : State) (d : Nat) (b : Bucket) (kind : ChunkKind) (m : ChunkMsg) (rank : Nat) : State :=
  let k := msgChunk m
  let j := b.stripe k
  let u := b.groupOf k
  if b.chunkCount ≤ k ∨ b.stripeDie k ≠ d then s
  else
    match kind with
    | .grain | .overflow =>
        match b.childOf j rank with
        | some i => if (s.chunk d b k).over then s else (s.onChunk d b k fun c => { c with up := storeUp c.up i m }).upTry d b k
        | none => s
    | .bf16 =>
        match b.childOf j rank with
        | some i =>
            if (s.chunk d b k).over then s
            else (s.onChunk d b k fun c => { c with bf := Sparse.put (fun _ => none) c.bf i (some m.data) }).bfTry d b k
        | none => s
    | .prepass =>
        if hdrFlag m 12 then s.prepassDown d b u m.data
        else
          match b.childOf j rank with
          | some i => (s.onGroup d b u fun g => { g with child := Sparse.put (fun _ => none) g.child i (some m.data) }).groupTry d b u
          | none => s
    | .grainResult => if (s.chunk d b k).over then s else s.grainDown d b k (grainInts m) ((chunkHdr m 0 8 : Nat) - 127)
    | .redo => s.redo d b k
    | .bf16Result => if (s.chunk d b k).over then s else s.bfDown d b k m.data
    | .scales =>
        let s := s.sendDown d b (b.groupFirst d u) { prepass := true } m.data (b.groupSize d u)
        (b.groupChunks j u).foldl (fun s k =>
          let s := if (s.chunk d b k).phase = .grain then s.bump d ceBlk 0x120 1 else s
          if (s.chunk d b k).over then s
          else (let (ws, s) := s.writeScale d b k (elemAt 8 m.data (b.placeOf k)); s.endChunk d b k ws (.written b.tag b.step k))) s
    | .gather => if (s.chunk d b k).over then s else s.gatherHere d b k m.data 0 (chunkHdr m 84 16)

/-- A message for an open bucket: discarded where its digest differs (R111), else handled. -/
def State.takeMsg (s : State) (d : Nat) (b : Bucket) (x : ChunkIn) : State :=
  if chunkHdr x.msg 112 16 ≠ descDigest b.desc then s.bucketError d 3 b (msgChunk x.msg)
  else s.handleMsg d b (s.kindOf d x.msg) x.msg x.rank

/-- The oldest delivered message of a kind taken; parked while its bucket is not open (R115). -/
def State.ceMessage (s : State) (d : Nat) (kind : ChunkKind) : State :=
  if !s.ceRuns then s
  else
    let e := s.engine d
    match e.inbox.find? fun x => s.kindOf d x.msg == kind with
    | none => s
    | some x =>
        let t := (s.setEngine d { e with inbox := e.inbox.erase x }).pfcCheck x.port
        match t.bucket d (msgTag x.msg) (msgStep x.msg) with
        | some b => (t.takeMsg d b x).ceSettle d
        | none =>
            if e.netUse + msgSize x.msg ≤ parkBytes then
              ((s.setEngine d { e with inbox := e.inbox.erase x, netParked := e.netParked ++ [x] }).pfcCheck x.port).ceShow d
            else s

/-- GRAIN_CHUNK: a Grain chunk arrives upward and is added once all inputs are present (R111, R116, R124). -/
def execGrainChunk (d : Fin 8) (s : State) : Out := .next (s.ceMessage d .grain)
/-- OVERFLOW: a header-only `OVF` chunk arrives upward; the position passes it on, the root orders REDO (R126). -/
def execOverflow (d : Fin 8) (s : State) : Out := .next (s.ceMessage d .overflow)
/-- PREPASS: a prepass message arrives; it is maximised upward and returned down by the root (R120). -/
def execPrepass (d : Fin 8) (s : State) : Out := .next (s.ceMessage d .prepass)
/-- GRAIN_RESULT: a Grain result arrives downward, is passed on, converted and written (R118, R119, R124). -/
def execGrainResult (d : Fin 8) (s : State) : Out := .next (s.ceMessage d .grainResult)
/-- REDO: a rank passes the order on and takes part in the BF16 reduction of the chunk (R127, R421). -/
def execRedo (d : Fin 8) (s : State) : Out := .next (s.ceMessage d .redo)
/-- BF16_CHUNK: a BF16 chunk arrives upward and is summed in the fixed tree order (R127). -/
def execBf16Chunk (d : Fin 8) (s : State) : Out := .next (s.ceMessage d .bf16)
/-- BF16_RESULT: a BF16 result arrives downward, is passed on and written widened (R119, R127). -/
def execBf16Result (d : Fin 8) (s : State) : Out := .next (s.ceMessage d .bf16Result)
/-- SCALE_BYTES: scale bytes arrive downward and update the position's table (R119). -/
def execScaleBytes (d : Fin 8) (s : State) : Out := .next (s.ceMessage d .scales)
/-- GATHER_CHUNK: a gather chunk is written with its epoch tag and passed on (R129, R130, R246). -/
def execGatherChunk (d : Fin 8) (s : State) : Out := .next (s.ceMessage d .gather)

/-- PARKED_TILE_PROCEED: the oldest parked item whose bucket has opened proceeds (R115). -/
def execParkedTileProceed (d : Fin 8) (s : State) : Out :=
  if !s.ceRuns then .next s
  else
    let e := s.engine d
    let bucketOf (x : Parked) : Option Bucket :=
      match x with
      | .tile ls => (let h := (ls.headD (0, 0)).1; s.bucket d (pushTag h) (pushStep h))
      | .values f => s.bucket d f.tag f.step
    match e.parked.find? fun x => (bucketOf x).isSome with
    | some x =>
        let t := s.setEngine d { e with parked := e.parked.erase x }
        match bucketOf x, x with
        | some b, .tile ls => .next ((t.takePush d b ls).ceSettle d)
        | some b, .values f => .next ((t.takeValues d b f).ceSettle d)
        | none, _ => .next s
    | none =>
        match e.netParked.find? fun x => (s.bucket d (msgTag x.msg) (msgStep x.msg)).isSome with
        | none => .next s
        | some x =>
            match s.bucket d (msgTag x.msg) (msgStep x.msg) with
            | some b => .next (((s.setEngine d { e with netParked := e.netParked.erase x }).takeMsg d b x).ceSettle d)
            | none => .next s

/-! ### Opening and stalls -/

/-- An open message handled on arrival (R112, R161, R163). -/
def State.openArrives (s : State) (d : Nat) (m : WMsg) : State :=
  if m.len ≠ 4 then s.refuseMsg m 4
  else
    let s := s.acceptMsg m
    if m.poison % 16 ≠ 0 then s.event d ceBlk 2 4 1 0x7F 0
    else (s.ceOpen d m (match endpointOf m.src with | .engine _ => true | _ => false)).ceSettle d

/-- An open message at its endpoint: only an engine takes it (R112, R161). -/
def State.ceOpenArrives (s : State) (m : WMsg) : State :=
  match endpointOf m.dst with
  | .engine d => s.openArrives d m
  | .reserved => s.refuseMsg m 2
  | _ => s.refuseMsg m 3

/-- CE_OPEN: an open message makes an engine check the descriptor, relay the open and open the slot; another endpoint refuses it (R109 to
R112, R120, R129, R161). -/
def execCeOpen (src dst : Byte) (f : WhittleFacts) (s : State) : Out :=
  match endpointOf dst.toNat with
  | .engine _ => .next (if s.ceRuns then s.messageArrives src.toNat dst.toNat 3 f State.ceOpenArrives else s)
  | _ => .next (s.messageArrives src.toNat dst.toNat 3 f State.ceOpenArrives)

/-- BUCKET_STALLED: a bucket not closed within `LIMIT` × 1,024 ticks of its open is flagged; the lead die's engine records it (R134). -/
def execBucketStalled (d : Fin 8) (slot : Fin 1024) (s : State) : Out :=
  match (s.engine d).buckets.find? fun b => b.slot == slot.val with
  | none => .next s
  | some b =>
      if b.stalled || b.limit == 0 || decide (s.tick < b.since + 1024 * b.limit) then .next s
      else
        let s := s.onBucket d b fun x => { x with stalled := true }
        let s := ((s.setRg d ceBlk 0x110 (BitVec.ofNat 32 (b.slot + b.tag * 2 ^ 10))).setRg d ceBlk 0x114 (BitVec.ofNat 32 b.step)).errBit d ceBlk 4
        .next (if d.val = b.lead then s.bucketError d 4 b 0 else s)

/-- A write of `CE.FB_LOG_BASE`: the base is taken as written, head and tail become 0; entries on their way are not counted (R421). -/
def State.wFbBase (s : State) (d : Nat) (hi : Bool) (v : W32) : State :=
  let e := s.engine d
  let s := s.setEngine d { e with jobs := e.jobs.map fun j => if j.act = .logged then { j with act := .nothing } else j }
  ((s.writeAcc d ceBlk (if hi then 0x184 else 0x180) v).setRg d ceBlk 0x18C 0).setRg d ceBlk 0x190 0

/-- FB_LOG_BASE_WRITE: a write of `CE.FB_LOG_BASE` sets the fall-back log's head and tail to 0 (R421). -/
def execFbLogBaseWrite (d : Fin 8) (hi : Bool) (v : W32) (s : State) : Out := .next (if s.inReset then s else s.wFbBase d hi v)

end Sys2Proof.Machine
end

