-- ==== Sys2Proof/Machine/Arrays.lean ====
section
/-!
DEFINITION. The matrix arrays: the tree of a column, the running sum, the check column, generators, weight loads, swaps and
row streams (R37 to R51, R68 to R75, R304 to R309).
-/
namespace Sys2Proof.Machine

/-! ### Generators -/

def gen0 (_ : Nat) : Gen := {}

/-- Key of a generator of a Gouge core: `kind` 0 accumulate, 1 chain, 2 epilogue of array `a`; of a Skew core, 0 (R74). -/
def genKey (a kind : Nat) : Nat := 3 * a + kind

/-- A generator reseeded at the start of an instruction (R74, R144, R193). -/
def Gen.reseed (g : Gen) (bf : Bool) (seed : W64) (tile kind a ordinal die : Nat) : Gen :=
  let st := genSeed seed (if bf then g.seqB else g.seq) tile kind a ordinal die
  if bf then { g with stateB := st, seqB := (g.seqB + 1) % 2 ^ 32 } else { g with state := st, seq := (g.seq + 1) % 2 ^ 32 }

/-- A generator stepped once for a program (R74, R192). -/
def Gen.step (g : Gen) (bf : Bool) : Gen :=
  if bf then { g with stateB := genStep g.stateB } else { g with state := genStep g.state }

/-- The step seed of a Gouge or Skew core (R85, R144). -/
def State.seed (s : State) (d c : Nat) : W64 := BitVec.ofNat 64 (s.pair d c 0x1C0)

/-- Generator `kind` of array `a` reseeded (R75). -/
def State.reseedGouge (s : State) (d c a kind tile : Nat) (bf : Bool) : State :=
  let seed := s.seed d c
  s.onCore d c fun x => { x with
    gens := Sparse.put gen0 x.gens (genKey a kind)
      ((Sparse.get gen0 x.gens (genKey a kind)).reseed bf seed tile kind a (gougeOrdinal c) d) }

/-- G_skew reseeded (R75, R144). -/
def State.reseedSkew (s : State) (d c tile : Nat) (bf : Bool) : State :=
  let seed := s.seed d c
  s.onCore d c fun x => { x with gens := Sparse.put gen0 x.gens 0 ((Sparse.get gen0 x.gens 0).reseed bf seed tile 3 0 (skewOrdinal c) d) }

/-- A generator stepped once for a program (R74); its new state. -/
def State.stepGen (s : State) (d c key : Nat) (bf : Bool) : W64 × State :=
  let g := (Sparse.get gen0 (s.core d c).gens key).step bf
  (if bf then g.stateB else g.state, s.onCore d c fun x => { x with gens := Sparse.put gen0 x.gens key g })

/-! ### One column (R68 to R71) -/

/-- What the tree gives for a column: its result, the sticky bit, and the residues of its window sum and of what truncation
removed (R69, R305). -/
structure ColSum where
  value : FVal
  sticky : Bool
  resW : Nat
  resD : Nat
  deriving DecidableEq, Repr

/-- A signed magnitude as an integer. -/
def signedInt (neg : Bool) (n : Nat) : Int := if neg then -(n : Int) else (n : Int)

/-- The residue of an integer times 2^e (R303). -/
def residueInt (z : Int) (e : Int) : Nat := residue (decide (z < 0)) z.natAbs e

/-- The tree result of a column's products in a float or MX pass (R69, R71). -/
def floatColumn (ps : List FVal) : ColSum :=
  if ps.any FVal.isNan then ⟨.nan, false, 0, 0⟩
  else
    let pos := ps.any fun p => p == .inf false
    let neg := ps.any fun p => p == .inf true
    if pos && neg then ⟨.nan, false, 0, 0⟩
    else if pos then ⟨.inf false, false, 0, 0⟩
    else if neg then ⟨.inf true, false, 0, 0⟩
    else
      match maxLead ps with
      | none => ⟨.fin false 0 0, false, 0, 0⟩
      | some emax =>
          let q := emax - 39
          let step (acc : Int × Bool × Nat) (p : FVal) : Int × Bool × Nat :=
            match p with
            | .fin n m e =>
                let (t, lost) := shiftTrunc m (e - q)
                (acc.1 + signedInt n t, acc.2.1 || lost,
                  (acc.2.2 + residue n m e + residue (!n) t q) % 15)
            | _ => acc
          let (w, sticky, resD) := ps.foldl step (0, false, 0)
          let w' := if sticky && w % 2 == 0 then w + 1 else w
          ⟨if w' = 0 then .fin false 0 0 else ofInt w' q, sticky, residueInt w q, resD⟩

/-- The tree result of a column's products in an integer pass (R69). -/
def intColumn (ps : List FVal) : ColSum :=
  let z := ps.foldl (fun (a : Int) p => match p with | .fin n m e => a + unitsAt 0 n m e | _ => a) 0
  ⟨ofInt z 0, false, residueInt z 0, 0⟩

/-- Whether a pass with a streamed format is an integer pass. -/
def intPass (fmt : Nat) : Bool := fmt == 0x0A || fmt == 0x0B

/-- The tree results of a row's enabled columns on a tile (R68, R77). -/
def rowColumns (fmt : Nat) (xs scales : List Nat) (t : WTile) : List ColSum :=
  (List.range t.n).map fun n =>
    let ps := (List.range t.k).map fun k => (rowValue fmt xs scales k).mul (t.value k n)
    if intPass fmt then intColumn ps else floatColumn ps

/-- Whether an operand of the row is NaN or infinite, so that the check column does not check the row (R305). -/
def rowSpecial (fmt : Nat) (xs scales : List Nat) (t : WTile) : Bool :=
  let odd (v : FVal) : Bool := v.isNan || v.isInf
  (List.range t.k).any fun k => odd (rowValue fmt xs scales k) || (List.range t.n).any fun n => odd (t.value k n)

/-- The residue that the check column predicts (R305). -/
def predicted (fmt : Nat) (xs scales : List Nat) (t : WTile) : Nat :=
  ((List.range t.k).foldl (fun a k => a + residueOf (rowValue fmt xs scales k) * Sparse.get nat0 t.check k) 0) % 15

/-- The residue that the tree forms (R305). -/
def actual (cs : List ColSum) : Nat := (cs.foldl (fun a c => a + c.resW + c.resD) 0) % 15

/-! ### Accumulate (R72) -/

/-- The new word of a column, and whether it saturated. -/
def accumulate (int : Bool) (old : W32) (c : ColSum) (rho : Nat) : W32 × Bool :=
  if int then
    match c.value with
    | .fin n m e => satAdd32 old (unitsAt 0 n m e)
    | _ => (old, false)
  else (toF32 (.sr rho) ((f32 old).add c.value), false)

/-- The new words of a row, and how many saturated (R72, Table 2.3). -/
def accumulateRow (int start : Bool) (old : List W32) (cs : List ColSum) (g : W64) : List W32 × Nat :=
  let rs := (cs.zip old).zipIdx.map fun p => accumulate int (if start then 0 else p.1.2) p.1.1 (genDraw g p.2)
  (rs.map (·.1), rs.countP (·.2))

/-! ### Row streams -/

/-- The fields of a row stream. -/
structure Rs where
  swap : Bool
  transpose : Bool
  epi : Option Nat
  mask : Nat
  mode : Nat
  m : Nat
  row : Nat
  pitch : Nat
  fmt : Nat
  wbase : Nat
  scale : Nat
  tile : Nat
  deriving DecidableEq, Repr

/-- The row stream that an instruction is. -/
def rsOf : EngInstr → Option Rs
  | .rs swap transpose ed mask mode m row pitch fmt wbase scale tile =>
      some ⟨swap, transpose, ed, mask, mode, m, row, pitch, fmt, wbase, scale, tile⟩
  | _ => none

/-- START and ONCE ignore the words before (Table 2.3). -/
def Rs.starts (r : Rs) : Bool := r.mode == 0 || r.mode == 3
/-- A fused ONCE stream writes no accumulator words (R43). -/
def Rs.stores (r : Rs) : Bool := !(r.epi.isSome && r.mode == 3)

/-- The tile active on logical array `a`, and the one in its shadow buffer. -/
def State.activeTile (s : State) (d c a : Nat) : WTile := Sparse.get tile0 (s.core d c).active (s.physOf d c a)
def State.shadowTile (s : State) (d c a : Nat) : WTile := Sparse.get tile0 (s.core d c).shadow (s.physOf d c a)

/-- The masked arrays' buffers exchanged (R40). -/
def State.swapTiles (s : State) (d c mask : Nat) : State :=
  (arraysOf mask).foldl (fun s a =>
    let p := s.physOf d c a
    s.onCore d c fun x => { x with
      active := Sparse.put tile0 x.active p (Sparse.get tile0 x.shadow p)
      shadow := Sparse.put tile0 x.shadow p (Sparse.get tile0 x.active p) }) s

/-- Largest K of the tiles of a mask that are active, or that a swap makes active (R50). -/
def State.largestK (s : State) (d c mask : Nat) (swap : Bool) : Nat :=
  (arraysOf mask).foldl (fun k a => max k (if swap then s.shadowTile d c a else s.activeTile d c a).k) 0

/-- Key of column `n` of row `r` of array `a` among the rows of fused streams, apart for each program. -/
def rowKey (bf : Bool) (a r n : Nat) : Nat := ((4 * b2n bf + a) * 65536 + r) * 128 + n

/-- Key of the draws of row `r` of array `a`, and one that is no state of a generator. -/
def genRowKey (bf : Bool) (a r : Nat) : Nat := (4 * b2n bf + a) * 65536 + r
def noGen (_ : Nat) : W64 := 0

/-- A fused stream's row of an array dropped: the epilogue has taken it. -/
def Core.dropRow (x : Core) (bf : Bool) (a r n : Nat) : Core :=
  { x with rows := Sparse.clearRange x.rows (rowKey bf a r 0) n
           rowPoison := Sparse.clearRange x.rowPoison (rowKey bf a r 0) n
           rowGens := Sparse.erase x.rowGens (genRowKey bf a r) }

/-- The stream under way of a program. -/
def Core.runOf (x : Core) (bf : Bool) : Option Run := if bf then x.streamB else x.stream
def Core.setRun (x : Core) (bf : Bool) (r : Option Run) : Core := if bf then { x with streamB := r } else { x with stream := r }

/-- Entries of the streams under way. -/
def Core.runs (x : Core) : List UEntry := ([x.stream, x.streamB].filterMap id).map (·.entry)

/-- A row of array `a` completes: its words are written, it is counted, and it goes to a fused epilogue (R43, R70, R72). `bads` is the
poison that enters each of its 64 B units (R62). -/
def State.commitRow (s : State) (d c a row : Nat) (r : Rs) (bf : Bool) (cs : List ColSum) (g : W64) (bads : List Bool) : State :=
  let n := cs.length
  let b := r.wbase + row * (n / 32)
  let x := s.core d c
  let int := intPass r.fmt
  let old := if r.starts then List.replicate n 0#32 else x.accRow a b n
  let olds := if r.starts then List.replicate (n / 16) false else x.accBads a b n
  let (vs, sats) := accumulateRow int r.starts old cs g
  let bads := (bads.zip olds).map fun p => p.1 || p.2
  let s := if r.starts then s else s.useAcc d c a b n
  let s := if r.stores then s.onCore d c fun x => x.setAccRow a b vs int bads else s
  let s := if r.epi.isSome then s.onCore d c fun x => { x with
      rows := Sparse.putRange w320 x.rows (rowKey bf a row 0) vs
      rowPoison := Sparse.putRange false0 x.rowPoison (rowKey bf a row 0) bads } else s
  let s := (s.bump d c 0x110 1).bump d c 0x1C8 sats
  if fmtMX r.fmt && cs.any (·.sticky) then s.bump d c 0x1D0 1 else s

/-- The row whose array has no spare left: its words are poisoned and not otherwise written, and a fused epilogue takes its
columns as poisoned (R60). -/
def State.poisonRow (s : State) (d c a row n : Nat) (r : Rs) (bf : Bool) : State :=
  let all := List.replicate (n / 16) true
  let s := if r.stores then s.onCore d c fun x => x.markAcc a (r.wbase + row * (n / 32)) all else s
  if r.epi.isSome then s.onCore d c fun x => { x with rowPoison := Sparse.putRange false0 x.rowPoison (rowKey bf a row 0) all } else s

/-- The armed injection of an array, taken (R321): rows to inject, 0 for none. -/
def takeInjection (a : Nat) (l : List (Nat × Nat)) : Nat × List (Nat × Nat) :=
  match l.find? fun p => p.1 == a with
  | some p => (p.2, l.erase p)
  | none => (0, l)

/-- The poison that a row brings into the 64 B units of an array's words: of all its words where a poisoned line lies in its elements below
the array's K or in their scales, and of the words that a poisoned line of the tile touched (R41, R62). -/
def wordBads (t : WTile) (row : Bool) : List Bool := (List.range (t.n / 16)).map fun j => row || bitOf t.poison (j / 2)

/-- One row on one masked array (R45, R60, R72, R75, R305, R309): the generators step, the tree runs, and the row is written or withheld. A
parity error on the row goes before a disagreement, whose check is discarded (R307); the check column does not check a row with a NaN or an
infinity, the aligners and the adder are compared for every row. `bad` is whether a poisoned line lies in what the array takes of the
row. -/
def State.rowOnArray (s : State) (d c a row : Nat) (r : Rs) (bf : Bool) (f : EngFacts) (xs scales : List Nat) (bad : Bool) : State :=
  let t := s.activeTile d c a
  let (g, s) := s.stepGen d c (genKey a 0) bf
  let s := if r.epi.isSome then
      (let (e, s) := s.stepGen d c (genKey a 2) bf
       s.onCore d c fun x => { x with rowGens := Sparse.put noGen x.rowGens (genRowKey bf a row) e }) else s
  let cs := rowColumns r.fmt xs scales t
  let special := rowSpecial r.fmt xs scales t
  let faults := f.rowFaults.filter fun x => x.row == row && x.array == a
  let (inj, left) := if special then (0, (s.core d c).inject) else takeInjection a (s.core d c).inject
  let s := s.onCore d c fun x => { x with inject := left }
  let has (k : RowFaultKind) : Bool := faults.any fun x => x.kind == k
  let mis := has .aligner || (!special && (has .mismatch || decide (inj ≠ 0) || decide (predicted r.fmt xs scales t ≠ actual cs)))
  if has .parity || mis then
    s.onCore d c fun x => { x with withheld := x.withheld ++
      [{ bf := bf, array := a, row := row, kind := if has .parity then .parity else .mismatch, xs := xs, scales := scales, bad := bad, gen := g,
         phys := s.physOf d c a, again := decide (2 ≤ inj), missed := !has .parity }] }
  else
    let s := if special then s.bump d c 0x2B8 1 else s
    s.commitRow d c a row r bf cs g (wordBads t bad)

/-- The elements of the stream's next row, and the first poisoned unit that it takes with a number of elements: from the operand buffer, or
of a transposed stream from its transpose buffer (R41, R50, R51, R62). -/
def Core.takeRow (x : Core) (c : Nat) (r : Rs) (y : Run) (k : Nat) : List Nat :=
  if r.transpose then (blockRow r.fmt y.next y.block).take k else x.rowElems (bufBytes c) r.fmt r.row r.pitch y.next k
def Core.takeBad (x : Core) (r : Rs) (y : Run) (k : Nat) : Option Nat :=
  if r.transpose then blockBad r.fmt r.row r.pitch y.next k y.block else x.rowBad r.fmt r.row r.pitch r.scale y.next k

/-- The next row of a stream issued to the masked arrays (R41, R50); a poisoned line that enters is recorded once. Of a second, different
line that enters the same stream no record is made (DESIGN CHOICE, log entry 96). -/
def State.issueRow (s : State) (d c : Nat) (r : Rs) (bf : Bool) (y : Run) : State :=
  let x := s.core d c
  let k := s.largestK d c r.mask false
  let xs := x.takeRow c r y k
  let scales := x.rowScales (bufBytes c) r.fmt r.scale y.next
  let bad := if y.noted then none else x.takeBad r y k
  let s := match bad with | some u => s.poisonUsed d c u | none => s
  let s := (arraysOf r.mask).foldl (fun s a =>
    s.rowOnArray d c a y.next r bf y.entry.facts xs scales (x.takeBad r y (s.activeTile d c a).k).isSome) s
  s.onCore d c fun z => z.setRun bf ((z.runOf bf).map fun y => { y with next := y.next + 1, noted := y.noted || bad.isSome })

/-- Whether the streamer of a program stops for a reload of a tile (R61). -/
def Core.reloading (x : Core) (bf : Bool) : Bool := x.withheld.any fun w => w.bf == bf && w.kind == .parity

/-- Issue cycles of a block of 128 rows, and cycles that a block takes to fill (R46, R51). -/
def blockIssue (fmt : Nat) (pairs : Bool) : Nat := if fmtBits fmt = 16 then 512 else if pairs then 64 else 128
def blockFill (fmt k : Nat) : Nat := ceilDiv (k * 128 * fmtBits fmt) 2048 + 2

/-- Cycles that a transposed stream waits for fills: the whole fill of its first block, and what the fill of each later block lasts
beyond the block before it (R51). -/
def fillWaits (r : Rs) (pairs : Bool) (k : Nat) : Nat :=
  if r.transpose then blockFill r.fmt k + (ceilDiv r.m 128 - 1) * (blockFill r.fmt k - blockIssue r.fmt pairs) else 0

/-- Stored rows of block `b` read up to the `n`-th, behind those that have been (R51): 256 B of stored rows in each fill cycle. -/
def Core.fillTo (x : Core) (c : Nat) (r : Rs) (b n : Nat) (l : List StoredRow) : List StoredRow :=
  l ++ (List.range (n - l.length)).map fun i => x.storedRow (bufBytes c) r.fmt r.row r.pitch b (l.length + i)

/-- Stored rows that `n` fill cycles have read, of `k` (R51). -/
def storedBy (fmt k n : Nat) : Nat := min k (n * 2048 / (128 * fmtBits fmt))

/-- The transpose buffer after the first fill has run for all but `fill` cycles (R51). -/
def Core.fillFirst (x : Core) (c : Nat) (r : Rs) (y : Run) : Run :=
  if r.transpose then { y with block := x.fillTo c r 0 (storedBy r.fmt y.ks (if y.fill ≤ 2 then 2 ^ 16 else blockFill r.fmt y.ks - y.fill)) y.block }
  else y

/-- The transpose buffer once the rows before `next` have issued: the next block is read in the last cycles of the block that streams, so that
its fill ends with that block's last row (R51; DEDUCED from the example of R106, log entry 91). -/
def Core.fillNext (x : Core) (c : Nat) (r : Rs) (pairs : Bool) (y : Run) : Run :=
  if !r.transpose || decide (r.m ≤ y.next) then y
  else
    let b := (y.next - 1) / 128
    let fill := blockFill r.fmt y.ks - 2
    let gone := if fmtBits r.fmt = 16 then 4 * ((y.next - 1) % 128 + 1) else if pairs then ((y.next - 1) % 128 + 2) / 2 else (y.next - 1) % 128 + 1
    let n := gone + fill - blockIssue r.fmt pairs
    if y.next % 128 = 0 then { y with block := x.fillTo c r (b + 1) y.ks y.ahead, ahead := [] }
    else if (b + 1) * 128 < r.m then { y with ahead := x.fillTo c r (b + 1) (storedBy r.fmt y.ks n) y.ahead } else y

/-! ### Withheld rows (R60, R61, R306, R307) -/

/-- A withheld row taken off the list, or put back in its place. -/
def Core.dropWithheld (c : Core) (w : Withheld) : Core := { c with withheld := c.withheld.erase w }
def Core.putWithheld (c : Core) (w w' : Withheld) : Core := { c with withheld := c.withheld.map fun x => if x = w then w' else x }

/-- The next withheld row of a program of a kind. -/
def Core.nextWithheld (c : Core) (bf : Bool) (k : RowFaultKind) : Option Withheld :=
  c.withheld.find? fun w => w.bf == bf && w.kind == k

/-- A withheld row issued to the array that holds its logical number now, and checked in full (R60, R307): a parity error withholds it for a
reload and its check is discarded; agreeing, it is written; a first disagreement on that array withholds it for its retry; else the flag
says that this is its second. -/
def State.reissue (s : State) (d c : Nat) (r : Rs) (w : Withheld) (mis parity : Bool) : Bool × State :=
  let t := s.activeTile d c w.array
  let p := s.physOf d c w.array
  let cs := rowColumns r.fmt w.xs w.scales t
  let special := rowSpecial r.fmt w.xs w.scales t
  let missed := w.missed && w.phys == p
  if parity then (false, s.onCore d c fun x => x.putWithheld w { w with kind := .parity, phys := p, missed := missed })
  else if mis || (!special && (w.again && w.phys == p || decide (predicted r.fmt w.xs w.scales t ≠ actual cs))) then
    if missed then (true, s)
    else (false, s.onCore d c fun x => x.putWithheld w { w with kind := .mismatch, phys := p, missed := true, again := false })
  else
    let s := (if special then s.bump d c 0x2B8 1 else s).commitRow d c w.array w.row r w.bf cs w.gen (wordBads t w.bad)
    (false, s.onCore d c fun x => x.dropWithheld w)

/-- Cycles that the copy of a fenced array's active and shadow tiles to the spare takes, 32 for each 16 KiB (R60). -/
def copyCycles (a b : WTile) : Nat :=
  let bytes (t : WTile) : Nat := match t.fmt with | some f => t.k * t.n * fmtBits f / 8 | none => 16384
  ceilDiv (32 * (bytes a + bytes b)) 16384

/-- Issue cycles of a row alone (R46, R60). -/
def rowCycles (fmt : Nat) : Nat := if fmtBits fmt = 16 then 4 else 1

/-- The streamer of a program issues nothing for `n` cycles from cycle count `now` on. -/
def Core.delayRun (x : Core) (bf : Bool) (now n : Nat) : Core := x.setRun bf ((x.runOf bf).map fun y => { y with at_ := max y.at_ now + n })

/-- A withheld row issued again: a second disagreement on its array fences the array and issues the row to the spare after the copy, or
poisons the row where none remains; rows that issued to the fenced array beside it keep their own re-issue (R60, R306). A row's retry on the array that
withheld it is counted. -/
def State.reissueRow (s : State) (d c : Nat) (r : Rs) (w : Withheld) (f : ReissueFacts) : State :=
  let now := (s.quarter d (c / 6)).cycle
  let s := if w.missed && w.kind == .mismatch && w.phys == s.physOf d c w.array then s.bump d c 0x130 1 else s
  let s := s.onCore d c fun x => x.delayRun w.bf now (rowCycles r.fmt)
  let (second, s) := s.reissue d c r w f.again f.parity
  if second then
    let p := s.physOf d c w.array
    let (spare, s) := s.fence d c w.array r.tile
    if spare then
      let n := copyCycles (Sparse.get tile0 (s.core d c).active p) (Sparse.get tile0 (s.core d c).shadow p)
      ((s.onCore d c fun x => x.delayRun w.bf now (n + rowCycles r.fmt)).reissue d c r w f.onSpare f.parityOnSpare).2
    else (s.poisonRow d c w.array w.row (s.activeTile d c w.array).n r w.bf).onCore d c fun x => x.dropWithheld w
  else s

/-! ### Weight loads -/

/-- A weight load (R37, R38, R49, R62, R304). -/
def State.runWld (s : State) (d c : Nat) (transpose : Bool) (array fmt k n src pitch scale : Nat) (f : EngFacts) : State :=
  let s := s.sramErrors d c f
  let x := s.core d c
  let t := x.loadTile (bufBytes c) transpose fmt k n src pitch scale
  let s := match x.loadBad transpose fmt k n src pitch scale with | some u => s.poisonUsed d c u | none => s
  let p := s.physOf d c array
  s.onCore d c fun x => { x with shadow := Sparse.put tile0 x.shadow p t }

/-- The active tile of array `a` loaded again from its source and orientation (R61); a poisoned line of the source that enters is
recorded (R62). -/
def State.reload (s : State) (d c a : Nat) : State :=
  let p := s.physOf d c a
  let x := s.core d c
  let t := Sparse.get tile0 x.active p
  let (t', bad) := match t.fmt with
    | some f => (x.loadTile (bufBytes c) t.transposed f t.k t.n t.src t.pitch t.scale,
        x.loadBad t.transposed f t.k t.n t.src t.pitch t.scale)
    | none => (t, none)
  let s := match bad with | some u => s.poisonUsed d c u | none => s
  (s.onCore d c fun x => { x with active := Sparse.put tile0 x.active p t' }).bump d c 0x138 1

end Sys2Proof.Machine
end

