-- ==== Sys2Proof/Machine/Epilogue.lean ====
section
/-!
DEFINITION. The epilogue: values, conversion, layout and destinations; activation tables (R53 to R56, R81 to R83, R105, R114,
R216, R309).
-/
namespace Sys2Proof.Machine

/-- The value before conversion (R53). -/
def Core.epiValue (x : Core) (size : Nat) (e : EpiDesc) (int : Bool) (a cols n : Nat) (v : W32) : W32 :=
  let y := if int then i2f v else v
  let y := match e.cscale with | some u => fmul y (x.f32At size u (a * cols + n)) | none => y
  let y := match e.tscale with | some t => fmul y t | none => y
  let y := match e.bias with | some u => fadd y (x.f32At size u (a * cols + n)) | none => y
  match e.table with | some t => x.applyTable t y | none => y

/-- Whether INT32 values pass unchanged (R53). -/
def EpiDesc.passes (e : EpiDesc) (int : Bool) : Bool :=
  int && e.fmt == 0x0C && e.cscale.isNone && e.tscale.isNone && e.bias.isNone && e.table.isNone

/-- Blocks of `w` values. -/
def blocksOf {α : Type} (w : Nat) : (n : Nat) → List α → List (List α)
  | 0, _ => []
  | n + 1, l => l.take w :: blocksOf w n (l.drop w)

/-- A row of FP32 values converted to a format (R81, R82): element codes and scale bytes. -/
def convertRow (fmt : Nat) (sat : Bool) (rs : List Round) (vs : List W32) : List Nat × List Nat :=
  if fmtMX fmt then
    let bs := (blocksOf 32 (vs.length / 32) (rs.zip vs)).map fun b =>
      convertBlock fmt sat (b.map (·.1)) (b.map fun p => f32 p.2)
    (bs.flatMap (·.2), bs.map (·.1))
  else ((rs.zip vs).map fun p => convertElem fmt sat p.1 (f32 p.2), [])

/-- Whether the scales or the biases of unit `j` of array `a`'s columns, 16 of them, are poisoned (R55, R313). -/
def Core.sideBad (x : Core) (e : EpiDesc) (a cols j : Nat) : Bool :=
  let bad (u : Option Nat) : Bool := match u with | some u => Sparse.get false0 x.bufPoison (u + a * cols / 16 + j) | none => false
  bad e.cscale || bad e.bias

/-- A row of one array through the epilogue (R53, R75, R81). The offset 4 (a N + n) of its scales and biases is formed with this array's
own N: R55 does not say which N where the tiles of a fused stream differ (DESIGN CHOICE, log entry 84). -/
def Core.epiPart (x : Core) (size : Nat) (e : EpiDesc) (int : Bool) (a : Nat) (vs : List W32) (bads : List Bool) (g : W64) : OutPart :=
  let bads := bads.zipIdx.map fun p => p.1 || x.sideBad e a vs.length p.2
  if e.passes int then ⟨vs.map (·.toNat), [], bads⟩
  else
    let ys := vs.zipIdx.map fun p => x.epiValue size e int a vs.length p.2 p.1
    let rs := (List.range vs.length).map fun n => if e.sr then Round.sr (genDraw g n) else .rne
    let (codes, scales) := convertRow e.fmt e.sat rs ys
    ⟨codes, scales, bads⟩

/-- The element codes of a part in groups of 16 columns, each with its poison, and its scale bytes, one for each 32 columns. -/
def OutPart.words (p : OutPart) : List (List Nat × Bool) := (blocksOf 16 (p.codes.length / 16) p.codes).zip p.bads
def OutPart.scaleWords (p : OutPart) : List (List Nat × Bool) :=
  p.scales.zipIdx.map fun b => ([b.1], p.bads.getD (2 * b.2) false || p.bads.getD (2 * b.2 + 1) false)

/-- A piece of output: its unit offset, its units, their bytes as one number and their poison mask. -/
structure Chunk where
  off : Nat
  units : Nat
  data : Nat
  poison : Nat
  deriving DecidableEq, Repr

/-- The mask of units that bytes [a, b) touch. -/
def unitMask (a b : Nat) : Nat := if b ≤ a then 0 else 2 ^ ((b - 1) / 64 + 1) - 2 ^ (a / 64)

/-- Bytes with their poison ranges, one part behind another: the bytes, how many, and the poisoned units. -/
def joinParts (w : Nat) (ps : List (List Nat × Bool)) : Nat × Nat × Nat :=
  ps.foldl (fun acc p =>
    let n := p.1.length * w / 8
    (acc.1 + packBits w p.1 * 2 ^ (8 * acc.2.1), acc.2.1 + n, if p.2 then acc.2.2 ||| unitMask acc.2.1 (acc.2.1 + n) else acc.2.2))
    (0, 0, 0)

/-- Output row `r`: the masked arrays side by side (R67, R216); `fill`: the bytes up to the next row are written as zero (R67). -/
def rowChunk (e : EpiDesc) (fill : Bool) (r : Nat) (ps : List OutPart) : Chunk :=
  let (data, n, mask) := joinParts (fmtBits e.fmt) (ps.flatMap OutPart.words)
  ⟨r * e.pitch, if fill then max (ceilDiv n 64) e.pitch else ceilDiv n 64, data, mask⟩

/-- The scale bytes of `m` rows, packed in row order after the rows (R82). -/
def scaleChunk (e : EpiDesc) (m : Nat) (rows : List (List OutPart)) : List Chunk :=
  if fmtMX e.fmt then
    let (data, n, mask) := joinParts 8 (rows.flatMap fun ps => ps.flatMap OutPart.scaleWords)
    [⟨m * e.pitch, ceilDiv n 64, data, mask⟩]
  else []

/-! ### Destinations -/

/-- Transfers of one tile put on the ring, or behind the near lane that they are for (R21); `whole` is how many the tile has, for the credit
that a port station needs, taken with its first (R28). -/
def State.launch (s : State) (d st whole : Nat) (xs : List Xfer) : State :=
  match xs with
  | [] => s
  | x :: _ =>
      let port := (coreOfStation x.tag.retire).isNone
      let ys := xs.map fun y => { y with credit := port }
      let s :=
        if x.near then
          let path := if x.tag.retire = nextStation 2 st then 2 else 3
          let y := s.station d st
          s.setStation d st (y.setLane path (y.lane path ++ ys))
        else s.inject d st ys
      if x.tag.xfer = 0 then s.startToward d x.tag.retire whole else s

/-- Whether an output tile that waits is the one that transfer `x` of a unit belongs to: transfers of it are still to be formed. -/
def OutTile.takes (o : OutTile) (u : Nat) (bf : Bool) (x : Xfer) : Bool :=
  o.unit == u && o.bf == bf && !o.push && x.tag.xfer != 0 && decide (o.xfers.length < o.total) &&
    (match o.xfers with | y :: _ => y.tag.tile == x.tag.tile && y.tag.bufLine == x.tag.bufLine && y.tag.retire == x.tag.retire | [] => false)

/-- Transfers that unit `u` of core `c` has formed, of a tile of `whole`: refused with a malformed tag (R23), behind those of their tile that
wait for credit, at once where no credit is needed or held, else their tile waits behind the tiles of its own unit that wait (R28): a
reduction push of the epilogue unit holds no send and no chain-out (R106). -/
def State.sendPart (s : State) (d c u : Nat) (bf : Bool) (whole : Nat) (xs : List Xfer) : State :=
  let st := stationOfCore c
  let q := (s.core d c).outQ
  match xs with
  | [] => s
  | x :: _ =>
      if !x.near && xs.any fun x => x.tag.malformed st then s.errBit d (stBlk st) 0
      else if q.any fun o => o.takes u bf x then
        s.onCore d c fun y => { y with outQ := y.outQ.map fun o => if o.takes u bf x then { o with xfers := o.xfers ++ xs } else o }
      else if x.tag.xfer ≠ 0 ∨ (!(q.any fun o => o.unit == u && o.bf == bf) && s.mayStart d x.tag.retire whole) = true then s.launch d st whole xs
      else s.onCore d c fun y => { y with outQ := y.outQ ++ [{ push := false, unit := u, xfers := xs, total := whole, bf := bf }] }

/-- A store of an epilogue cut into requests of up to 4 KiB (R178). -/
def cutStores (queue : Nat) (bf : Bool) : (fuel addr units data poison : Nat) → List EpiStore
  | 0, _, _, _, _ => []
  | fuel + 1, addr, units, data, poison =>
      if units = 0 then []
      else
        let n := min units 64
        ⟨queue, addr, n, data % 2 ^ (512 * n), poison % 2 ^ n, bf⟩ ::
          cutStores queue bf fuel (addr + 64 * n) (units - n) (data / 2 ^ (512 * n)) (poison / 2 ^ n)

/-- The route of a push tile (R105, R146): with the grain from stations 1 to 13, against it from 16 to 28. -/
def pushAgainst (st : Nat) : Bool := decide (13 < st)

/-- The header of a push tile (Table 5.4). -/
def pushHeader (tag step offset countM1 kind : Nat) : Nat :=
  tag + step * 2 ^ 16 + offset * 2 ^ 48 + countM1 * 2 ^ 80 + kind * 2 ^ 87

/-- A push tile (R105): its header transfer and up to 128 data transfers. The header transfer's bytes 64 to 511, which R114 does not lay
out, are written as zeros (DESIGN CHOICE, log entry 97). -/
def pushTile (st tag step offset kind tile : Nat) (lines : List (Nat × Nat)) : List Xfer :=
  ringTile st 14 (pushAgainst st) false 0 (tile % 2 ^ 16) none (fun i => i)
    ((pushHeader tag step offset (lines.length - 1) kind, 0) :: lines)

/-- FP32 values with their poison as data transfers of 128; what a last transfer holds beyond them is free (R114). -/
def State.pushLines (s : State) (vs : List (W32 × Bool)) : List (Nat × Nat) :=
  let n := ceilDiv vs.length 128
  (List.range n).map fun i =>
    let part := (List.range 128).map fun j =>
      match vs[128 * i + j]? with
      | some v => (v.1.toNat, v.2)
      | none => ((Config.freeBits 32 (s.fresh + 128 * i + j)).toNat, false)
    (packBits 32 (part.map (·.1)),
      (List.range 8).foldl (fun m u => m + b2n ((part.drop (16 * u)).take 16 |>.any (·.2)) * 2 ^ u) 0)

/-! ### An epilogue under way -/

/-- Columns of an output row, over the masked arrays. -/
def EpiRun.columns (e : EpiRun) : Nat := e.cols.foldl (fun n p => n + p.2) 0

/-- 512 B lines of the whole output on the ring: its rows at their pitch, and the scale bytes behind them (R55, R82). -/
def EpiRun.lines (e : EpiRun) : Nat :=
  let rows := if e.m = 0 then 0 else (e.m - 1) * e.desc.pitch + ceilDiv (e.columns * fmtBits e.desc.fmt) 512
  let scales := if fmtMX e.desc.fmt then e.m * e.desc.pitch + ceilDiv (e.m * (e.columns / 32)) 64 else 0
  ceilDiv (max rows scales) 8

/-- Rows from row 0 on that have come without a gap. -/
def EpiRun.upTo (e : EpiRun) : Nat :=
  (List.range (e.kept.length + 1)).foldl (fun n _ => if e.kept.any (fun k => k.1 == n) then n + 1 else n) 0

/-- Lines that no row still to come can change: those before the next row's first unit, all once every row has come. -/
def EpiRun.ready (e : EpiRun) : Nat :=
  if e.m ≤ e.upTo then e.lines else e.upTo * e.desc.pitch / 8

/-- The kept rows in row order. -/
def EpiRun.inOrder (e : EpiRun) : List (Nat × Nat × List OutPart) := e.kept.mergeSort fun a b => decide (a.1 ≤ b.1)

/-- What a whole epilogue writes as rows, and the scale bytes where every row has come. -/
def EpiRun.chunks (e : EpiRun) : List Chunk :=
  (e.kept.map fun k => rowChunk e.desc false k.1 k.2.2) ++
    (if e.m ≤ e.rows then scaleChunk e.desc e.m (e.inOrder.map fun k => k.2.2) else [])

/-- Ring transfer `i` of the output (R55): its tile of at most 256, each with the next identifier and the next line; counted, it departs in
E + 4 of the last row that it holds (R54, R211). -/
def EpiRun.xfer (e : EpiRun) (st : Nat) (point : Option Nat) (img : Sparse Byte) (bad : Sparse Bool) (i : Nat) : Xfer :=
  let x := e.desc.ext
  let t := i / 256
  let row := if e.desc.pitch = 0 then e.m - 1 else min (e.m - 1) ((8 * i + 7) / e.desc.pitch)
  let read := match e.kept.find? fun k => k.1 == row with | some k => k.2.1 | none => e.at_ - 1
  { tag := { src := st, retire := bitsOf x 0 5, dir := bitOf x 5, mode := bitOf x 6, xfer := i % 256,
             xferLast := min 256 (e.lines - 256 * t) - 1, bufLine := tagLine (bitOf x 6) (bitsOf x 0 5) (bitsOf x 7 14 + 256 * t),
             tile := (bitsOf x 21 16 + t) % 2 ^ 16 }
    data := ofBytes (Sparse.getRange byte0 img (512 * i) 512)
    poison := (Sparse.getRange false0 bad (8 * i) 8).foldr (fun b n => b2n b + 2 * n) 0
    stamp := point.map fun q => ⟨q, (read + 4) % 2 ^ 20, false⟩ }

/-- Ring transfers whose rows have all come leave, in order (R54, R55). -/
def State.emitLines (s : State) (d c : Nat) (bf : Bool) (e : EpiRun) : EpiRun × State :=
  let n := e.ready
  let cs := e.chunks
  let img : Sparse Byte := cs.foldl (fun m k => Sparse.putRange byte0 m (64 * k.off) (bytesOf (64 * k.units) k.data)) []
  let bad : Sparse Bool := cs.foldl (fun m k => Sparse.putRange false0 m k.off ((List.range k.units).map fun i => bitOf k.poison i)) []
  let point := if e.counted then some (s.curPt d (c / 6)) else none
  let s := (List.range (n - e.sent)).foldl (fun s j =>
    let x := e.xfer (stationOfCore c) point img bad (e.sent + j)
    s.sendPart d c 2 bf (x.tag.xferLast + 1) [x]) s
  ({ e with sent := max e.sent n }, s)

/-- The push tiles of an output, array by array (R105, R216): array in the list, its logical number, first data transfer in it, data
transfers, data transfers of the arrays before it. -/
def EpiRun.pushes (e : EpiRun) : List (Nat × Nat × Nat × Nat × Nat) :=
  (e.cols.zipIdx.foldl (fun (acc : Nat × List (Nat × Nat × Nat × Nat × Nat)) p =>
    let n := ceilDiv (e.m * p.1.2) 128
    (acc.1 + n, acc.2 ++ (List.range (ceilDiv n 128)).map fun t => (p.2, p.1.1, 128 * t, min 128 (n - 128 * t), acc.1))) (0, [])).2

/-- Push tiles whose values have all come join the tiles that wait for credit, each array's before the next's (R105, R106, R114, R216). They
count their `TILE_ID` up from the instruction's (DESIGN CHOICE, log entry 87). -/
def State.emitPushes (s : State) (d c : Nat) (bf : Bool) (e : EpiRun) : (fuel : Nat) → EpiRun × State
  | 0 => (e, s)
  | fuel + 1 =>
      match e.pushes[e.sent]? with
      | none => (e, s)
      | some (j, a, first, n, before) =>
          let cols := (e.cols.getD j (0, 0)).2
          if e.upTo < e.m ∧ e.upTo * cols < 128 * (first + n) then (e, s)
          else
            let vs := e.inOrder.flatMap fun k => match k.2.2[j]? with
              | some p => p.words.flatMap fun w => w.1.map fun v => (BitVec.ofNat 32 v, w.2)
              | none => []
            let ls := s.pushLines ((vs.drop (128 * first)).take (128 * n))
            let xs := pushTile (stationOfCore c) (bitsOf e.desc.ext 0 16) (s.rg d c 0x1E8).toNat
              ((bitsOf e.desc.ext 16 32 + 128 * (before + first)) % 2 ^ 32) 0 (e.tile + e.sent) ls
            let s := { s with fresh := s.fresh + 128 * n }
            let o : OutTile := { push := true, unit := 2, xfers := xs, total := xs.length, bf := bf,
                                 words := e.wbase.map fun b => (a, b + 4 * first, 4 * n) }
            State.emitPushes (s.onCore d c fun x => { x with outQ := x.outQ ++ [o] }) d c bf { e with sent := e.sent + 1 } fuel

/-- A finished output row goes to its destination (R54, R55, R67, R105, R216), the scale bytes of a block-scaled output after its last: none
are written where a second mismatch stops the epilogue before (DESIGN CHOICE, log entry 85). -/
def State.emitRow (s : State) (d c : Nat) (bf : Bool) (f : EngFacts) (e : EpiRun) (row : Nat) (parts : List OutPart) : EpiRun × State :=
  let at_ := max e.at_ (s.phaseNow d (c / 6))
  let keep := if e.desc.dest < 2 then parts.map fun p => { p with codes := [] } else parts
  let same := f.same && e.rows == 0
  let e : EpiRun := { e with rows := e.rows + 1, at_ := at_ + 1, kept := e.kept ++ [(row, at_, keep)] }
  let cs := [rowChunk e.desc (decide (row + 1 < e.m)) row parts] ++
    (if e.m ≤ e.rows then scaleChunk e.desc e.m (e.inOrder.map fun k => k.2.2) else [])
  match e.desc.dest with
  | 0 => (e, cs.foldl (fun s k => s.putBuf d c 6 same ((e.desc.addr + k.off) * 64) (64 * k.units) k.data k.poison 0) s)
  | 1 =>
      let addr := bitsOf e.desc.ext 2 48
      let stores := cs.flatMap fun k => cutStores (8 + bitsOf e.desc.ext 0 2) bf (k.units + 1) (addr + 64 * k.off) k.units k.data k.poison
      (e, s.onCore d c fun x => { x with epiOut := x.epiOut ++ stores })
  | 2 => s.emitLines d c bf e
  | _ => s.emitPushes d c bf e (e.pushes.length + 1)

/-- A row of an array as the epilogue takes it: the array, its values, the poison of its units, and the state that its draws come from. -/
abbrev EpiIn := Nat × List W32 × List Bool × W64

/-- The epilogue takes a row (R53, R54, R309): a mismatch is recomputed once, and a second one stops the epilogue unit and the core and writes
no output for the row. -/
def State.epiRow (s : State) (d c : Nat) (bf : Bool) (f : EngFacts) (e : EpiRun) (row : Nat) (got : List EpiIn) : EpiRun × State :=
  if e.stopped then (e, s)
  else if f.mismatch.contains row && f.again.contains row then
    ({ e with stopped := true },
      ((s.onCore d c fun x => { x with epiDead := true }).errBit d c 3).checkFailed d c 3 (e.tile * 2 ^ 3))
  else
    let x := s.core d c
    s.emitRow d c bf f e row (got.map fun p => x.epiPart (bufBytes c) e.desc e.int p.1 p.2.1 (p.2.2.1.map fun b => b || e.bad) p.2.2.2)

/-- The descriptor at unit `u`, and the first poisoned unit that it, its scales or its biases lie in. -/
def Core.readDesc (x : Core) (size u : Nat) : Option EpiDesc := epiDesc (x.readBuf size (64 * u) 64)

def Core.descBad (x : Core) (u : Nat) (e : EpiDesc) (cols : List (Nat × Nat)) : Option Nat :=
  let side (v : Option Nat) : Option Nat := v.bind fun a => cols.findSome? fun p => x.badUnit (64 * a + 4 * p.1 * p.2) (4 * p.2)
  match x.badUnit (64 * u) 64 with
  | some b => some b
  | none => match side e.cscale with | some b => some b | none => side e.bias

/-- An epilogue starts (R53 to R56): what it reads besides its rows, and the poison that enters with it; `units` reads of an activation table
may find double-bit errors, which poison the slot. -/
def State.startEpi (s : State) (d c u : Nat) (e : EpiDesc) (int counted : Bool) (m tile : Nat) (cols : List (Nat × Nat)) (wbase : Option Nat)
    (f : EngFacts) : EpiRun × State :=
  let bad := (s.core d c).descBad u e cols
  let own := ((s.core d c).badUnit (64 * u) 64).isSome
  let s := match bad with | some b => s.poisonUsed d c b | none => s
  let (tbad, s) : Bool × State := match e.table with
    | some t =>
        let s := if f.tableErr = [] then s
          else (s.tableErrors d c f 256).onCore d c fun x => { x with tableBad := Sparse.put false0 x.tableBad t true }
        let b := Sparse.get false0 (s.core d c).tableBad t
        (b, s.poisonRead d c b)
    | none => (false, s)
  ({ desc := e, int := int, counted := counted && e.dest == 2, tile := tile, m := m, cols := cols, wbase := wbase, bad := own || tbad,
     at_ := s.phaseNow d (c / 6) }, s)

/-- What a fused epilogue takes of its stream's row (R43). -/
def Core.fusedRow (x : Core) (bf : Bool) (row : Nat) (cols : List (Nat × Nat)) : List EpiIn :=
  cols.map fun p => (p.1, Sparse.getRange w320 x.rows (rowKey bf p.1 row 0) p.2, Sparse.getRange false0 x.rowPoison (rowKey bf p.1 row 0) (p.2 / 16),
    Sparse.get noGen x.rowGens (genRowKey bf p.1 row))

/-- A row of a fused stream of which no part is withheld any more enters the epilogue (R43, R60). -/
def State.fuseRow (s : State) (d c : Nat) (bf : Bool) (row : Nat) : State :=
  let x := s.core d c
  match x.runOf bf with
  | none => s
  | some y =>
      match y.epi with
      | none => s
      | some e =>
          if x.withheld.any fun w => w.bf == bf && w.row == row then s
          else
            let (e, s) := s.epiRow d c bf y.entry.facts e row (x.fusedRow bf row e.cols)
            s.onCore d c fun x =>
              let x := e.cols.foldl (fun x p => x.dropRow bf p.1 row p.2) x
              x.setRun bf ((x.runOf bf).map fun y => { y with epi := some e })

/-- A table load (R56): the 64 B header and 256 entries; and whether the table is illegal, which leaves the slot. -/
def State.runTbld (s : State) (d c slot src : Nat) (f : EngFacts) : Bool × State :=
  let s := s.sramErrors d c f
  let x := s.core d c
  let h := x.readBuf (bufBytes c) (64 * src) 64
  let lo := f32 (BitVec.ofNat 32 (h % 2 ^ 32))
  if bitsOf h 41 471 ≠ 0 ∨ lo.isNan = true ∨ lo.isInf = true then (true, s)
  else
    let entries := (List.range 512).map fun i => BitVec.ofNat 32 (x.readBuf (bufBytes c) (64 * src + 64 + 4 * i) 4)
    let words := BitVec.ofNat 32 (h % 2 ^ 32) :: BitVec.ofNat 32 (bitsOf h 32 9) :: entries
    let bad := x.badUnit (64 * src) 2112
    let s := match bad with | some u => s.poisonUsed d c u | none => s
    (false, s.onCore d c fun x => { x with
      tables := Sparse.putRange w320 x.tables (tableKey slot 0) words
      tableBad := Sparse.put false0 x.tableBad slot bad.isSome })

end Sys2Proof.Machine
end

