-- ==== Sys2Proof/Machine/Chain.lean ====
section
/-!
DEFINITION. Chain-outs, chain-ins and sends (R57 to R59, R210, R211, R215, R309).
-/
namespace Sys2Proof.Machine

/-- The point a counted transfer is stamped with (R260). -/
def State.stampPoint (s : State) (d c : Nat) (counted : Bool) : Option Nat := if counted then some (s.curPt d (c / 6)) else none

/-- The 512 B lines of the buffer from unit `src`, with the poison of their units. -/
def Core.bufLines (x : Core) (size src n : Nat) : List (Nat × Nat) :=
  (List.range n).map fun i => (x.readBuf size ((src + 8 * i) * 64) 512, x.poisonMask ((src + 8 * i) * 64) 512)

/-- Line `i` of a chain-out of `words` 128 B words (R58): each word is two 64 B units. -/
def Core.accLine (x : Core) (a wbase words i : Nat) : Nat × Nat :=
  let ks := (List.range 4).filter fun j => decide (4 * i + j < words)
  (packBits 1024 (ks.map fun j => packBits 32 ((x.accRow a (wbase + 4 * i + j) 32).map (·.toNat))),
    packBits 1 (ks.flatMap fun j => (x.accBads a (wbase + 4 * i + j) 32).map b2n))

/-- How the lines of a sending instruction leave (R58, R210, R215): on the ring, on a near lane, or into the core's own buffer. -/
structure LineOut where
  counted : Bool
  near : Bool
  retire : Nat
  dir : Bool
  mode : Bool
  bufLine : Nat
  tile : Nat
  /-- First unit in the own buffer, and bytes (`DKIND` 0). -/
  own : Option (Nat × Nat)
  /-- Lines of 512 B. -/
  lines : Nat
  deriving DecidableEq, Repr

/-- The lines of a SEND or a chain-out of core `c`: `DKIND` 0 own buffer, 1 near lane to n − 1, 2 near lane to n + 1, 3 ring. -/
def lineOut (c : Nat) : EngInstr → Option LineOut
  | .send counted mode dir near _ xferLast retire bufLine tile =>
      some ⟨counted, near, if near then neighbour (stationOfCore c) dir else retire, dir && !near, mode && !near, bufLine, tile, none, xferLast + 1⟩
  | .chout counted _ _ m ncode dkind bufLine retire dir tile own =>
      let n := colsOf ncode
      let st := stationOfCore c
      some ⟨counted, dkind == 1 || dkind == 2, if dkind = 1 then neighbour st true else if dkind = 2 then neighbour st false else retire,
        dir && dkind == 3, false, bufLine, tile, if dkind = 0 then some (own, m * n * 4) else none, ceilDiv (m * (n / 32)) 4⟩
  | _ => none

/-- Line `i` of a sending instruction as it reads it (R58, R210). -/
def State.lineAt (s : State) (d c : Nat) (i : Nat) : EngInstr → Nat × Nat
  | .send _ _ _ _ src _ _ _ _ => ((s.core d c).bufLines (bufBytes c) (src + 8 * i) 1).headD (0, 0)
  | .chout _ a wbase m ncode _ _ _ _ _ _ => (s.core d c).accLine a wbase (m * (colsOf ncode / 32)) i
  | _ => (0, 0)

/-- A sending instruction reads its next line (R58, R210, R211, R215): a ring transfer departs in the cycle after, a near-lane transfer in the
cycle after its last line; a line for the own buffer is written there, and the last records the tile's landing. -/
def State.sendLine (s : State) (d c : Nat) (w : Work) (o : LineOut) : Work × State :=
  let i := w.next
  let at_ := max w.at_ (s.phaseNow d (c / 6))
  let l := s.lineAt d c i w.entry.instr
  let s := match w.entry.instr with | .chout .. => s.poisonRead d c (l.2 != 0) | _ => s
  let part := w.lines ++ [l]
  let point := s.stampPoint d c o.counted
  let stamp := point.map fun q => (⟨q, (at_ + 1) % 2 ^ 20, false⟩ : Stamp)
  let st := stationOfCore c
  let last := decide (o.lines ≤ i + 1)
  let w := { w with next := i + 1, at_ := at_ + 1 }
  let tag (xfer xferLast : Nat) : HopTag :=
    { src := st, retire := o.retire, dir := o.dir, mode := o.mode, xfer := xfer, xferLast := xferLast, bufLine := o.bufLine, tile := o.tile }
  match o.own with
  | some (u, bytes) =>
      let s := s.putBuf d c 7 (w.entry.facts.same && i == 0) ((u + 8 * i) * 64) (min 512 (bytes - 512 * i)) l.1 l.2 o.tile
      (w, if last then s.landTile d c o.tile else s)
  | none =>
      if o.near then
        if part.length = 4 ∨ last = true then
          let n := ceilDiv o.lines 4
          ({ w with lines := [] }, s.sendPart d c 3 w.entry.backfill n
            [{ tag := tag (i / 4) (n - 1), data := packBits 4096 (part.map (·.1)), poison := packBits 8 (part.map (·.2)),
               lines := part.length, stamp := stamp, near := true }])
        else ({ w with lines := part }, s)
      else (w, s.sendPart d c 3 w.entry.backfill o.lines [{ tag := tag i (o.lines - 1), data := l.1, poison := l.2, stamp := stamp }])

/-- A value of a join (R57): the new value, and whether it saturated. -/
def joinValue (int : Bool) (arrived p : W32) (rho : Nat) : W32 × Bool :=
  if int then satAdd32 p arrived.toInt else (toF32 (.sr rho) ((f32 arrived).add (f32 p)), false)

/-- What the checks of a join's row do (R306, R309): re-executed once; a second mismatch fences the array and the row goes to the spare,
which follows the same rules; where no spare remains the row is poisoned. The flag says whether the row is written. -/
def State.joinCheck (s : State) (d c a row tile : Nat) (f : EngFacts) : Bool × State :=
  if f.mismatch.contains row then
    let s := s.bump d c 0x130 1
    if f.again.contains row then
      let (spare, s) := s.fence d c a tile
      if spare && f.onSpare.contains row then
        let s := s.bump d c 0x130 1
        if f.spareAgain.contains row then s.fence d c a tile else (true, s)
      else (spare, s)
    else (true, s)
  else (true, s)

/-- A chain-in adds its next row (R57, R59, R62, R212); none where a word of the other class stops it. -/
def State.joinRow (s : State) (d c : Nat) (w : Work) (int : Bool) (a wbase n bufLine tile : Nat) : Option (Work × State) :=
  let x := s.core d c
  let f := w.entry.facts
  let row := w.next
  let b := wbase + row * (n / 32)
  if !x.accClassIs a b n int then none
  else
    let at_ := bufLine * 512 + row * n * 4
    let bad := if w.noted then none else x.badUnit at_ (4 * n)
    let s := match bad with | some u => s.poisonUsed d c u | none => s
    let (g, s) := s.stepGen d c (genKey a 1) w.entry.backfill
    let old := x.accRow a b n
    let bads := (x.accBads a b n).zipIdx.map fun p => p.1 || x.bufBad (at_ + 64 * p.2) 64
    let vs := (List.range n).map fun j =>
      joinValue int (BitVec.ofNat 32 (x.readBuf (bufBytes c) (at_ + 4 * j) 4)) (old.getD j 0) (genDraw g j)
    let (ok, s) := s.joinCheck d c a row tile f
    let s := (s.bump d c 0x1C8 (vs.countP (·.2))).useAcc d c a b n
    let s := s.onCore d c fun x => if ok then x.setAccRow a b (vs.map (·.1)) int bads else x.markAcc a b (List.replicate (n / 16) true)
    some ({ w with next := row + 1, noted := w.noted || bad.isSome }, s)

end Sys2Proof.Machine
end

