-- ==== Sys2Proof/Machine/Queues.lean ====
section
/-!
DEFINITION. The load and store queues of a core (R178 to R181, R191, R222).
-/
namespace Sys2Proof.Machine

def queue0 (_ : Nat) : MQueue := {}
/-- Queue `k` of a core: 0 to 7 load queues, 8 to 11 store queues (R178). -/
def Core.queue (x : Core) (k : Nat) : MQueue := Sparse.get queue0 x.queues k
def Core.setQueue (x : Core) (k : Nat) (m : MQueue) : Core := { x with queues := Sparse.put queue0 x.queues k m }

/-- Requests of a program that have not completed, over all queues. -/
def Core.slotsUsed (x : Core) (bf : Bool) : Nat :=
  (List.range 12).foldl (fun n k => n + ((x.queue k).reqs.filter fun r => r.backfill == bf).length) 0

/-- Request slots of a program: 48, or 36 beside the 12 of a loaded back-fill program (R178, R191). -/
def Core.slotsOf (x : Core) (bf : Bool) : Nat := if bf then 12 else if x.backfill.isSome then 36 else 48

/-- Whether queue `k` takes a push now (R178, R180). -/
def Core.mayPush (x : Core) (bf : Bool) (k : Nat) : Bool :=
  decide ((x.queue k).reqs.length < 16) && decide (x.slotsUsed bf < x.slotsOf bf)

/-- Whether none of a program's requests is still to complete. -/
def Core.queuesIdle (x : Core) (bf : Bool) : Bool := x.slotsUsed bf == 0

/-- Requests at the head of a queue that were refused complete at once (R181). -/
def MQueue.dropRefused (m : MQueue) : (fuel : Nat) → MQueue
  | 0 => m
  | fuel + 1 =>
      match m.reqs with
      | [] => m
      | r :: rest =>
          if r.id.isNone then
            MQueue.dropRefused { m with reqs := rest, retired := m.retired + 1, fails := m.fails ++ [m.retired] } fuel
          else m

/-- A request of `units` units at `addr` takes the queue's next number; its block is unit `loc` of the core's memory, and
`data` with its poison what a store carries (R178, R179, R181). -/
def State.push (s : State) (d c k : Nat) (bf : Bool) (loc units addr data poison : Nat) : Nat × State :=
  let x := s.core d c
  let m := x.queue k
  let store := decide (8 ≤ k)
  let ok := inBounds (if bf then x.boundsB else x.bounds) addr (64 * units) store
  let (id, s) : Option Nat × State :=
    if ok then
      let (n, s) := s.issue { id := 0, die := d, requester := c, lane := k, addr := addr, units := units, write := store,
                              data := data, poison := poison, left := 0 }
      (some n, s)
    else (none, if isParting c then s.event d c 2 0 1 0x7F 0 else (s.errBit d c 8).event d c 2 0 1 8 0)
  let r : QReq := ⟨m.next, loc, units, addr, store, bf, id⟩
  let m := { m with next := (m.next + 1) % 65536, issued := m.issued + 1, reqs := m.reqs ++ [r] }
  (r.num, s.onCore d c fun x => x.setQueue k (m.dropRefused 1))

/-- The count of completed requests that a wait on request `n` needs (R179). -/
def MQueue.target (m : MQueue) (n : Nat) : Nat :=
  let a := (n + 65536 - m.next) % 65536
  if a < 32768 then m.issued + a + 1 else m.issued + 1 - (65536 - a)

/-- The bytes of a request's block in the core's memory, and the poison of its units. -/
def State.localBlock (s : State) (d c loc units : Nat) : Nat × Nat :=
  if isParting c then
    let p := s.part d (c / 6)
    (ofBytes (Sparse.getRange byte0 p.dmem (64 * loc) (64 * units)),
      (List.range units).foldr (fun i m => b2n (Sparse.get false0 p.dmemPoison (loc + i)) + 2 * m) 0)
  else
    let x := s.core d c
    (x.readBuf (bufBytes c) (64 * loc) (64 * units), x.poisonMask (64 * loc) (64 * units))

/-- A load's block written to the core's memory (R178, R313). -/
def State.writeLocal (s : State) (d c loc units data poison : Nat) (same : Bool) : State :=
  if isParting c then s.onPart d (c / 6) fun p => p.writeData (64 * loc) (64 * units) data poison
  else s.putBuf d c 5 same (64 * loc) (64 * units) data poison 0

/-- The head of queue `k` completes once its request has been served: a load's block is written, and the next refused
requests complete with it (R178, R181). -/
def State.retireHead (s : State) (d c k : Nat) (same : Bool) : State :=
  let m := (s.core d c).queue k
  match m.reqs with
  | [] => s
  | r :: rest =>
      match r.id.bind s.findReq with
      | none => s
      | some q =>
          if q.left ≠ 0 then s
          else
            let s := (s.dropReq q.id)
            let s := if r.store || q.failed then s else s.writeLocal d c r.loc r.units q.data q.poison same
            let m := { m with reqs := rest, retired := m.retired + 1,
                              fails := if q.failed then m.fails ++ [m.retired] else m.fails }
            s.onCore d c fun x => x.setQueue k (m.dropRefused 16)

/-- Whether a request among the first `n` of a queue failed (Table 8.8). -/
def MQueue.failedBelow (m : MQueue) (n : Nat) : Bool := m.fails.any fun i => decide (i < n)

/-- Harts whose QWAIT on queue `k` is satisfied go on (Table 8.8). -/
def State.serveQueueWaits (s : State) (d q k : Nat) : State :=
  (List.range 4).foldl (fun s h =>
    match (s.hart d q h).wait with
    | some (.queue k' target rd) =>
        let m := (s.core d (ptCore q)).queue k
        if k' = k ∧ target ≤ m.retired ∧ s.hartState d q h = 1 then
          s.endWaitOf d q h rd (if m.failedBelow target then 1 else 0)
        else s
    | _ => s) s

end Sys2Proof.Machine
end

