-- ==== Sys2Proof/Machine/Sfu.lean ====
section
/-!
DEFINITION. The special functions (R141, Table 6.3): the two FP32 values around the exact result, of which the unit gives one.
-/
namespace Sys2Proof.Machine

/-- The FP32 magnitude code at or below num / den × 2^e, and whether the value is that code exactly. -/
def floorCode (num den : Nat) (e : Int) : Nat × Bool :=
  if num = 0 ∨ den = 0 then (0, true)
  else
    let lead : Int := (leadBit (num * 2 ^ 64 / den) : Int) - 64 + e
    -- the leading bit when num / den is at least 2^-64; smaller quotients are scaled by their callers
    let q := max (lead - 23) (-149)
    let top := e - q
    let n := if 0 ≤ top then num * 2 ^ top.toNat / den else num / (den * 2 ^ (-top).toNat)
    let exact := if 0 ≤ top then num * 2 ^ top.toNat % den == 0 else num % (den * 2 ^ (-top).toNat) == 0
    let c := packMag fmtFP32 n q
    if fmtFP32.maxCode < c then (fmtFP32.maxCode, false) else (c, exact)

/-- One of the two values around a result of a sign (R141, log entry 8). -/
def faithful (f : Nat) (x : W32) (neg : Bool) (c : Nat × Bool) : W32 :=
  BitVec.ofNat 32 (signOf fmtFP32 neg + (if c.2 then c.1 else if Config.sfuUp f x then c.1 + 1 else c.1))

/-- Fraction bits of the evaluations below. -/
def sfuBits : Nat := 400

/-- 2^(2^-i) for i from 1, in units of 2^-400, by repeated square roots. -/
def rootChain : (n : Nat) → (v : Nat) → List Nat
  | 0, _ => []
  | n + 1, v =>
      let r := Nat.sqrt (v * 2 ^ sfuBits)
      r :: rootChain n r

/-- 2^(0.b₁b₂…) in units of 2^-400, for the fraction `f` in units of 2^-`n`. -/
def exp2Frac (n f : Nat) : Nat :=
  ((rootChain n (2 * 2 ^ sfuBits)).zipIdx).foldl (fun a p =>
    if bitOf f (n - 1 - p.2) then a * p.1 / 2 ^ sfuBits else a) (2 ^ sfuBits)

/-- exp2 of a finite value. -/
def sfuExp2 (x : W32) (neg : Bool) (mag : Nat) (exp : Int) : W32 :=
  match exp with
  | .ofNat k =>
      if mag = 0 then 0x3F800000#32
      else if 8 ≤ k ∨ 2 ^ 8 ≤ mag * 2 ^ k then
        (if neg then faithful 0 x false (0, false) else 0x7F800000#32)
      else
        let n : Int := if neg then -((mag * 2 ^ k : Nat) : Int) else ((mag * 2 ^ k : Nat) : Int)
        if 128 ≤ n then 0x7F800000#32 else if n < -149 then faithful 0 x false (0, false) else faithful 0 x false (floorCode 1 1 n)
  | .negSucc k =>
      let d := k + 1
      if mag = 0 then 0x3F800000#32
      else if 2 ^ (d + 8) ≤ mag then (if neg then faithful 0 x false (0, false) else 0x7F800000#32)
      else
        let n : Int := if neg then -((ceilDiv mag (2 ^ d) : Nat) : Int) else ((mag / 2 ^ d : Nat) : Int)
        let f := if neg then (2 ^ d - mag % 2 ^ d) % 2 ^ d else mag % 2 ^ d
        if 128 ≤ n then 0x7F800000#32
        else if f = 0 then faithful 0 x false (floorCode 1 1 n)
        else if n < -149 then faithful 0 x false (0, false)
        else
          let c := floorCode (exp2Frac d f) (2 ^ sfuBits) n
          faithful 0 x false (c.1, false)

/-- Fraction bits of log₂ of a value in [1, 2) in units of 2^-400, by repeated squaring. -/
def log2Bits : (n : Nat) → (v acc : Nat) → Nat
  | 0, _, acc => acc
  | n + 1, v, acc =>
      let w := v * v / 2 ^ sfuBits
      if 2 * 2 ^ sfuBits ≤ w then log2Bits n (w / 2) (2 * acc + 1) else log2Bits n w (2 * acc)

/-- log2 of a finite positive value. -/
def sfuLog2 (x : W32) (mag : Nat) (exp : Int) : W32 :=
  let l := leadBit mag
  let n : Int := (l : Int) + exp
  if mag = 2 ^ l then faithful 1 x (decide (n < 0)) (floorCode n.natAbs 1 0)
  else
    let f := log2Bits 128 (mag * 2 ^ sfuBits / 2 ^ l) 0
    let z : Int := n * ((2 ^ 128 : Nat) : Int) + (f : Int)
    let neg := decide (z < 0)
    -- the exact result lies strictly between two multiples of 2^-128
    let m := if neg then z.natAbs - 1 else z.natAbs
    let q : Int := -128
    let lead := (leadBit (max m 1) : Int) + q
    let p := max (lead - 23) (-149)
    faithful 1 x neg (packMag fmtFP32 (m / 2 ^ (p - q).toNat) p, false)

/-- rcp of a finite nonzero value. -/
def sfuRcp (x : W32) (neg : Bool) (mag : Nat) (exp : Int) : W32 := faithful 2 x neg (floorCode 1 mag (-exp))

/-- rsqrt of a finite positive value: 1 / √(mag × 2^exp). -/
def sfuRsqrt (x : W32) (mag : Nat) (exp : Int) : W32 :=
  let (m, e) := if exp % 2 = 0 then (mag, exp) else (2 * mag, exp - 1)
  -- √(1 / m) in units of 2^-200
  let r := Nat.sqrt (2 ^ 400 / m)
  let exact := r * r * m == 2 ^ 400
  let c := floorCode r (2 ^ 200) (-(e / 2))
  faithful 3 x false (c.1, c.2 && exact)

/-! ### Sine and cosine -/

/-- Fraction bits of what follows. -/
def turnBits : Nat := 64

/-- x minus its nearest integer, in units of 2^-64 rounded down: the exact reduction, seen to 64 bits (R141). -/
def turnOf (neg : Bool) (mag : Nat) : (exp : Int) → Int
  | .ofNat _ => 0
  | .negSucc k =>
      let d := k + 1
      let f := mag % 2 ^ d
      let f := if neg then (2 ^ d - f) % 2 ^ d else f
      let u := f * 2 ^ turnBits / 2 ^ d
      if u < 2 ^ (turnBits - 1) then (u : Int) else (u : Int) - 2 ^ turnBits

/-- π in units of 2^-64, rounded down. -/
def piUnits : Int := 57952155664616982739

/-- The sum of a Taylor series from the term of order `k`, in units of 2^-64: each next term is the one before times −y² ÷ ((k + 1)(k + 2)). -/
def taylor (y2 : Int) : (fuel k : Nat) → (term : Int) → Int
  | 0, _, _ => 0
  | n + 1, k, term => term + taylor y2 n (k + 2) (-(term * y2 / 2 ^ turnBits) / (((k + 1) * (k + 2) : Nat) : Int))

/-- sin(2πx) or cos(2πx) in units of 2^-64, to within 2^-40. -/
def trigUnits (cos neg : Bool) (mag : Nat) (exp : Int) : Int :=
  let y := 2 * piUnits * turnOf neg mag exp / 2 ^ turnBits
  let y2 := y * y / 2 ^ turnBits
  if cos then taylor y2 20 0 (2 ^ turnBits) else taylor y2 20 1 y

/-- Whether an FP32 value lies within 2^-22 of the exact one, of which the number is known in units of 2^-64 to within 2^-40. -/
def nearUnits (w : W32) (z : Int) : Bool :=
  match f32 w with
  | .fin neg mag exp =>
      let m : Nat := match exp + 64 with
        | .ofNat k => mag * 2 ^ k
        | .negSucc k => mag / 2 ^ (k + 1)
      let v : Int := if neg then -(Int.ofNat m) else Int.ofNat m
      decide ((v - z).natAbs < 2 ^ 42 - 2 ^ 24)
  | _ => false

/-- Sine or cosine of a finite number of turns: the unit's own value, which has an absolute error below 2^-22 (R141, log entry 9). -/
def sfuTrig (cos : Bool) (x : W32) (neg : Bool) (mag : Nat) (exp : Int) : W32 :=
  let z := trigUnits cos neg mag exp
  let w := Config.sfuTrig cos x
  if nearUnits w z then w else toF32 .rne (ofInt z (-64))

/-- A special function of an FP32 value (Table 6.3): 0 exp2, 1 log2, 2 rcp, 3 rsqrt, 4 sinturn, 5 costurn. -/
def sfu (func : Nat) (x : W32) : W32 :=
  match f32 x with
  | .nan => nan32
  | .inf neg =>
      match func with
      | 0 => if neg then 0 else 0x7F800000#32
      | 1 => if neg then nan32 else 0x7F800000#32
      | 2 => if neg then 0x80000000#32 else 0
      | 3 => if neg then nan32 else 0
      | _ => nan32
  | .fin neg mag exp =>
      match func with
      | 0 => sfuExp2 x neg mag exp
      | 1 => if mag = 0 then 0xFF800000#32 else if neg then nan32 else sfuLog2 x mag exp
      | 2 => if mag = 0 then (if neg then 0xFF800000#32 else 0x7F800000#32) else sfuRcp x neg mag exp
      | 3 => if mag = 0 then (if neg then 0xFF800000#32 else 0x7F800000#32) else if neg then nan32 else sfuRsqrt x mag exp
      | 4 => sfuTrig false x neg mag exp
      | _ => sfuTrig true x neg mag exp

end Sys2Proof.Machine
end

