-- ==== Sys2Proof/Machine/Vector.lean ====
section
/-!
DEFINITION. The Skew vector forms (R138 to R146, R217 to R220, R310, R311).
-/
namespace Sys2Proof.Machine

/-! ### Element operations -/

/-- Whether a < b as real numbers or infinities. -/
def FVal.lt (a b : FVal) : Bool :=
  match a, b with
  | .nan, _ => false
  | _, .nan => false
  | .inf s, .inf t => s && !t
  | .inf s, .fin .. => s
  | .fin .., .inf t => !t
  | .fin s m e, .fin t n f => decide (unitsAt (min e f) s m e < unitsAt (min e f) t n f)

/-- Whether two values are equal; −0 equals +0. -/
def FVal.same (a b : FVal) : Bool :=
  match a, b with
  | .nan, _ => false
  | _, .nan => false
  | .inf s, .inf t => s == t
  | .fin s m e, .fin t n f => decide (unitsAt (min e f) s m e = unitsAt (min e f) t n f)
  | _, _ => false

/-- Whether the sign bit is set. -/
def signBit (a : W32) : Bool := a.getLsbD 31

/-- Minimum and maximum: NaN if either is, −0 below +0 (R140). -/
def fmin (a b : W32) : W32 :=
  if (f32 a).isNan || (f32 b).isNan then nan32
  else if (f32 a).same (f32 b) then (if signBit a then a else b)
  else if (f32 a).lt (f32 b) then a else b
def fmax (a b : W32) : W32 :=
  if (f32 a).isNan || (f32 b).isNan then nan32
  else if (f32 a).same (f32 b) then (if signBit a then b else a)
  else if (f32 a).lt (f32 b) then b else a

/-- All ones or zero (R218). -/
def maskOf (b : Bool) : W32 := if b then 0xFFFFFFFF#32 else 0

/-- An FP32 form of Table 8.7; a comparison's mask is given apart. -/
def fpForm (func : Nat) (a b c : W32) : W32 :=
  match func with
  | 0 => fadd a b
  | 1 => toF32 .rne ((f32 a).add (f32 b).neg)
  | 2 => fmul a b
  | 3 => ffma a b c
  | 4 => fmin a b
  | 5 => fmax a b
  | 6 => maskOf ((f32 a).same (f32 b))
  | 7 => maskOf ((f32 a).lt (f32 b))
  | 8 => maskOf ((f32 a).lt (f32 b) || (f32 a).same (f32 b))
  | 9 => if c = 0 then b else a
  | 10 => if (f32 a).isNan then nan32 else a &&& 0x7FFFFFFF#32
  | _ => if (f32 a).isNan then nan32 else a ^^^ 0x80000000#32

/-- A BF16 value widened, and an FP32 value rounded to BF16 (R140). -/
def widen (h : Nat) : W32 := BitVec.ofNat 32 (h % 2 ^ 16 * 2 ^ 16)
def narrow (v : W32) : Nat := toFloat fmtBF16 false .rne (f32 v)

/-- A packed BF16 form on one element (R140, R218). -/
def bfForm (func : Nat) (a b c : Nat) : Nat :=
  if 6 ≤ func ∧ func ≤ 8 then (fpForm func (widen a) (widen b) (widen c)).toNat % 2 ^ 16
  else narrow (fpForm func (widen a) (widen b) (widen c))

/-- An INT32 form of Table 8.7. -/
def intForm (sat : Bool) (func : Nat) (a b : W32) : W32 :=
  match func with
  | 0 => if sat then (satAdd32 a b.toInt).1 else a + b
  | 1 => if sat then (satAdd32 a (-b.toInt)).1 else a - b
  | 2 => a &&& b
  | 3 => a ||| b
  | 4 => a ^^^ b
  | 5 => a <<< (b.toNat % 32)
  | 6 => a >>> (b.toNat % 32)
  | 7 => a.sshiftRight (b.toNat % 32)
  | 8 => maskOf (a == b)
  | _ => maskOf (decide (a.toInt < b.toInt))

/-! ### Reductions and permutes -/

/-- One level of the pairwise tree; an element without a partner meets the identity (R142). -/
def reduceLevel (op : W32 → W32 → W32) (e : W32) : List W32 → List W32
  | a :: b :: l => op a b :: reduceLevel op e l
  | [a] => [op a e]
  | [] => []

/-- The eleven levels: seven within a slice and four across slices. -/
def reduceTree (op : W32 → W32 → W32) (e : W32) : Nat → List W32 → W32
  | 0, l => l.headD e
  | n + 1, l => reduceTree op e n (reduceLevel op e l)

/-- A reduction: 0 sum, 1 maximum, 2 minimum (R142). -/
def reduceForm (func : Nat) (l : List W32) : W32 :=
  match func with
  | 0 => reduceTree fadd 0x80000000#32 11 l
  | 1 => reduceTree fmax 0xFF800000#32 11 l
  | _ => reduceTree fmin 0x7F800000#32 11 l

/-- Source element of destination element `i` (R143); none for one that writes +0. -/
def permSource (func vb vl : Nat) (idx : W32) (i : Nat) : Option Nat :=
  match func with
  | 0 => if idx.toNat < vl then some idx.toNat else none
  | 1 => some (128 * vb + i % 128)
  | _ => some (i / 1024 * 1024 + i % 32 * 32 + i % 1024 / 32)

/-! ### Writing results, and the checks of a slice (R311) -/

/-- Lane words of register `r` written from word `i` on. -/
def Core.lanesFrom (x : Core) (r : Nat) : List W32 → (i : Nat) → Core
  | [], _ => x
  | v :: vs, i => (x.setLane r i v).lanesFrom r vs (i + 1)

/-- Elements of `w` bits of register `r` written from element `i` on. -/
def Core.elemsFrom (x : Core) (r w : Nat) : List Nat → (i : Nat) → Core
  | [], _ => x
  | v :: vs, i => (x.setElem r w i v).elemsFrom r w vs (i + 1)

/-- The first lane words, or elements, of register `r` written, each with its poison (R138, R313). -/
def Core.setLanes (x : Core) (r : Nat) (vs : List (W32 × Bool)) : Core := (x.lanesFrom r (vs.map (·.1)) 0).markElems r 32 (vs.map (·.2))
def Core.setElems (x : Core) (r w : Nat) (vs : List (Nat × Bool)) : Core := (x.elemsFrom r w (vs.map (·.1)) 0).markElems r w (vs.map (·.2))

/-- Where a form's results stand: a register, the width of its elements, and how many of them each slice gives (R219, R311). -/
structure Dest where
  reg : Nat
  width : Nat
  share : Nat
  deriving DecidableEq, Repr

/-- Units of register `r` whose poison no record covers yet, by its first elements (R313). -/
def Core.markNew (x : Core) (r w : Nat) (news : List Bool) : Core :=
  news.zipIdx.foldl (fun x p => if p.1 then
      (elemUnits w p.2).foldl (fun x u => { x with vNew := Sparse.put false0 x.vNew (vUnit r u) true }) x else x) x

/-- The elements of a slice as they were, with their units' poison; a unit that other slices share is poisoned if it was or is (R311, R313). -/
def Core.keepSlice (x old : Core) (v : Dest) (slice : Nat) : Core :=
  let x := (List.range v.share).foldl (fun x i =>
    let j := v.share * slice + i
    x.setElem v.reg v.width j (old.elem v.reg v.width j)) x
  let lo := v.share * slice * v.width
  let hi := lo + v.share * v.width
  (List.range (ceilDiv hi 512 - lo / 512)).foldl (fun x i =>
    let u := lo / 512 + i
    let own := decide (lo ≤ 512 * u) && decide (512 * (u + 1) ≤ hi)
    let was := Sparse.get false0 old.vpoison (vUnit v.reg u)
    { x with vpoison := Sparse.put false0 x.vpoison (vUnit v.reg u) (was || (!own && Sparse.get false0 x.vpoison (vUnit v.reg u)))
             vNew := Sparse.put false0 x.vNew (vUnit v.reg u) (Sparse.get false0 old.vNew (vUnit v.reg u)) }) x

/-- The slices that mismatch, and those that mismatch again on their re-execution: of the surroundings, and armed (R321). -/
def sliceFaults (f : EngFacts) (inject : List (Nat × Nat)) (slices : Nat) : List Nat × List Nat :=
  let inj := inject.filter fun p => decide (p.1 < slices)
  ((f.mismatch ++ inj.map (·.1)).eraseDups.filter (· < slices),
    (f.again ++ (inj.filter fun p => decide (2 ≤ p.2)).map (·.1)).eraseDups)

/-- The result of a checked form: each mismatching slice is re-executed once, and one that mismatches again keeps its old
elements and stops the core (R311). `words` is how many lane words the form works on. -/
def State.finishForm (s : State) (d c : Nat) (f : EngFacts) (words tile : Nat) (regs : List Dest) (new : Core) : State :=
  let old := s.core d c
  let slices := ceilDiv words 128
  let (mis, again) := sliceFaults f old.inject slices
  let left := old.inject.filter fun p => decide (slices ≤ p.1)
  let s := s.setCore d c { new with inject := left }
  mis.foldl (fun s k =>
    let s := (s.bump d c 0x120 1).setFld d c 0x140 0 4 k
    if again.contains k then
      let s := s.onCore d c fun x => regs.foldl (fun x r => x.keepSlice old r k) x
      (s.setFlag d c 0x140 4 true).checkFailed d c 0x7F (k + tile * 2 ^ 3)
    else s) s

/-- The instruction counters, and what the form meets in the core's SRAM (R164, R312, R313). -/
def State.countForm (s : State) (d c : Nat) (unit : Nat) (f : EngFacts) : State :=
  let s := if unit = 0 then s.bump d c 0x110 1 else if unit = 1 then s.bump d c 0x118 1 else s
  s.sramErrors d c f

/-- What a form reads of registers, each with the width of its elements: their poison enters its arithmetic (R313). -/
def State.useVecs (s : State) (d c w n : Nat) (rs : List Nat) : State := rs.eraseDups.foldl (fun s r => s.useVec d c r w n) s

/-- Poison of the elements that a form reads. -/
def Core.anyBad (x : Core) (w i : Nat) (rs : List Nat) : Bool := rs.any fun r => x.elemBad r w i

/-! ### Forms -/

/-- VFP, VINT and VSFU: an elementwise form on 32-bit elements (R140); `lost` are elements whose tables had a double-bit error (R310). -/
def State.runLanes (s : State) (d c vd n : Nat) (srcs : List Nat) (f : EngFacts) (op : Core → Nat → W32) (lost : List Nat := []) : State :=
  let x := s.core d c
  let vs := (List.range n).map fun i => (op x i, x.anyBad 32 i srcs || lost.contains i)
  let s := s.useVecs d c 32 n srcs
  s.finishForm d c f n 0 [⟨vd, 32, 128⟩] ((s.core d c).setLanes vd vs)

/-- VBF, and packed VSFU: an elementwise form on packed BF16 elements (R140). -/
def State.runPacked (s : State) (d c vd n : Nat) (srcs : List Nat) (f : EngFacts) (op : Core → Nat → Nat) (lost : List Nat := []) : State :=
  let x := s.core d c
  let vs := (List.range n).map fun i => (op x i, x.anyBad 16 i srcs || lost.contains i)
  let s := s.useVecs d c 16 n srcs
  s.finishForm d c f (ceilDiv n 2) 0 [⟨vd, 16, 256⟩] ((s.core d c).setElems vd 16 vs)

/-- VRED (R142). -/
def State.runRed (s : State) (d c vd va func n : Nat) (f : EngFacts) : State :=
  let x := s.core d c
  let bad := (List.range n).any fun i => x.elemBad va 32 i
  let r := reduceForm func ((List.range n).map fun i => x.lane va i)
  let s := s.useVec d c va 32 n
  s.finishForm d c f n 0 [⟨vd, 32, 128⟩] ((s.core d c).setLanes vd [(r, bad)])

/-- VPERM (R143) moves bits, and what no record covers of their poison with them (R313); a source element at or above VL is not read, and
what its destination takes is free. -/
def State.runPerm (s : State) (d c vd va vb func n : Nat) : State :=
  let x := s.core d c
  let new (r i : Nat) : Bool := (elemUnits 32 i).any fun u => Sparse.get false0 x.vNew (vUnit r u)
  let vs := (List.range n).map fun i =>
    let (ib, inew) := if func = 0 then (x.elemBad vb 32 i, new vb i) else (false, false)
    match permSource func vb n (x.lane vb i) i with
    | none => (0#32, ib, inew)
    | some j => if j < n then (x.lane va j, x.elemBad va 32 j || ib, new va j || inew) else (Config.freeBits 32 (s.fresh + i), ib, inew)
  let s := s.poisonRead d c (vs.any (·.2.1))
  let s := s.setCore d c ((x.setLanes vd (vs.map fun v => (v.1, v.2.1))).markNew vd 32 (vs.map (·.2.2)))
  { s with fresh := s.fresh + n }

/-- Value of source element `i` of a conversion (R144, R219): INT32 is converted to FP32 first (R53). A scaled element beyond FP32's range
keeps its exact value until the destination's rounding (DESIGN CHOICE, log entry 86). -/
def Core.cvtValue (x : Core) (va fmt i : Nat) : FVal :=
  let w := x.elem va (fmtBits fmt) i
  if fmt = 0x0C then f32 (i2f (BitVec.ofNat 32 w))
  else if fmtMX fmt then scaled (x.elem (va + 1) 8 (i / 32)) (decodeElem fmt w)
  else decodeElem fmt w

/-- The conversion of a block of 32 elements or fewer: its scale byte where the format has one, and its elements. -/
def cvtBlock (fmt : Nat) (sat : Bool) (rs : List Round) (vs : List FVal) : Nat × List Nat :=
  if fmtMX fmt then convertBlock fmt sat rs vs else (0, (rs.zip vs).map fun p => convertElem fmt sat p.1 p.2)

/-- Draws of a conversion: G_skew steps once before each group of 128 elements (R144). -/
def cvtRounds : (groups : Nat) → W64 → List Round × W64
  | 0, g => ([], g)
  | n + 1, g =>
      let g1 := genStep g
      let (l, g2) := cvtRounds n g1
      ((List.range 128).map (fun i => Round.sr (genDraw g1 i)) ++ l, g2)

/-- Lists cut into blocks of up to 32. -/
def cut32 {α : Type} : (fuel : Nat) → List α → List (List α)
  | 0, _ => []
  | _, [] => []
  | fuel + 1, l => l.take 32 :: cut32 fuel (l.drop 32)

/-- VCVT (R144, R219); its start has seeded G_skew. -/
def State.runCvt (s : State) (d c : Nat) (sat sr : Bool) (vd va src dst n tile : Nat) (bf : Bool) (f : EngFacts) : State :=
  let x := s.core d c
  let g := Sparse.get gen0 x.gens 0
  let (draws, g2) := cvtRounds (ceilDiv n 128) (if bf then g.stateB else g.state)
  let s := s.useVec d c va (fmtBits src) n
  let s := if fmtMX src then s.useVec d c (va + 1) 8 (ceilDiv n 32) else s
  let y := { s.core d c with gens := Sparse.put gen0 x.gens 0 (if bf then { g with stateB := g2 } else { g with state := g2 }) }
  let rs := (List.range n).map fun i => if sr then draws.getD i .rne else .rne
  let wd := fmtBits dst
  let bad (i : Nat) : Bool := x.elemBad va (fmtBits src) i || (fmtMX src && x.elemBad (va + 1) 8 (i / 32))
  let pass := src == 0x0C && dst == 0x0C
  let blocks := cut32 (n + 1) ((List.range n).map fun i => (rs.getD i .rne, x.cvtValue va src i, x.elem va 32 i, bad i))
  let outs := blocks.map fun (b : List (Round × FVal × Nat × Bool)) =>
    let anyBad := b.any fun (p : Round × FVal × Nat × Bool) => p.2.2.2
    let r : Nat × List Nat :=
      if pass then (0, b.map fun (p : Round × FVal × Nat × Bool) => p.2.2.1)
      else cvtBlock dst sat (b.map fun (p : Round × FVal × Nat × Bool) => p.1) (b.map fun (p : Round × FVal × Nat × Bool) => p.2.1)
    let bads := b.map fun (p : Round × FVal × Nat × Bool) => if fmtMX dst then anyBad else p.2.2.2
    (r.1, anyBad, r.2.zip bads)
  let z := y.setElems vd wd (outs.flatMap (·.2.2))
  let z := if fmtMX dst then z.setElems (vd + 1) 8 (outs.map fun o => (o.1, o.2.1)) else z
  let wide := max wd (fmtBits src)
  let share := 4096 / wide
  let dests : List Dest := [⟨vd, wd, share⟩] ++ if fmtMX dst then [⟨vd + 1, 8, share / 32⟩] else []
  s.finishForm d c f (ceilDiv (n * wide) 32) tile dests z

/-- SLD (R145, R220): poison fills the units of the elements it reads, and is recorded. -/
def State.runSld (s : State) (d c v unit n : Nat) : State :=
  let x := s.core d c
  let vs := (List.range n).map fun i =>
    (BitVec.ofNat 32 (x.readBuf (bufBytes c) (64 * unit + 4 * i) 4), x.bufBad (64 * unit + 4 * i) 4)
  let s := match x.badUnit (64 * unit) (4 * n) with | some u => s.poisonUsed d c u | none => s
  s.onCore d c fun x => x.setLanes v vs

/-- SST (R145, R220): a poisoned element poisons its unit. -/
def State.runSst (s : State) (d c v unit n : Nat) (f : EngFacts) : State :=
  let x := s.core d c
  let data := packBits 32 ((List.range n).map fun i => (x.lane v i).toNat)
  let mask := (List.range (ceilDiv n 16)).foldl (fun m u =>
    m + b2n ((List.range 16).any fun j => decide (16 * u + j < n) && x.elemBad v 32 (16 * u + j)) * 2 ^ u) 0
  s.putBuf d c 6 f.same (64 * unit) (4 * n) data mask 0

/-- VIMM (R217). -/
def State.runImm (s : State) (d c vd imm n : Nat) : State :=
  s.onCore d c fun x => x.setLanes vd (List.replicate n (BitVec.ofNat 32 imm, false))

end Sys2Proof.Machine
end

