-- ==== Sys2Proof/Machine/Units.lean ====
section
/-!
DEFINITION. The execution units of the Gouge and Skew cores: what may start, what is under way, and how far it goes (R36, R40, R43 to R48,
R139, R183, R190 to R193, R214, R215).
-/
namespace Sys2Proof.Machine

/-- Cycles of an open window executed so far (R190). -/
def State.windowPos (s : State) (d c : Nat) (w : Window) : Nat := (s.quarter d (c / 6)).cycle - w.base

/-! ### Units -/

/-- The unit of an instruction (Table 8.1): 0 row streamer or vector, 1 weight loader or special function, 2 epilogue or permute,
3 chain port or scratch port. -/
def opUnit : EngOp → Nat
  | .wld | .vsfu => 1
  | .epi | .tbld | .vperm => 2
  | .chout | .chin | .send | .sld | .sst | .spush => 3
  | _ => 0

/-- Every queued entry of a program's units. -/
def Core.queued (x : Core) (bf : Bool) : List UEntry := (List.range 4).flatMap fun u => x.unit (u + if bf then 4 else 0)

/-- Entries under way: row streams, and instructions of the epilogue unit and the chain port. -/
def Core.underWay (x : Core) : List UEntry := x.runs ++ x.works.map (·.entry)

/-- Whether an entry is under way. -/
def Core.isUnderWay (x : Core) (e : UEntry) : Bool := x.underWay.any fun b => b.seq == e.seq

/-- Entries dispatched before `seq` that have not finished, of both programs. -/
def Core.before (x : Core) (seq : Nat) : List UEntry :=
  (x.queued false ++ x.queued true ++ x.underWay).filter fun e => decide (e.seq < seq)

/-- Arrays that an instruction swaps, and the array that it loads. -/
def swapsOf : EngInstr → List Nat
  | .wswap mask => arraysOf mask
  | .rs swap _ _ mask _ _ _ _ _ _ _ _ => if swap then arraysOf mask else []
  | _ => []
def loadOf : EngInstr → Option Nat
  | .wld _ a _ _ _ _ _ _ => some a
  | _ => none

/-- Whether an instruction is a fused stream. -/
def isFused (i : EngInstr) : Bool := match rsOf i with | some r => r.epi.isSome | none => false

/-- Arrays that a core's streams under way mask; those of a back-fill stream that waits for its next window are not active (R182, R183,
log entry 79). -/
def Core.activeMask (x : Core) : Nat :=
  let of (r : Option Run) : Nat := match r.bind fun r => rsOf r.entry.instr with | some r => r.mask | none => 0
  of x.stream ||| (if x.bfActive then of x.streamB else 0)

/-- Arrays of a quarter that are active (R182, R183). -/
def State.activeArrays (s : State) (d q : Nat) : Nat :=
  (List.range 6).foldl (fun n j => n + (arraysOf (s.core d (6 * q + j)).activeMask).length) 0

/-- Whether the array limit lets a stream of core `c` with a mask start (R183). -/
def State.withinLimit (s : State) (d c mask : Nat) : Bool :=
  let mine := (s.core d c).activeMask
  decide (s.activeArrays d (c / 6) + (arraysOf (mask ||| mine)).length - (arraysOf mine).length ≤ s.fld d (qBlk (c / 6)) 0x180 2 4)

/-- Row streams of a quarter that wait for the array limit, oldest first, but for those that wait no longer: those that have started, and those
of a back-fill program whose window is over (R183, R192). -/
def State.arrayWaiters (s : State) (d q : Nat) : List (Nat × Nat) :=
  ((s.quarter d q).arrayQ.map fun w => w.2).filter fun w =>
    let x := s.core d w.1
    [0, 4].any fun u => (u == 0 || x.bfActive) && (match x.unit u with | e :: _ => e.seq == w.2 && !e.started | [] => false)

/-- A wait that begins in cycle `t` put behind the older ones, and in a tie behind those of lower core numbers (R183). -/
def putWaiter (t c seq : Nat) : List (Nat × Nat × Nat) → List (Nat × Nat × Nat)
  | [] => [(t, c, seq)]
  | w :: l => if w.1 < t ∨ (w.1 = t ∧ w.2.1 ≤ c) then w :: putWaiter t c seq l else (t, c, seq) :: w :: l

/-- Whether a stream is the oldest of its quarter that waits for the array limit, or none waits (R183). -/
def State.arrayTurn (s : State) (d c seq : Nat) : Bool :=
  match s.arrayWaiters d (c / 6) with
  | [] => true
  | w :: _ => w == (c, seq)

/-- K and N of the tile that logical array `a` will multiply with when an entry with number `seq` starts, after its own swap if it
requests one: the unfinished loads and swaps before it are followed from the tiles in the array's registers. -/
def State.shapeAt (s : State) (d c a seq : Nat) (swap : Bool) : Nat × Nat :=
  let x := s.core d c
  let todo := (x.before seq).filter fun e => !e.started && !(x.runs.map (·.seq)).contains e.seq
  let step (p : (Nat × Nat) × (Nat × Nat)) (e : UEntry) : (Nat × Nat) × (Nat × Nat) :=
    match e.instr with
    | .wld _ b _ kM1 ncode _ _ _ => if b = a then (p.1, (kM1 + 1, colsOf ncode)) else p
    | i => if (swapsOf i).contains a then (p.2, p.1) else p
  let shape (t : WTile) : Nat × Nat := (t.k, t.n)
  let p := (todo.mergeSort fun x y => decide (x.seq ≤ y.seq)).foldl step (shape (s.activeTile d c a), shape (s.shadowTile d c a))
  if swap then p.2 else p.1

/-- Words of row `r` on of a row stream on array `a` with `n` columns, of a number of rows (R42). -/
def rowWords (a wbase n r rows : Nat) : Nat × Nat × Nat × Bool := (a, wbase + r * (n / 32), rows * (n / 32), true)

/-- Accumulator words that an entry has still to read or write: array, first word, words, whether it writes them (R42, R48, R106). A row
stream has them by the columns of the tile that it meets in each array, rows withheld among them; what is under way, from its next row or
beat on. -/
def State.wordsOf (s : State) (d c : Nat) (e : UEntry) : List (Nat × Nat × Nat × Bool) :=
  let x := s.core d c
  match rsOf e.instr with
  | some r =>
      if !r.stores then []
      else
        match [x.stream, x.streamB].findSome? fun y => y.bind fun y => if y.entry.seq = e.seq then some y else none with
        | some y =>
            ((arraysOf r.mask).map fun a => rowWords a r.wbase (s.activeTile d c a).n y.next (r.m - y.next)) ++
              (x.withheld.filter fun w => w.bf == e.backfill).map fun w => rowWords w.array r.wbase (s.activeTile d c w.array).n w.row 1
        | none => (arraysOf r.mask).map fun a => rowWords a r.wbase (s.shapeAt d c a e.seq r.swap).2 0 r.m
  | none =>
      match x.works.find? fun w => w.entry.seq == e.seq with
      | none => accUses 32 e.instr
      | some w =>
          match e.instr with
          | .epi _ _ mask wbase m ncode _ _ =>
              let n := colsOf ncode / 32
              match w.epi with
              | some ep => if ep.desc.dest = 3 then (ep.pushes.drop ep.sent).map fun p => (p.2.1, wbase + 4 * p.2.2.1, 4 * p.2.2.2.1, false)
                  else (arraysOf mask).map fun a => (a, wbase + w.next * n, (m - w.next) * n, false)
              | none => []
          | .chout _ a wbase m ncode _ _ _ _ _ _ =>
              let n := m * (colsOf ncode / 32)
              [(a, wbase + 4 * w.next, n - 4 * w.next, false)]
          | .chin _ a wbase m ncode _ _ => [rowWords a wbase (colsOf ncode) w.next (m - w.next)]
          | _ => []

/-- Accumulator words that row or beat `k` of an entry reads or writes (R42, R48, R58). -/
def State.rowUses (s : State) (d c : Nat) (e : UEntry) (k : Nat) : List (Nat × Nat × Nat × Bool) :=
  match e.instr with
  | .rs swap _ ed mask mode m _ _ _ wbase _ _ =>
      if (ed.isSome && mode == 3) || decide (m ≤ k) then []
      else
        let held := (s.core d c).isUnderWay e
        (arraysOf mask).map fun a => rowWords a wbase (if held then (s.activeTile d c a).n else (s.shapeAt d c a e.seq swap).2) k 1
  | .epi _ _ mask wbase m ncode _ _ =>
      if m ≤ k then [] else (arraysOf mask).map fun a => (a, wbase + k * (colsOf ncode / 32), colsOf ncode / 32, false)
  | .chout _ a wbase m ncode _ _ _ _ _ _ =>
      let n := m * (colsOf ncode / 32)
      if n ≤ 4 * k then [] else [(a, wbase + 4 * k, min 4 (n - 4 * k), false)]
  | .chin _ a wbase m ncode _ _ => if m ≤ k then [] else [rowWords a wbase (colsOf ncode) k 1]
  | _ => []

/-- Whether two sets of accumulator words have a word in common that one of them writes (R48). -/
def wordsClash (us vs : List (Nat × Nat × Nat × Bool)) : Bool :=
  us.any fun u => vs.any fun v =>
    u.1 == v.1 && decide (u.2.1 < v.2.1 + v.2.2.1) && decide (v.2.1 < u.2.1 + u.2.2.1) && (u.2.2.2 || v.2.2.2)

/-- Words that reduction pushes on their way have still to read (R106). -/
def Core.pushWords (x : Core) : List (Nat × Nat × Nat × Bool) :=
  x.outQ.filterMap fun o => o.words.map fun w => (w.1, w.2.1, w.2.2, false)

/-- Whether row or beat `k` of an entry must wait for accumulator words that earlier ones have still to read or write (R48, R106): the
interlock is exact to the word. -/
def State.rowWaits (s : State) (d c : Nat) (e : UEntry) (k : Nat) : Bool :=
  let x := s.core d c
  let us := s.rowUses d c e k
  us != [] && (wordsClash x.pushWords us || (x.before e.seq).any fun b => wordsClash (s.wordsOf d c b) us)

/-- Readers and writers of an array that the interlock tracks at once (R48). -/
def accTracked : Nat := 4

/-- Whether an array that an entry reads or writes already has four started and unfinished ones of its kind (R48). -/
def State.accFull (s : State) (d c : Nat) (e : UEntry) : Bool :=
  let x := s.core d c
  let open_ := (x.before e.seq).filter x.isUnderWay
  let pushes := (x.pushWords.map (·.1)).eraseDups
  let uses (b : UEntry) (u : Nat × Nat × Nat × Bool) : Bool := (s.wordsOf d c b).any fun v => v.1 == u.1 && v.2.2.2 == u.2.2.2
  (s.wordsOf d c e).any fun u =>
    decide (accTracked ≤ (open_.filter fun b => uses b u).length + b2n (!u.2.2.2 && pushes.contains u.1))

/-! ### Windows of a back-fill program -/

/-- Cycles that an instruction holds its unit for (Tables 6.2 and 8.5); a row stream's rows are counted as they issue. -/
def unitCycles (gouge : Bool) : EngInstr → Nat
  | .wld transpose _ fmt kM1 ncode _ _ _ =>
      let kn := (kM1 + 1) * colsOf ncode
      ceilDiv (kn * fmtBits fmt) (8 * if transpose then 256 else 512) + (if fmtMX fmt then ceilDiv kn (32 * 512) else 0)
  | .epi _ _ _ _ m _ _ _ => m
  | .tbld .. => 5
  | .chout _ _ _ m ncode _ _ _ _ _ _ => ceilDiv (m * colsOf ncode) 128
  | .chin _ _ _ m _ _ _ => m
  | .send _ _ _ _ _ xferLast _ _ _ => if gouge then xferLast + 1 else ceilDiv (xferLast + 1) 8
  | .vbf _ _ _ _ _ vl => ceilDiv (vl + 1) 4096
  | .vsfu packed _ _ _ vl => if packed then ceilDiv (16 * (vl + 1)) 4096 else ceilDiv (8 * (vl + 1)) 2048
  | .vperm _ _ _ func vl => ceilDiv ((if func = 0 then 4 else if func = 1 then 1 else 2) * (vl + 1)) 2048
  | .vcvt _ _ _ _ _ dstFmt vl _ => ceilDiv ((if fmtMX dstFmt then 2 else 1) * (vl + 1)) 4096
  | .sld _ _ vl => ceilDiv (2 * (vl + 1)) 2048
  | .sst _ _ vl => ceilDiv (2 * (vl + 1)) 2048
  | .spush _ countM1 _ _ => ceilDiv (countM1 + 1) 8
  | .wswap _ => 0
  | .rs .. => 0
  | _ => 1

/-- Window cycle after which unit `u` (0 to 3) of the back-fill program is free (R192). -/
def State.windowFrom (s : State) (d c u : Nat) (w : Window) : Nat := max (s.windowPos d c w) (Sparse.get nat0 w.busy u)

/-- Cycles that unit `u` of the back-fill program may still work in the open window: to window cycle n − 16 (R192). -/
def State.windowLeft (s : State) (d c u : Nat) : Nat :=
  match (s.core d c).window with
  | some w => w.n - 16 - s.windowFrom d c u w
  | none => 0

/-- Unit `u` of the back-fill program works for `n` more cycles of the open window. -/
def State.windowWork (s : State) (d c u n : Nat) : State :=
  s.onCore d c fun x => { x with window := x.window.map fun w => { w with busy := Sparse.put nat0 w.busy u (s.windowFrom d c u w + n) } }

/-- Rows that a number of issue cycles issues, those that the first of them has had already among them, and issue cycles of a number of rows
(R39, R45, R46). -/
def rowsIn (fmt : Nat) (pairs : Bool) (n : Nat) : Nat := if fmtBits fmt = 16 then n / 4 else if pairs then 2 * n else n
def issuesFor (fmt : Nat) (pairs : Bool) (rows : Nat) : Nat := if fmtBits fmt = 16 then 4 * rows else if pairs then ceilDiv rows 2 else rows

/-- Whether the rows of a stream issue in pairs with the tiles that are active (R39, R46). -/
def State.pairs (s : State) (d c : Nat) (r : Rs) : Bool := pairsOf r.fmt r.epi.isSome ((arraysOf r.mask).map fun a => s.activeTile d c a)

/-- The cycle counts in which a program's streamer may work and has not: up to now, of the back-fill program in window cycles up to
n − 16 (R190, R192). -/
def State.streamSpan (s : State) (d c : Nat) (bf : Bool) (at_ : Nat) : Nat × Nat :=
  let now := (s.quarter d (c / 6)).cycle
  match bf, (s.core d c).window with
  | false, _ => (at_, now)
  | true, some w => (max at_ w.base, min now (w.base + (w.n - 16)))
  | true, none => (0, 0)

/-! ### Reads and writes in flight (R195) -/

/-- Whether units that an instruction reads share a 512 B line with `n` lines from `line` on. -/
def readsLines (uses : List (Nat × Nat)) (line n : Nat) : Bool :=
  uses.any fun u => decide (u.2 ≠ 0) && decide (u.1 / 8 < line + n) && decide (line ≤ (u.1 + u.2 - 1) / 8)

/-- The hazards of a unit that reads units of the buffer while writes to their lines are on their way (Table 7.9): kind 1 for a counted
transfer, before its R_i; and for the reads that `racing` names, a row stream's, a weight load's, a chain-in's or a scratch load's, kind 2
for any write from the ring, a near lane or a load queue. -/
def State.readHazards (s : State) (d c : Nat) (racing : Bool) (uses : List (Nat × Nat)) : State :=
  if !s.debug d (c / 6) then s
  else
    let now := s.phaseNow d (c / 6)
    let line (p : Nat × Xfer) : Nat := p.2.tag.bufLine + (if p.2.near then 4 else 1) * p.2.tag.xfer
    let hit := (s.comingTo d c).filter fun p => readsLines uses (line p) p.2.lines
    let s := hit.foldl (fun s p =>
      match p.2.stamp with
      | some st =>
          let r := s.releaseOf d c p.1 p.2 st ((s.core d c).entryOf p.1 p.2.tag.tile)
          if now < r then s.hazard d c 1 p.2.tag.tile (line p) r now else s
      | none => s) s
    if racing then
      let loads := (List.range 8).flatMap fun k => (((s.core d c).queue k).reqs.filter fun r => r.id.isSome).map fun r => (r.loc, r.units)
      let s := hit.foldl (fun s p => s.hazard d c 2 p.2.tag.tile (line p) 0 now) s
      (loads.filter fun r => readsLines uses (r.1 / 8) ((r.1 + r.2 - 1) / 8 - r.1 / 8 + 1)).foldl
        (fun s r => s.hazard d c 2 0 (r.1 / 8) 0 now) s
    else s

/-! ### Starting -/

/-- Whether a row stream but for the array limit may start (R36, R40, R43, R48). -/
def State.streamReady (s : State) (d c : Nat) (e : UEntry) (r : Rs) : Bool :=
  let x := s.core d c
  let old := (x.before e.seq).filter fun b => b.backfill == e.backfill
  (x.runOf e.backfill).isNone &&
    (!r.swap || old.all fun b => match loadOf b.instr with | some a => !(arraysOf r.mask).contains a | none => true) &&
    !s.rowWaits d c e 0 && !s.accFull d c e &&
    (r.epi.isNone || (!x.epiDead && (!(x.outQ.any fun o => o.unit == 2 && o.bf == e.backfill) && !(x.epiOut.any fun o => o.backfill == e.backfill) &&
      old.all fun b => opUnit b.instr.op != 2)))

/-- Whether the unit of an entry may start it now; entries of the other program that wait for their window do not hold it (R190, R192). -/
def State.canStart (s : State) (d c : Nat) (e : UEntry) : Bool :=
  let x := s.core d c
  let old := (x.before e.seq).filter fun b => b.backfill == e.backfill
  let clear := !s.rowWaits d c e 0 && !s.accFull d c e
  let loaded (as : List Nat) : Bool := old.all fun b => match loadOf b.instr with | some a => !as.contains a | none => true
  let free (u : Nat) : Bool := !x.outQ.any fun o => o.unit == u && o.bf == e.backfill
  let none_ (u : Nat) : Bool := !x.works.any fun w => w.unit == u && w.entry.backfill == e.backfill
  let flushed := !x.epiDead && none_ 2 && free 2 && !(x.epiOut.any fun o => o.backfill == e.backfill)
  let behindChin := x.works.all fun w => w.unit != 3 || w.entry.backfill != e.backfill ||
    (match w.entry.instr with | .chin .. => true | _ => false)
  let sends := free 3 && behindChin && decide ((x.works.filter fun w => w.unit == 3 && w.entry.backfill == e.backfill).length ≤ 1)
  (!e.backfill || decide (0 < s.windowLeft d c (opUnit e.instr.op))) &&
  match e.instr with
  | .wswap mask => (x.runOf e.backfill).isNone && loaded (arraysOf mask)
  | .rs swap transpose ed mask mode m row pitch fmt wbase scale tile =>
      s.streamReady d c e ⟨swap, transpose, ed, mask, mode, m, row, pitch, fmt, wbase, scale, tile⟩ && s.withinLimit d c mask &&
        s.arrayTurn d c e.seq
  | .wld _ a _ _ _ _ _ _ => old.all fun b => x.isUnderWay b || !(swapsOf b.instr).contains a
  | .epi .. => flushed && clear && old.all fun b => !isFused b.instr
  | .tbld .. => flushed && old.all fun b => !isFused b.instr
  | .chout .. => clear && sends
  | .chin .. => none_ 3 && free 3 && !s.accFull d c e
  | .send .. => sends
  | .sld .. => none_ 3
  | .sst .. => none_ 3
  | .spush .. => none_ 3 && free 3
  | _ => true

/-- A row stream that nothing but the array limit keeps from starting takes its place among those that wait (R183). -/
def State.joinArrayQ (s : State) (d c : Nat) : State :=
  let q := c / 6
  let x := s.core d c
  let add (s : State) (u : Nat) : State :=
    match x.unit u with
    | e :: _ =>
        match rsOf e.instr with
        | some r =>
            if !e.started && (u == 0 || x.bfActive) && s.streamReady d c e r && !(s.withinLimit d c r.mask && s.arrayTurn d c e.seq) &&
                !(s.arrayWaiters d q).contains (c, e.seq) then
              let y := s.quarter d q
              let still := y.arrayQ.filter fun w => (s.arrayWaiters d q).contains w.2
              s.setQuarter d q { y with arrayQ := putWaiter y.cycle c e.seq still }
            else s
        | none => s
    | [] => s
  add (add s 0) 4

/-- What a back-fill or main program still waits for when it ends is a hazard of kind 4: its slot or tile, and the tick in which the wait
began (R195, R196, log entry 80). -/
def State.waitHazard (s : State) (d c : Nat) (bf : Bool) : State :=
  let p := (s.core d c).progOf bf
  let now := s.phaseNow d (c / 6)
  match p.hold with
  | some (.token slot _ _) => s.hazard d c 4 0 slot 0 now
  | some (.landing t) => s.hazard d c 4 t 0 0 now
  | _ => s

/-- A unit finds an illegal operand: later instructions of the program that have not started are discarded (R203). -/
def State.illegalUnit (s : State) (d c : Nat) (e : UEntry) : State :=
  let s := (s.illegal d c e.backfill e.word e.first 2).waitHazard d c e.backfill
  s.onCore d c fun x =>
    let x := (List.range 4).foldl (fun x u =>
      let k := u + if e.backfill then 4 else 0
      x.setUnit k ((x.unit k).filter fun b => decide (b.seq < e.seq) || b.started)) x
    x.setProgOf e.backfill { x.progOf e.backfill with hold := none }

/-- A back-fill epilogue whose descriptor names something outside the grant (R191, R195). -/
def State.grantFails (s : State) (d c : Nat) (e : UEntry) (ed : EpiDesc) (m : Nat) (cols : List (Nat × Nat)) : Bool :=
  e.backfill && epiOutside (s.core d c).grants ed m cols

/-- Such an epilogue does nothing (R191, R203); in debug mode it is a hazard of kind 3. -/
def State.refuseGrant (s : State) (d c : Nat) (e : UEntry) : State :=
  (s.illegalUnit d c e).hazard d c 3 0 e.word 0 (s.phaseNow d (c / 6))

/-- Whether a stream's format meets the tiles active for its first row (R39, R213). -/
def State.streamMeets (s : State) (d c : Nat) (r : Rs) : Bool :=
  (arraysOf r.mask).all fun a =>
    match (if r.swap then s.shadowTile d c a else s.activeTile d c a).fmt with
    | some f => mayMeet r.fmt f
    | none => true

/-- The arrays of a mask with the columns of their active tiles. -/
def State.columnsOf (s : State) (d c mask : Nat) : List (Nat × Nat) := (arraysOf mask).map fun a => (a, (s.activeTile d c a).n)

/-- Units of the buffer that an epilogue's descriptor, scales and biases stand in (R55). -/
def descUnits (u : Nat) (e : EpiDesc) (cols : List (Nat × Nat)) : List (Nat × Nat) :=
  let side (v : Option Nat) : List (Nat × Nat) := match v with | some b => cols.map fun p => (b + p.1 * p.2 / 16, p.2 / 16) | none => []
  (u, 1) :: (side e.cscale ++ side e.bias)

/-! ### Row streams under way -/

/-- Units of the buffer that row `i` of a stream that is not transposed reads (R41). -/
def rowUnits (k : Nat) (r : Rs) (i : Nat) : List (Nat × Nat) :=
  (r.row + i * r.pitch, ceilDiv (k * fmtBits r.fmt) 512) :: if fmtMX r.fmt then [(r.scale + i / 16, 1)] else []

/-- The next rows of a stream issue, `n` of them or up to the first that must wait for accumulator words or for a reload; a fused stream's
rows enter the epilogue (R43, R48, R51, R61). -/
def State.issueRows (s : State) (d c : Nat) (r : Rs) (bf pairs : Bool) : (n : Nat) → State
  | 0 => s
  | n + 1 =>
      match (s.core d c).runOf bf with
      | none => s
      | some y =>
          if decide (r.m ≤ y.next) || (s.core d c).reloading bf || s.rowWaits d c y.entry y.next then s
          else
            let s := if r.transpose then s else s.readHazards d c true (rowUnits y.ks r y.next)
            let s := s.issueRow d c r bf y
            let s := s.onCore d c fun x => x.setRun bf ((x.runOf bf).map fun z => x.fillNext c r pairs z)
            (s.fuseRow d c bf y.next).issueRows d c r bf pairs n

/-- A stream with every row issued and none withheld ends; the next one may issue in the cycle after its last (R45). -/
def State.endStream (s : State) (d c : Nat) (bf : Bool) : State :=
  s.onCore d c fun x =>
    match x.runOf bf with
    | some y =>
        match rsOf y.entry.instr with
        | some r => if decide (r.m ≤ y.next) && !(x.withheld.any fun w => w.bf == bf) then { x.setRun bf none with rsFree := max x.rsFree y.at_ } else x
        | none => x
    | none => x

/-- A stream under way goes on through the cycles that its quarter has executed since: its first fill, and then its rows in permitted cycles, one
for each row, one for each pair, or four for each row of 16 bits (R39, R44, R46, R51, R192). -/
def State.advanceStream (s : State) (d c : Nat) (bf : Bool) : State :=
  match (s.core d c).runOf bf with
  | none => s
  | some y =>
      match rsOf y.entry.instr with
      | none => s
      | some r =>
          let (lo, hi) := s.streamSpan d c bf y.at_
          if hi ≤ lo ∨ r.m ≤ y.next ∨ (s.core d c).reloading bf = true then s.endStream d c bf
          else
            let pairs := s.pairs d c r
            let fill := min y.fill (hi - lo)
            let (used, got) := takeSlots (s.issuesAt d (c / 6)) (hi - lo - fill) (lo + fill) (issuesFor r.fmt pairs (r.m - y.next) - y.part)
            let rows := min (r.m - y.next) (rowsIn r.fmt pairs (y.part + got))
            let s := s.onCore d c fun x => x.setRun bf (some (x.fillFirst c r { y with fill := y.fill - fill }))
            let s := s.issueRows d c r bf pairs rows
            let s := s.onCore d c fun x => x.setRun bf ((x.runOf bf).map fun z =>
              { z with at_ := if r.m ≤ z.next then lo + fill + used else hi
                       part := if z.next = y.next + rows ∧ fmtBits r.fmt = 16 then (y.part + got) % 4 else 0 })
            s.endStream d c bf

/-- A row stream opens: what it reads of its SRAM, its draws seeded, its waits for fills counted, its epilogue started; its rows issue from the
cycle after its dispatch on, behind the stream before it (R43, R45, R51, R75). -/
def State.openStream (s : State) (d c : Nat) (r : Rs) (e : UEntry) (ed : Option (Nat × EpiDesc)) : State :=
  let s := s.sramErrors d c e.facts
  let k := s.largestK d c r.mask false
  let pairs := s.pairs d c r
  let cols := s.columnsOf d c r.mask
  let s := (arraysOf r.mask).foldl (fun s a => s.reseedGouge d c a 0 r.tile e.backfill) s
  let s := if r.epi.isSome then (arraysOf r.mask).foldl (fun s a => s.reseedGouge d c a 2 r.tile e.backfill) s else s
  let s := s.bump d c 0x120 (fillWaits r pairs k)
  let s := if r.transpose then s.readHazards d c true (bufUses k e.instr) else s
  let (epi, s) : Option EpiRun × State := match ed with
    | some (u, desc) =>
        let (x, s) := (s.readHazards d c false (descUnits u desc cols)).startEpi d c u desc (intPass r.fmt) false r.m r.tile cols none e.facts
        (some x, s)
    | none => (none, s)
  s.onCore d c fun x => x.setRun e.backfill (some
    { entry := e, at_ := max (max x.rsFree (s.quarter d (c / 6)).lastEdge) (e.since + 1),
      fill := if r.transpose then blockFill r.fmt k else 0, ks := k, epi := epi })

/-- A row stream starts: its checks, its swap, its rows (R40, R41). -/
def State.startStream (s : State) (d c : Nat) (r : Rs) (e : UEntry) : State :=
  let desc := r.epi.map fun u => (u, (s.core d c).readDesc (bufBytes c) u)
  let illegal := match desc with | some (_, none) => true | _ => false
  if !s.streamMeets d c r || illegal then s.illegalUnit d c e
  else
    let s := if r.swap then s.swapTiles d c r.mask else s
    match desc with
    | some (u, some ed) =>
        if s.grantFails d c e ed r.m (s.columnsOf d c r.mask) then s.refuseGrant d c e
        else (s.openStream d c r e (some (u, ed))).advanceStream d c e.backfill
    | _ => (s.openStream d c r e none).advanceStream d c e.backfill

/-! ### Instructions under way in the epilogue unit and the chain port -/

/-- Rows of an epilogue or a chain-in, lines of 512 B of a chain-out or a send. -/
def Work.steps (c : Nat) (w : Work) : Nat :=
  match w.entry.instr with
  | .epi _ _ _ _ m _ _ _ => m
  | .chin _ _ _ m _ _ _ => m
  | i => match lineOut c i with | some o => o.lines | none => 0

/-- Steps of a cycle: a Skew core's send reads eight lines in one (Table 6.2). -/
def Work.perCycle (c : Nat) (w : Work) : Nat := match w.entry.instr with | .send .. => if isGouge c then 1 else 8 | _ => 1

/-- The next row or line of an instruction under way; none where it is over: a word of the other class, or a second mismatch (R212, R309). -/
def State.workStep (s : State) (d c : Nat) (w : Work) : Option Work × State :=
  let e := w.entry
  match e.instr with
  | .epi int _ mask wbase _ ncode _ _ =>
      match w.epi with
      | none => (none, s)
      | some ep =>
          let n := colsOf ncode
          let b := wbase + w.next * (n / 32)
          let as := arraysOf mask
          if !(as.all fun a => (s.core d c).accClassIs a b n int) then (none, s.illegalUnit d c e)
          else
            let s := as.foldl (fun s a => s.useAcc d c a b n) s
            let (gs, s) : List W64 × State := as.foldl (fun p a =>
              let (g, s) := p.2.stepGen d c (genKey a 2) e.backfill
              (p.1 ++ [g], s)) ([], s)
            let x := s.core d c
            let (ep, s) := s.epiRow d c e.backfill e.facts ep w.next
              ((as.zip gs).map fun p => (p.1, x.accRow p.1 b n, x.accBads p.1 b n, p.2))
            if ep.stopped then (none, s) else (some { w with next := w.next + 1, epi := some ep }, s)
  | .chin int a wbase _ ncode bufLine tile =>
      match s.joinRow d c w int a wbase (colsOf ncode) bufLine tile with
      | some (w, s) => (some w, s)
      | none => (none, s.illegalUnit d c e)
  | i =>
      match lineOut c i with
      | some o => let (w, s) := s.sendLine d c w o; (some w, s)
      | none => (none, s)

/-- Up to `n` steps of an instruction under way, up to the first that must wait for accumulator words (R48). -/
def State.workSteps (s : State) (d c : Nat) (w : Work) : (n : Nat) → Option Work × State
  | 0 => (some w, s)
  | n + 1 =>
      if s.rowWaits d c w.entry w.next then (some w, s)
      else
        match s.workStep d c w with
        | (some w, s) => s.workSteps d c w n
        | (none, s) => (none, s)

/-- An instruction under way goes on: of the main program as far as it can, of the back-fill program for the cycles left to its unit in the open
window (R192); it is over with its last step. -/
def State.advanceWork (s : State) (d c seq : Nat) : State :=
  let x := s.core d c
  match x.works.find? fun w => w.entry.seq == seq with
  | none => s
  | some w =>
      let bf := w.entry.backfill
      if bf && !x.bfActive then s
      else
        let left := w.steps c - w.next
        let (o, s) := s.workSteps d c w (if bf then min left (w.perCycle c * s.windowLeft d c w.unit) else left)
        match o with
        | none => s.onCore d c fun x => { x with works := x.works.filter fun v => v.entry.seq != seq }
        | some y =>
            let s := if bf then s.windowWork d c w.unit (ceilDiv (y.next - w.next) (w.perCycle c)) else s
            s.onCore d c fun x =>
              if y.steps c ≤ y.next then { x with works := x.works.filter fun v => v.entry.seq != seq }
              else { x with works := x.works.map fun v => if v.entry.seq = seq then y else v }

/-- An instruction gets under way in unit `u`. -/
def State.beginWork (s : State) (d c u : Nat) (e : UEntry) (epi : Option EpiRun) : State :=
  (s.onCore d c fun x => { x with works := x.works ++ [{ unit := u, entry := e, epi := epi, at_ := s.phaseNow d (c / 6) }] }).advanceWork d c e.seq

/-- An unfused epilogue starts: what it reads of its SRAM, its draws seeded, and its rows (R53, R54, R75). -/
def State.startEpilogue (s : State) (d c : Nat) (e : UEntry) (int counted : Bool) (mask wbase m cols desc tile : Nat) : State :=
  match (s.core d c).readDesc (bufBytes c) desc with
  | none => s.illegalUnit d c e
  | some ed =>
      let cs := (arraysOf mask).map fun a => (a, cols)
      if s.grantFails d c e ed m cs then s.refuseGrant d c e
      else
        let s := (arraysOf mask).foldl (fun s a => s.reseedGouge d c a 2 tile e.backfill) (s.sramErrors d c e.facts)
        let (ep, s) := (s.readHazards d c false (descUnits desc ed cs)).startEpi d c desc ed int counted m tile cs (some wbase) e.facts
        s.beginWork d c 2 e (some ep)

/-- A chain-in starts (R57, R59, R75). -/
def State.startChin (s : State) (d c : Nat) (e : UEntry) : State :=
  match e.instr with
  | .chin _ a _ _ _ _ tile =>
      (((s.reseedGouge d c a 1 tile e.backfill).sramErrors d c e.facts).readHazards d c true (bufUses 0 e.instr)).beginWork d c 3 e none
  | _ => s

/-! ### Other instructions -/

/-- The special-function form of a packed element. -/
def sfuPacked (func h : Nat) : Nat := narrow (sfu func (widen h))

/-- SPUSH: one push tile from scratch (R146, R220). Its hop tag's `TILE_ID` is free. -/
def State.runSpush (s : State) (d c unit countM1 tag offset : Nat) (bf : Bool) (f : EngFacts) : State :=
  let s := s.sramErrors d c f
  let (t, s) := s.freeNat 16
  let ls := (s.core d c).bufLines (bufBytes c) unit (countM1 + 1)
  let step := (s.rg d c 0x1E8).toNat
  let xs := pushTile (stationOfCore c) tag step offset 1 t ls
  s.onCore d c fun x => { x with outQ := x.outQ ++ [{ push := true, unit := 3, xfers := xs, total := xs.length, bf := bf }] }

/-- An instruction that its unit starts. -/
def State.runUnit (s : State) (d c : Nat) (e : UEntry) : State :=
  let f := e.facts
  let bf := e.backfill
  match e.instr with
  | .wswap mask => s.swapTiles d c mask
  | .rs swap transpose ed mask mode m row pitch fmt wbase scale tile =>
      s.startStream d c ⟨swap, transpose, ed, mask, mode, m, row, pitch, fmt, wbase, scale, tile⟩ e
  | .wld transpose array fmt kM1 ncode src pitch scale => s.runWld d c transpose array fmt (kM1 + 1) (colsOf ncode) src pitch scale f
  | .epi int counted mask wbase m ncode desc tile => s.startEpilogue d c e int counted mask wbase m (colsOf ncode) desc tile
  | .tbld slot src =>
      let (bad, s) := s.runTbld d c slot src f
      if bad then s.illegalUnit d c e else s
  | .chout .. => (s.sramErrors d c f).beginWork d c 3 e none
  | .send .. => (s.sramErrors d c f).beginWork d c 3 e none
  | .vfp vd va vb vc func vl => (s.countForm d c 0 f).runLanes d c vd (vl + 1) (vReads e.instr) f fun x i =>
      fpForm func (x.lane va i) (x.lane vb i) (x.lane vc i)
  | .vbf vd va vb vc func vl => (s.countForm d c 0 f).runPacked d c vd (vl + 1) (vReads e.instr) f fun x i =>
      bfForm func (x.elem va 16 i) (x.elem vb 16 i) (x.elem vc 16 i)
  | .vint sat vd va vb _ func vl => (s.countForm d c 0 f).runLanes d c vd (vl + 1) (vReads e.instr) f fun x i =>
      intForm sat func (x.lane va i) (x.lane vb i)
  | .vsfu packed vd va func vl =>
      let s := (s.countForm d c 1 f).tableErrors d c f (vl + 1)
      if packed then s.runPacked d c vd (vl + 1) [va] f (fun x i => sfuPacked func (x.elem va 16 i)) f.tableErr
      else s.runLanes d c vd (vl + 1) [va] f (fun x i => sfu func (x.lane va i)) f.tableErr
  | .vred vd va func vl => (s.countForm d c 0 f).runRed d c vd va func (vl + 1) f
  | .vperm vd va vb func vl => (s.countForm d c 2 f).runPerm d c vd va vb func (vl + 1)
  | .vcvt sat sr vd va src dst vl tile => (s.countForm d c 0 f).runCvt d c sat sr vd va src dst (vl + 1) tile bf f
  | .sld v unit vl => (s.countForm d c 3 f).runSld d c v unit (vl + 1)
  | .sst v unit vl => (s.countForm d c 3 f).runSst d c v unit (vl + 1) f
  | .spush unit countM1 tag offset => s.runSpush d c unit countM1 tag offset bf f
  | .vimm vd imm vl => (s.countForm d c 0 f).runImm d c vd imm (vl + 1)
  | _ => s

/-- What a unit reads of its buffer when it starts an instruction, for the hazards of Table 7.9; a row stream, an epilogue and a chain-in see
theirs as they go. -/
def State.startReads (s : State) (d c : Nat) (e : UEntry) : State :=
  match e.instr with
  | .wld .. => s.readHazards d c true (bufUses 0 e.instr)
  | .sld .. => s.readHazards d c true (bufUses 0 e.instr)
  | .tbld .. => s.readHazards d c false (bufUses 0 e.instr)
  | .send .. => s.readHazards d c false (bufUses 0 e.instr)
  | .spush .. => s.readHazards d c false (bufUses 0 e.instr)
  | _ => s

/-- Whether an instruction goes on by rows or lines, and not as one whole. -/
def bySteps : EngInstr → Bool
  | .rs .. => true
  | .epi .. => true
  | .chout .. => true
  | .send .. => true
  | _ => false

/-- A back-fill instruction has its unit for the cycles it still needs, or for what is left of the window; and whether it finishes
(R192). -/
def State.bfShare (s : State) (d c : Nat) (e : UEntry) : Bool × Nat :=
  let need := unitCycles (isGouge c) e.instr - e.done
  let room := s.windowLeft d c (opUnit e.instr.op)
  if need ≤ room then (true, need) else (false, room)

/-- The draws of a conversion are seeded as it starts (R75, R144). -/
def State.seedForm (s : State) (d c : Nat) (e : UEntry) : State :=
  match e.instr with
  | .vcvt _ _ _ _ _ _ _ tile => if e.done = 0 then s.reseedSkew d c tile e.backfill else s
  | _ => s

/-- The first entry of the queue at key `u` starts: a chain-in takes the chain port and claims its tile (R25, R59); any other
instruction runs, a back-fill instruction once its unit has had the cycles for it within windows, or by steps (R192). -/
def State.startEntry (s : State) (d c u : Nat) (e : UEntry) : State :=
  match e.instr with
  | .chin _ _ _ _ _ _ tile =>
      s.onCore d c fun x =>
        let (got, y) := match x.claim tile with | some y => (true, y) | none => (false, x)
        y.setUnit u ({ e with started := true, landed := got } :: (y.unit u).drop 1)
  | _ =>
      let (whole, n) := if e.backfill && !bySteps e.instr then s.bfShare d c e else (true, 0)
      let s := if n = 0 then s else s.windowWork d c (opUnit e.instr.op) n
      let s := s.seedForm d c e
      if whole then ((s.onCore d c fun x => x.setUnit u ((x.unit u).drop 1)).startReads d c e).runUnit d c e
      else s.onCore d c fun x => x.setUnit u ({ e with done := e.done + n } :: (x.unit u).drop 1)

/-- Units whose first entry may start now, with it. -/
def State.startable (s : State) (d c : Nat) : List (Nat × UEntry) :=
  let x := s.core d c
  (List.range 8).filterMap fun u =>
    match x.unit u with
    | e :: _ => if !e.started && (decide (u < 4) || x.bfActive) && s.canStart d c e then some (u, e) else none
    | [] => none

/-- The one dispatched first among units that may start. -/
def oldestOf : List (Nat × UEntry) → Option (Nat × UEntry)
  | [] => none
  | p :: l => match oldestOf l with | some r => if r.2.seq < p.2.seq then some r else some p | none => some p

/-- Units start what they can, oldest first. -/
def State.startUnits (s : State) (d c : Nat) : (fuel : Nat) → State
  | 0 => s
  | fuel + 1 =>
      match oldestOf (s.startable d c) with
      | none => s
      | some p => State.startUnits (s.startEntry d c p.1 p.2) d c fuel

/-! ### What leaves the core -/

/-- The first waiting output tile of its unit that may start now; a reduction push waits for its own step (R28, R106), and a back-fill
tile for a window (R192). -/
def State.nextOut (s : State) (d : Nat) (bf : Bool) : (seen : List (Nat × Bool)) → List OutTile → Option OutTile
  | _, [] => none
  | seen, o :: rest =>
      if seen.contains (o.unit, o.bf) || o.push || (o.bf && !bf) then State.nextOut s d bf ((o.unit, o.bf) :: seen) rest
      else
        match o.xfers with
        | x :: _ => if s.mayStart d x.tag.retire o.total then some o else State.nextOut s d bf ((o.unit, o.bf) :: seen) rest
        | [] => some o

/-- Output tiles that wait for credit leave, in order for each unit, as long as it suffices (R28). -/
def State.flushTiles (s : State) (d c : Nat) : (fuel : Nat) → State
  | 0 => s
  | fuel + 1 =>
      match s.nextOut d (s.core d c).bfActive [] (s.core d c).outQ with
      | some o =>
          State.flushTiles ((s.onCore d c fun y => { y with outQ := y.outQ.erase o }).launch d (stationOfCore c) o.total o.xfers) d c fuel
      | none => s

/-- The next store of an epilogue that may enter its queue's line: of the main program, or in a window of the back-fill program. -/
def Core.nextStore (x : Core) : Option EpiStore := x.epiOut.find? fun e => !e.backfill || x.bfActive

/-- The waits of an epilogue's stores under R180 noted; one that begins is a hazard of kind 3 in debug mode (R195). -/
def State.noteStores (s : State) (d c : Nat) : State :=
  let x := s.core d c
  let waits := match x.nextStore with | some e => !x.mayPush e.backfill e.queue | none => false
  let s := if waits && !x.epiStalled then s.hazard d c 3 0 (match x.nextStore with | some e => e.queue | none => 0) 0 (s.phaseNow d (c / 6)) else s
  s.onCore d c fun x => { x with epiStalled := waits }

/-- Stores of an epilogue enter their queue as it takes them (R54, R180). -/
def State.flushStores (s : State) (d c : Nat) : (fuel : Nat) → State
  | 0 => s
  | fuel + 1 =>
      match (s.core d c).nextStore with
      | none => s
      | some e =>
          if (s.core d c).mayPush e.backfill e.queue then
            let s := s.onCore d c fun x => { x with epiOut := x.epiOut.erase e }
            State.flushStores (s.push d c e.queue e.backfill 0 e.units e.addr e.data e.poison).2 d c fuel
          else s

/-! ### A core brought up to date -/

/-- What a core's units have still to do, in numbers one of which changes with everything that they do. -/
def Core.toDo (x : Core) : List Nat :=
  [x.stream, x.streamB].map (fun r => match r with | some y => y.next + 1 | none => 0) ++ x.works.map (fun w => w.next) ++
    (List.range 8).map (fun u => (x.unit u).foldl (fun n e => n + 1 + e.done) 0) ++
    [x.works.length, x.outQ.length, x.epiOut.length, x.withheld.length]

/-- One round of a core's units: the streams and the other instructions under way go on, what waits for credit or for a queue leaves, and what may
start starts. -/
def State.unitRound (s : State) (d c : Nat) : State :=
  let s := s.advanceStream d c false
  let s := if (s.core d c).bfActive then s.advanceStream d c true else s
  let s := ((s.core d c).works.map fun w => w.entry.seq).foldl (fun s q => s.advanceWork d c q) s
  ((s.flushTiles d c 64).flushStores d c 64).startUnits d c 64

/-- Rounds until nothing moves any more. -/
def State.unitRounds (s : State) (d c : Nat) : (fuel : Nat) → State
  | 0 => s
  | fuel + 1 =>
      let t := s.unitRound d c
      if (t.core d c).toDo = (s.core d c).toDo then t else t.unitRounds d c fuel

/-- Whether every unit has finished a program's queued work (R190, R205). -/
def Core.unitsIdle (x : Core) (bf : Bool) : Bool :=
  (x.queued bf).isEmpty && (x.runOf bf).isNone && (x.works.all fun w => w.entry.backfill != bf) && (x.outQ.all fun o => o.bf != bf) &&
    x.epiOut.all fun e => e.backfill != bf

/-- A hold that ends by the state of the core alone: END, BUBBLE and QWAIT (R179, R190, R205). -/
def State.checkHold (s : State) (d c : Nat) (bf : Bool) : State :=
  let x := s.core d c
  let p := x.progOf bf
  let free := s.onCore d c fun x => x.setProgOf bf { p with hold := none }
  match p.hold with
  | some .finish =>
      if x.unitsIdle bf && x.queuesIdle bf then (if bf then free.onCore d c Core.endBackfill else free.setProgState d c 2) else s
  | some (.bubble n w) =>
      if x.unitsIdle bf then
        let now := (s.quarter d (c / 6)).cycle
        if bf then s.onCore d c fun x => x.setProgOf bf { p with hold := some (.delay (now + n)) }
        else free.onCore d c fun x => { x with window := some { n := n, w := w, base := now }, suspended := false }
      else s
  | some (.queue k target) => if target ≤ (x.queue k).retired then free else s
  | _ => s

/-- A core's units and holds brought up to date; in the Quiesced state, which stops dispatch, its units go on with what has been dispatched
(R36, R407). -/
def State.settle (s : State) (d c : Nat) : State :=
  if (s.run == .ready || s.run == .quiesced) && s.qRuns d (c / 6) && !isParting c then
    let s := ((s.unitRounds d c 256).joinArrayQ d c).noteStores d c
    if s.run != .ready then s
    else
      let s := s.checkHold d c false
      if (s.core d c).bfActive then s.checkHold d c true else s
  else s

/-- A core settled, and then the cores of its quarter whose streams wait for the array limit, oldest first (R183). -/
def State.settleQuarter (s : State) (d c : Nat) : State :=
  (s.arrayWaiters d (c / 6)).foldl (fun s w => s.settle d w.1) (s.settle d c)

end Sys2Proof.Machine
end

