-- ==== Sys2Proof/Machine/Sched.lean ====
section
/-!
DEFINITION. Dispatch on the Gouge and Skew cores and the steps of what holds or occupies them (R36, R139, R190 to R193, R199 to R203, R205,
R214, R215).
-/
namespace Sys2Proof.Machine

/-! ### Fetching -/

/-- What a core finds at the program counter of the program that dispatches. -/
inductive Fetched where
  /-- Nothing dispatches now. -/
  | idle
  /-- An illegal encoding (R201): the program, its word and the first word. -/
  | bad (bf : Bool) (pc first : Nat)
  /-- A word of the instruction is poisoned (R313). -/
  | poison (bf : Bool) (pc : Nat)
  | ok (bf : Bool) (pc first : Nat) (i : EngInstr)
  deriving DecidableEq, Repr

/-- Words of an instruction store (R185). -/
def storeWords : Nat := 16384

/-- The program that dispatches at a core now (R190, R192), and the word it is at. -/
def State.dispatcher (s : State) (d c : Nat) : Option (Bool × Nat) :=
  let x := s.core d c
  if isParting c || s.run != .ready || !s.qRuns d (c / 6) || x.halted then none
  else
    match x.window with
    | none => if s.progState d c = 1 ∧ x.prog.hold = none then some (false, s.progPc d c) else none
    | some w =>
        match x.backfill with
        | some b =>
            if !b.ended && !x.suspended && b.prog.hold == none && decide (s.windowPos d c w + 16 < w.n) then
              some (true, b.pc % storeWords)
            else none
        | none => none

/-- The instruction that a core would dispatch now. -/
def State.fetch (s : State) (d c : Nat) : Fetched :=
  match s.dispatcher d c with
  | none => .idle
  | some (bf, pc) =>
      let x := s.core d c
      let w (i : Nat) : Nat := Sparse.get nat0 x.store ((pc + i) % storeWords)
      let lost (i : Nat) : Bool := Sparse.get false0 x.storePoison ((pc + i) % storeWords / 8)
      if lost 0 then .poison bf pc
      else
        match decodeEng (isGouge c) pc (w 0) (w 1) (w 2) with
        | none => .bad bf pc (w 0)
        | some i => if (List.range (engLength i)).any lost then .poison bf pc else .ok bf pc (w 0) i

/-- A program's next word. -/
def State.setPc (s : State) (d c : Nat) (bf : Bool) (pc : Nat) : State :=
  if bf then s.onCore d c fun x => { x with backfill := x.backfill.map fun b => { b with pc := pc % storeWords } }
  else s.setProgPc d c (pc % storeWords)

/-! ### Dispatch -/

/-- Whether no queued entry of the program writes a register that a Skew instruction reads or writes, or reads one that it
writes (R139). -/
def Core.registersFree (x : Core) (bf : Bool) (i : EngInstr) : Bool :=
  (x.queued bf).all fun e =>
    (vWrites e.instr).all (fun r => !(vReads i).contains r && !(vWrites i).contains r) &&
      (vReads e.instr).all fun r => !(vWrites i).contains r

/-- An instruction as the entry that its dispatch would make. -/
def Core.asEntry (x : Core) (bf : Bool) (i : EngInstr) : UEntry :=
  { seq := x.seq, instr := i, facts := {}, backfill := bf, word := 0, first := 0 }

/-- The largest K that a row stream dispatched now will meet (R50). -/
def State.ksAt (s : State) (d c : Nat) (i : EngInstr) : Nat :=
  match rsOf i with
  | some r => (arraysOf r.mask).foldl (fun k a => max k (s.shapeAt d c a (s.core d c).seq r.swap).1) 0
  | none => 0

/-- Illegal operands found at dispatch: of the instruction alone, or a row stream whose word range leaves a bank with the columns that it
will meet (R42, R202). -/
def State.operandsBad (s : State) (d c : Nat) (bf : Bool) (i : EngInstr) : Bool :=
  let x := s.core d c
  badOperand c (x.progOf bf).ax i ||
    ((rsOf i).isSome && (s.wordsOf d c (x.asEntry bf i)).any fun u => decide (bankWords c < u.2.1 + u.2.2.1))

/-- Illegal operands found at dispatch, and a back-fill program's grants (R191, R202). -/
def State.dispatchBad (s : State) (d c : Nat) (bf : Bool) (i : EngInstr) : Bool :=
  let x := s.core d c
  let w := match x.window with | some w => w.w | none => false
  s.operandsBad d c bf i || (bf && outsideGrant x.grants w (s.ksAt d c i) (s.wordsOf d c (x.asEntry bf i)) i)

/-- The illegal instruction at dispatch: recorded, and in debug mode a back-fill instruction outside its grant is a hazard
(R191, R195, R203). -/
def State.dispatchIllegal (s : State) (d c : Nat) (bf : Bool) (pc first : Nat) (i : EngInstr) : State :=
  let ok := s.operandsBad d c bf i
  let s := s.illegal d c bf pc first 1
  if bf && !ok then s.hazard d c 3 0 pc 0 (s.phaseNow d (c / 6)) else s

/-- Dispatch of the next instruction if its mnemonic is `op`: `act` is what it does, none while it must wait, and `wait` what its wait
shows (R36, R200). -/
def State.dispatch (s : State) (d c : Nat) (op : EngOp) (act : State → Bool → Nat → Nat → EngInstr → Option State)
    (wait : State → Bool → EngInstr → State := fun s _ _ => s) : State :=
  match s.fetch d c with
  | .ok bf pc first i =>
      if i.op = op then
        if s.dispatchBad d c bf i then (s.dispatchIllegal d c bf pc first i).settle d c
        else
          match act (s.setPc d c bf (pc + engLength i)) bf pc first i with
          | some t => t.settle d c
          | none => wait s bf i
      else s
  | _ => s

/-- The words that the fetch of the next instruction, one of mnemonic `op`, corrected in the instruction store (R312). -/
def State.fetched (s : State) (d c : Nat) (op : EngOp) (n : Nat) : State :=
  match s.fetch d c with
  | .ok _ _ _ i => if i.op = op then s.sramCorrected d c n else s
  | _ => s

/-- A Skew instruction that waits at dispatch for a register (R139). -/
def State.noteRaw (s : State) (d c : Nat) (bf : Bool) (i : EngInstr) : State :=
  if (s.core d c).registersFree bf i then s else s.onCore d c fun x => { x with rawWait := true }

/-- An instruction enters its unit's queue (R36, R200). -/
def State.enqueue (f : EngFacts) (d c : Nat) (s : State) (bf : Bool) (pc first : Nat) (i : EngInstr) : Option State :=
  let x := s.core d c
  let u := opUnit i.op + if bf then 4 else 0
  let q := x.unit u
  if 4 ≤ (q.filter fun e => !e.started).length ∨ x.registersFree bf i = false then none
  else
    let e : UEntry := { seq := x.seq, instr := i, facts := f, backfill := bf, word := pc, first := first,
                        since := (s.quarter d (c / 6)).cycle }
    some (s.setCore d c { x.setUnit u (q ++ [e]) with seq := x.seq + 1, rawWait := false })

/-- Dispatch of an instruction that enters its unit's queue; a wait for a Skew register is noted (R36, R139, R200). -/
def State.toUnit (s : State) (d c : Nat) (op : EngOp) (f : EngFacts) : State :=
  s.dispatch d c op (State.enqueue f d c) fun s bf i => s.noteRaw d c bf i

/-- A program's hold. -/
def State.holdProg (s : State) (d c : Nat) (bf : Bool) (h : Hold) : State := s.holdAfter d c bf (some h)

/-- Units of the instruction store in which the fetch finds double-bit errors become poisoned (R313). -/
def State.storeErrors (s : State) (d c : Nat) (f : EngFacts) : State :=
  f.codeErr.foldl (fun s u =>
    if u < storeWords / 8 then
      (s.onCore d c fun x => { x with storePoison := Sparse.put false0 x.storePoison u true }).sramPoison d c (64 * u)
    else s) s

/-- ILLEGAL_ENCODING: an illegal encoding at the program counter does nothing and stops its program (R201, R203); so does a poisoned word
there, whose consumption is an uncontained memory event (R313, R322). -/
def execIllegalEncoding (d : Fin 8) (c : Fin 24) (f : EngFacts) (s : State) : Out :=
  if s.fetch d c = .idle then .next s
  else
    let t := (s.sramCorrected d c f.corrected).storeErrors d c f
    match t.fetch d c with
    | .bad bf pc first => .next (t.illegal d c bf pc first 0)
    | .poison bf pc =>
        .next (((t.errBit d c (poisonBit c)).event d c 2 4 1 (poisonBit c) (8 * pc + c * 2 ^ 48)).stopDispatch d c bf)
    | _ => .next s

/-! ### Steps of what holds or occupies a core -/

/-- DELAY_EXPIRE: a counted delay has run out (R205). -/
def execDelayExpire (d : Fin 8) (c : Fin 24) (s : State) : Out :=
  let x := s.core d c
  let now := (s.quarter d (c.val / 6)).cycle
  let due (p : Prog) : Bool := match p.hold with | some (.delay t) => decide (t ≤ now) | _ => false
  if !s.qRuns d (c.val / 6) || s.run != .ready then .next s
  else if due (x.progOf false) then .next (s.onCore d c fun x => x.setProgOf false { x.prog with hold := none })
  else if x.bfActive && due (x.progOf true) then
    .next (s.onCore d c fun x => x.setProgOf true { x.progOf true with hold := none })
  else .next s

/-- The signal of a TSIG leaves (R155, R207). -/
def State.sendSignal (s : State) (d c : Nat) : EngInstr → State
  | .tsig counted _ die slot count => s.signal d (c / 6) c die slot count counted
  | _ => s

/-- The drained signal of a program departs once all its earlier work has finished. -/
def State.drainDepart (s : State) (d c : Nat) (bf : Bool) : State :=
  let x := s.core d c
  match (x.progOf bf).hold with
  | some (.drain i) =>
      if x.unitsIdle bf && x.queuesIdle bf && (!bf || x.bfActive) then
        (s.onCore d c fun x => x.setProgOf bf { x.progOf bf with hold := none }).sendSignal d c i
      else s
  | _ => s

/-- TSIG_DRAIN_DEPART: a TSIG with DRAIN departs once every earlier instruction has finished its last write (R207). -/
def execTsigDrainDepart (d : Fin 8) (c : Fin 24) (s : State) : Out :=
  if s.run == .ready && s.qRuns d (c.val / 6) then .next ((s.drainDepart d c false).drainDepart d c true) else .next s

/-- Phase ticks that cores of a quarter wait for, as (core, back-fill, tick). -/
def State.phaseWaits (s : State) (d q : Nat) : List (Nat × Bool × Nat) :=
  (List.range 6).flatMap fun j =>
    let c := 6 * q + j
    let x := s.core d c
    [false, true].filterMap fun bf =>
      match (x.progOf bf).hold with
      | some (.phase t) => if !bf || x.bfActive then some (c, bf, t) else none
      | _ => none

/-- The quarter's phase of tick `t` starts: its cycle counts begin, and its lateness is recorded; the count of a start whose first
cycle was not seen is free (R168). -/
def State.startPhase (s : State) (d q t : Nat) : State :=
  if s.pair d (qBlk q) 0x184 = t then s
  else
    let x := s.quarter d q
    let s := s.setPair d (qBlk q) 0x184 t
    let (late, s) : Nat × State :=
      match (if x.phaseTick = some t then x.phaseFirst else none) with
      | some n => (x.cycle - n, s)
      | none => if t = s.tick then (0, s) else s.freeNat 32
    (s.setRg d (qBlk q) 0x18C (BitVec.ofNat 32 late)).setQuarter d q { x with phaseBase := x.cycle }

/-- PHASE_START: the quarter begins a counted phase in its first cycle after the phase tick and any region hold that was pending
at it (R168, R442). -/
def execPhaseStart (d : Fin 8) (q : Fin 4) (s : State) : Out :=
  let x := s.quarter d q
  let due := (s.phaseWaits d q).filter fun w =>
    decide (w.2.2 ≤ s.tick) && !(s.pendValid d q && decide (x.pendTick ≤ w.2.2))
  if s.run != .ready || !s.qRuns d q then .next s
  else
    match due with
    | [] => .next s
    | w :: rest =>
        let t := rest.foldl (fun a v => min a v.2.2) w.2.2
        let s := s.startPhase d q t
        .next ((due.filter fun v => v.2.2 == t).foldl (fun s v =>
          (s.onCore d v.1 fun x => x.setProgOf v.2.1 { x.progOf v.2.1 with hold := none }).settle d v.1) s)

/-- Double-bit errors found in units of a Parting core's data memory and of its instruction memory (R313). -/
def State.partErrors (s : State) (d q : Nat) (f : EngFacts) : State :=
  let log (s : State) (u : Nat) : State := s.event d (ptCore q) 1 4 0 0x7F (u * 64 + ptCore q * 2 ^ 48)
  let s := f.doubleErr.foldl (fun s u =>
    if u < dmemBytes / 64 then log (s.onPart d q fun p => { p with dmemPoison := Sparse.put false0 p.dmemPoison u true }) u else s) s
  f.codeErr.foldl (fun s u =>
    if u < imemBytes / 64 then log (s.onPart d q fun p => { p with imemPoison := Sparse.put false0 p.imemPoison u true }) u else s) s

/-- QUEUE_REQUEST_COMPLETE: the oldest request of a queue completes once the memory system has served it (R178, R179). -/
def execQueueRequestComplete (d : Fin 8) (c : Fin 24) (k : Fin 12) (same : Bool) (s : State) : Out :=
  if s.powered && s.qRuns d (c.val / 6) then
    let s := s.retireHead d c k same
    .next (if isParting c then s.serveQueueWaits d (c.val / 6) k else s.settle d c)
  else .next s

/-- BACKFILL_SUSPEND: from window cycle n − 15 every unit suspends back-fill work (R192). -/
def execBackfillSuspend (d : Fin 8) (c : Fin 24) (s : State) : Out :=
  match (s.core d c).window with
  | some w =>
      if s.qRuns d (c.val / 6) && decide (w.n ≤ s.windowPos d c w + 16) then .next (s.onCore d c fun x => { x with suspended := true })
      else .next s
  | none => .next s

/-- BUBBLE_WINDOW_END: after window cycle n the main program resumes dispatch (R190). -/
def execBubbleWindowEnd (d : Fin 8) (c : Fin 24) (s : State) : Out :=
  match (s.core d c).window with
  | some w =>
      if s.qRuns d (c.val / 6) && decide (w.n ≤ s.windowPos d c w) then
        .next ((s.onCore d c fun x => { x with window := none, suspended := false }).settle d c)
      else .next s
  | none => .next s

/-- The stream with a withheld row of a kind, the main program's first, with the row; also in the Quiesced state, where a stream that has
begun goes on (R60, R407). -/
def State.heldStream (s : State) (d c : Nat) (k : RowFaultKind) : Option (Rs × UEntry × Withheld) :=
  let x := s.core d c
  let of (bf : Bool) : Option (Rs × UEntry × Withheld) :=
    match x.runOf bf, x.nextWithheld bf k with
    | some y, some w => if !bf || x.bfActive then (rsOf y.entry.instr).map fun r => (r, y.entry, w) else none
    | _, _ => none
  if (s.run == .ready || s.run == .quiesced) && s.qRuns d (c / 6) then (match of false with | some p => some p | none => of true) else none

/-- A stream goes on after one of its withheld rows has been dealt with: a fused one's row enters the epilogue once no part of it is withheld, and
the arrays that its end frees serve the streams that wait (R43, R60, R183). -/
def State.streamDone (s : State) (d c : Nat) (w : Withheld) : State := (s.fuseRow d c w.bf w.row).settleQuarter d c

/-- ROW_REISSUE: the oldest row withheld after a check disagreement is issued again; `f` is what its checks find, and those on the spare (R60,
R306, R307). -/
def execRowReissue (d : Fin 8) (c : Fin 24) (f : ReissueFacts) (s : State) : Out :=
  match s.heldStream d c .mismatch with
  | some (r, _, w) => .next ((s.reissueRow d c r w f).streamDone d c w)
  | none => .next s

/-- WEIGHT_RELOAD_DONE: the reload of the active tile completes and the withheld row is issued again and checked in full, an armed second report
included (R61, R307, R312, R321). The streamer then goes on with the rest of the pass. -/
def execWeightReloadDone (d : Fin 8) (c : Fin 24) (f : ReissueFacts) (s : State) : Out :=
  match s.heldStream d c .parity with
  | some (r, _, w) => .next ((((s.bump d c 0x2C0 f.corrected).reload d c w.array).reissueRow d c r w f).streamDone d c w)
  | none => .next s

/-- The reduction push that goes next: the first of a unit whose tiles before it have gone (R106). -/
def Core.nextPush (x : Core) : Option OutTile :=
  ([2, 3].filterMap fun u => (x.outQ.find? fun o => o.unit == u && (!o.bf || x.bfActive)).filter (·.push)).head?

/-- PUSH_TILE_SEND: a reduction push tile starts toward station 14 once the core holds credit (R105, R106). -/
def execPushTileSend (d : Fin 8) (c : Fin 24) (corrected : Nat) (s : State) : Out :=
  match (s.core d c).nextPush with
  | some o =>
      if (s.run == .ready || s.run == .quiesced) && s.qRuns d (c.val / 6) && s.mayStart d 14 o.total then
        let s := (s.onCore d c fun x => { x with outQ := x.outQ.erase o }).launch d (stationOfCore c) o.total o.xfers
        let s := s.sramCorrected d c corrected
        .next ((if isGouge c then s.bump d c 0x1E0 1 else s).settle d c)
      else .next s
  | none => .next s

/-- CHAIN_IN_START: a chain-in whose tile has landed adds the running sum row by row (R57, R59). -/
def execChainInStart (d : Fin 8) (c : Fin 24) (s : State) : Out :=
  let x := s.core d c
  let at_ (u : Nat) : Option UEntry := match x.unit u with | e :: _ => if e.started && e.landed then some e else none | [] => none
  let begin_ (u : Nat) (e : UEntry) : State := (((s.onCore d c fun x => x.setUnit u ((x.unit u).drop 1)).startChin d c e).settle d c)
  if !(s.run == .ready || s.run == .quiesced) || !s.qRuns d (c.val / 6) then .next s
  else
    match at_ 3 with
    | some e => .next (begin_ 3 e)
    | none => match (if x.bfActive then at_ 7 else none) with | some e => .next (begin_ 7 e) | none => .next s

end Sys2Proof.Machine
end

