-- ==== Sys2Proof/Machine/Control.lean ====
section
/-!
DEFINITION. The control instructions of the Gouge and Skew cores, QREQ, SEND and CEXP (R204 to R211, R443).
-/
namespace Sys2Proof.Machine

/-- END holds dispatch until every unit has finished (R205). -/
def execEndProgram (d : Fin 8) (c : Fin 24) (corrected : Nat) (s : State) : Out :=
  .next ((s.fetched d c .endProg corrected).dispatch d c .endProg fun s bf _ _ _ => some (s.holdProg d c bf .finish))

/-- LOOP steps its level's counter and jumps, or clears it and falls through (R205). -/
def execLoop (d : Fin 8) (c : Fin 24) (corrected : Nat) (s : State) : Out :=
  .next ((s.fetched d c .loop corrected).dispatch d c .loop fun s bf _ _ i =>
    match i with
    | .loop level target count =>
        let p := (s.core d c).progOf bf
        let n := p.loops.getD level 0
        if n < count - 1 then
          some ((s.onCore d c fun x => x.setProgOf bf { p with loops := p.loops.set level (n + 1) }).setPc d c bf target)
        else some (s.onCore d c fun x => x.setProgOf bf { p with loops := p.loops.set level 0 })
    | _ => none)

/-- DELAY holds dispatch for `N` cycles (R205). -/
def execDelay (d : Fin 8) (c : Fin 24) (corrected : Nat) (s : State) : Out :=
  .next ((s.fetched d c .delay corrected).dispatch d c .delay fun s bf _ _ i =>
    match i with
    | .delay n => some (s.holdProg d c bf (.delay ((s.quarter d (c.val / 6)).cycle + n)))
    | _ => none)

/-- TSIG adds `COUNT` to a completion slot; with `DRAIN` it holds dispatch until all earlier work has finished (R207). -/
def execTsig (d : Fin 8) (c : Fin 24) (corrected : Nat) (s : State) : Out :=
  .next ((s.fetched d c .tsig corrected).dispatch d c .tsig fun s bf _ _ i =>
    match i with
    | .tsig _ drain _ _ _ => some (if drain then s.holdProg d c bf (.drain i) else s.sendSignal d c i)
    | _ => none)

/-- The landing wait claims its tile, or holds (R25, R176). -/
def State.waitLanding (s : State) (d c : Nat) (bf : Bool) (tile : Nat) : State :=
  match (s.core d c).claim tile with
  | some x => s.setCore d c x
  | none => s.holdProg d c bf (.landing tile)

/-- TWAIT holds dispatch until its form is satisfied (R156, R168, R176, R208). -/
def execTwait (d : Fin 8) (c : Fin 24) (corrected : Nat) (s : State) : Out :=
  .next ((s.fetched d c .twait corrected).dispatch d c .twait fun s bf _ _ i =>
    match i with
    | .twaitCount slot count => some ((s.holdProg d c bf (.token slot count none)).serveSlot d (c.val / 6) slot)
    | .twaitTick slot count tick =>
        some (if count = 0 then s.holdProg d c bf (.phase (phaseTickOf s.tick tick))
          else (s.holdProg d c bf (.token slot count (some tick))).serveSlot d (c.val / 6) slot)
    | .twaitLand tile => some (s.waitLanding d c bf tile)
    | _ => none)

/-- QREQ pushes one memory request and takes the queue's next number, or waits at dispatch (R178 to R181, R206); the wait is noted, and when it
begins it is a hazard of kind 3 in debug mode (R195). A store's data are read then (log entry 17). -/
def execQreq (d : Fin 8) (c : Fin 24) (f : EngFacts) (s : State) : Out :=
  .next (s.dispatch d c .qreq (fun s bf _ _ i =>
    match i with
    | .qreq k loc lenM1 addr axen ax =>
        let x := s.core d c
        if x.mayPush bf k then
          let s := (s.onCore d c fun x => { x with stalled := false }).sramErrors d c f
          let s := if 8 ≤ k then s.readHazards d c false [(loc, lenM1 + 1)] else s
          let (data, poison) := if 8 ≤ k then s.localBlock d c loc (lenM1 + 1) else (0, 0)
          some (s.push d c k bf loc (lenM1 + 1) (qreqAddr (x.progOf bf).ax addr axen ax) data poison).2
        else none
    | _ => none)
    fun s _ i =>
      let x := s.core d c
      let k := match i with | .qreq k _ _ _ _ _ => k | _ => 0
      let s := if x.stalled then s else s.hazard d c 3 0 k 0 (s.phaseNow d (c.val / 6))
      s.onCore d c fun x => { x with stalled := true })

/-- QWAIT holds dispatch until the named request and every earlier one of its queue have completed (R179, R206). -/
def execQwait (d : Fin 8) (c : Fin 24) (corrected : Nat) (s : State) : Out :=
  .next ((s.fetched d c .qwait corrected).dispatch d c .qwait fun s bf _ _ i =>
    match i with
    | .qwait k n => some (s.holdProg d c bf (.queue k (((s.core d c).queue k).target n)))
    | _ => none)

/-- BUBBLE waits for the core's units and then opens a back-fill window of `N` cycles (R190, R209). -/
def execBubble (d : Fin 8) (c : Fin 24) (corrected : Nat) (s : State) : Out :=
  .next ((s.fetched d c .bubble corrected).dispatch d c .bubble fun s bf _ _ i =>
    match i with
    | .bubble w n => some (s.holdProg d c bf (.bubble n w))
    | _ => none)

def noHint (_ : Nat) : Option Hint := none

/-- HINT records a heavy- or light-phase hint for the Governor; in counted mode it does nothing (R167, R209, R290). -/
def execHint (d : Fin 8) (c : Fin 24) (corrected : Nat) (s : State) : Out :=
  .next ((s.fetched d c .hint corrected).dispatch d c .hint fun s _ _ _ i =>
    match i with
    | .hint arrays lead length vec =>
        let q := c.val / 6
        if s.counted d q then some s
        else
          let per := cyclesPerTick (s.curPt d q)
          let h : Hint := ⟨s.tick + ceilDiv lead per, s.tick + ceilDiv lead per + ceilDiv (256 * length) per, arrays == 0 && !vec⟩
          let x := s.quarter d q
          some (s.setQuarter d q { x with hints := Sparse.put noHint x.hints (c.val % 6) (some h) })
    | _ => none)

/-- The token barrier of a seam fence is complete when its SETOP is dispatched: a token or landing wait of another core of the quarter
that is still pending is a hazard of kind 4 (R174, R195, log entry 80). -/
def State.barrierHazards (s : State) (d c : Nat) : State :=
  (List.range 5).foldl (fun s j =>
    let n := 6 * (c / 6) + j
    if n = c then s
    else
      match (s.core d n).prog.hold with
      | some (.token _ _ none) => s.waitHazard d n false
      | some (.landing _) => s.waitHazard d n false
      | _ => s) s

/-- SETOP requests a new operating point for the quarter's next region hold; in hinted mode it asks nothing (R174, R209, R255). Of
SETOPs of one cycle (`same`: in the cycle of the quarter's request before it) that of the highest core number prevails, and a register
write of that cycle over them. -/
def execSetop (d : Fin 8) (c : Fin 24) (same : Bool) (corrected : Nat) (s : State) : Out :=
  .next ((s.fetched d c .setop corrected).dispatch d c .setop fun s _ _ _ i =>
    match i with
    | .setop point =>
        let q := c.val / 6
        if !s.counted d q || (same && decide (c.val < (s.quarter d q).reqBy)) then some s
        else some ((s.barrierHazards d c).requestBy d q point c)
    | _ => none)

/-- SEND is dispatched to the chain port or the scratch port: lines leave as one tile on the ring or a near lane (R210). -/
def execSend (d : Fin 8) (c : Fin 24) (f : EngFacts) (s : State) : Out := .next (s.toUnit d c .send f)

/-- AXSET sets or adds to a 48-bit address register (R205). -/
def execAxset (d : Fin 8) (c : Fin 24) (corrected : Nat) (s : State) : Out :=
  .next ((s.fetched d c .axset corrected).dispatch d c .axset fun s bf _ _ i =>
    match i with
    | .axset add reg value =>
        let p := (s.core d c).progOf bf
        let v := ((if add then p.ax.getD reg 0 else 0) + value) % 2 ^ 48
        some (s.onCore d c fun x => x.setProgOf bf { p with ax := p.ax.set reg v })
    | _ => none)

/-- The phase cycle that `DUE` names around the phase cycle `now` (R443): of those it is congruent to modulo 2^20 the nearest, and of two as near the
earlier (DESIGN CHOICE, log entry 103). -/
def dueCycle (now due : Nat) : Nat := ((now : Int) + toSigned 20 ((due + 2 ^ 20 - now % 2 ^ 20) % 2 ^ 20)).toNat

/-- Whether an entry is that of an undeclared tile whose transfer 0 has arrived and has not been released (R443). -/
def CountedTile.joinable (e : CountedTile) (tile : Nat) : Bool := e.tile == tile && e.started && !e.declared && !e.released

/-- A declared tile takes a counted-tile entry of its path, or sets to the later cycle the entry that the arrival of its undeclared
transfer 0 took; none while all are taken (R260, R443). -/
def declareTile (es : List CountedTile) (tile r0 : Nat) : Option (List CountedTile) :=
  if es.any fun e => e.joinable tile then
    some (es.map fun e => if e.joinable tile then { e with r0 := max e.r0 r0, declared := true, late := false } else e)
  else if es.length < countedDepth then some (es ++ [{ tile := tile, r0 := r0, c0 := 0, declared := true }])
  else none

/-- CEXP declares a counted tile due at the core (R443). -/
def execCexp (d : Fin 8) (c : Fin 24) (corrected : Nat) (s : State) : Out :=
  .next ((s.fetched d c .cexp corrected).dispatch d c .cexp fun s _ _ _ i =>
    match i with
    | .cexp path tile due =>
        let x := s.core d c
        match declareTile (x.entries path) tile (dueCycle (s.phaseNow d (c.val / 6)) due) with
        | some es => some (s.setCore d c (x.setEntries path es))
        | none => none
    | _ => none)

end Sys2Proof.Machine
end

