-- ==== Sys2Proof/Machine/Gouge.lean ====
section
/-!
DEFINITION. The Gouge instructions (chapters 2, 3 and 8); their units are in Arrays, Epilogue and Chain, their start in Sched.
-/
namespace Sys2Proof.Machine

/-- WLD is dispatched into its unit's queue: loads one array's shadow weight buffer (R37, R38, R49). -/
def execWld (d : Fin 8) (c : Fin 24) (f : EngFacts) (s : State) : Out := .next (s.toUnit d c .wld f)

/-- WSWAP is dispatched into its unit's queue: makes the masked arrays' shadow buffers active (R40). -/
def execWswap (d : Fin 8) (c : Fin 24) (f : EngFacts) (s : State) : Out := .next (s.toUnit d c .wswap f)

/-- RS is dispatched into its unit's queue: streams rows past the masked arrays (R41 to R52, R60, R72, R74). -/
def execRs (d : Fin 8) (c : Fin 24) (f : EngFacts) (s : State) : Out := .next (s.toUnit d c .rs f)

/-- EPI is dispatched into its unit's queue: applies scale, bias, activation and conversion to accumulator rows (R53 to R55). -/
def execEpi (d : Fin 8) (c : Fin 24) (f : EngFacts) (s : State) : Out := .next (s.toUnit d c .epi f)

/-- TBLD is dispatched into its unit's queue: loads an activation table (R56). -/
def execTbld (d : Fin 8) (c : Fin 24) (f : EngFacts) (s : State) : Out := .next (s.toUnit d c .tbld f)

/-- CHOUT is dispatched into its unit's queue: sends a finished partial tile (R58). -/
def execChout (d : Fin 8) (c : Fin 24) (f : EngFacts) (s : State) : Out := .next (s.toUnit d c .chout f)

/-- CHIN is dispatched into its unit's queue: waits for its chain tile to land before joining it (R57, R59). -/
def execChin (d : Fin 8) (c : Fin 24) (f : EngFacts) (s : State) : Out := .next (s.toUnit d c .chin f)

end Sys2Proof.Machine
end

