-- ==== Sys2Proof/Machine/Riscv.lean ====
section
/-!
DEFINITION. RV64IMAC instructions: decoding, with the compressed forms, and what each computes (R148; encodings and results PRESUMED
from the RISC-V unprivileged specification, log entry 11).
-/
namespace Sys2Proof.Machine

/-- A hart instruction. Immediates and offsets are sign-extended. -/
inductive Rv where
  | lui (rd : Nat) (imm : W64)
  | auipc (rd : Nat) (imm : W64)
  | jal (rd : Nat) (off : W64)
  | jalr (rd rs1 : Nat) (off : W64)
  | branch (f3 rs1 rs2 : Nat) (off : W64)
  | load (f3 rd rs1 : Nat) (off : W64)
  | store (f3 rs1 rs2 : Nat) (off : W64)
  /-- OP-IMM and OP-IMM-32 (`w`); `alt` is bit 30. -/
  | alui (w : Bool) (f3 : Nat) (alt : Bool) (rd rs1 : Nat) (imm : W64)
  /-- OP and OP-32. -/
  | alu (w : Bool) (f3 : Nat) (alt : Bool) (rd rs1 rs2 : Nat)
  | muldiv (w : Bool) (f3 rd rs1 rs2 : Nat)
  /-- A-extension: funct5, 64-bit. -/
  | amo (f5 : Nat) (wide : Bool) (rd rs1 rs2 : Nat)
  | fence
  | ecall
  | ebreak
  | wfi
  | csr (f3 rd rs1 num : Nat)
  /-- Queue extension (R221): custom-1 or custom-0. -/
  | custom (one : Bool) (f3 f7 rd rs1 rs2 : Nat)
  deriving DecidableEq, Repr

/-- Sign extension from `w` bits. -/
def sx (w n : Nat) : W64 := BitVec.ofInt 64 (toSigned w n)

/-- A 32-bit instruction; none for one that RV64IMAC with the queue extension does not have. -/
def rvDecode (n : Nat) : Option Rv :=
  let rd := bitsOf n 7 5
  let f3 := bitsOf n 12 3
  let rs1 := bitsOf n 15 5
  let rs2 := bitsOf n 20 5
  let f7 := bitsOf n 25 7
  let iImm := sx 12 (bitsOf n 20 12)
  match n % 128 with
  | 0x37 => some (.lui rd (sx 32 (bitsOf n 12 20 * 2 ^ 12)))
  | 0x17 => some (.auipc rd (sx 32 (bitsOf n 12 20 * 2 ^ 12)))
  | 0x6F => some (.jal rd (sx 21 (bitsOf n 21 10 * 2 + bitsOf n 20 1 * 2 ^ 11 + bitsOf n 12 8 * 2 ^ 12 + bitsOf n 31 1 * 2 ^ 20)))
  | 0x67 => if f3 = 0 then some (.jalr rd rs1 iImm) else none
  | 0x63 =>
      if f3 = 2 ∨ f3 = 3 then none
      else some (.branch f3 rs1 rs2
        (sx 13 (bitsOf n 8 4 * 2 + bitsOf n 25 6 * 2 ^ 5 + bitsOf n 7 1 * 2 ^ 11 + bitsOf n 31 1 * 2 ^ 12)))
  | 0x03 => if f3 = 7 then none else some (.load f3 rd rs1 iImm)
  | 0x23 => if 4 ≤ f3 then none else some (.store f3 rs1 rs2 (sx 12 (bitsOf n 7 5 + f7 * 2 ^ 5)))
  | 0x13 =>
      if f3 = 1 then (if bitsOf n 26 6 = 0 then some (.alui false 1 false rd rs1 (BitVec.ofNat 64 (bitsOf n 20 6))) else none)
      else if f3 = 5 then
        (if bitsOf n 26 6 = 0 ∨ bitsOf n 26 6 = 16 then
          some (.alui false 5 (bitsOf n 26 6 == 16) rd rs1 (BitVec.ofNat 64 (bitsOf n 20 6))) else none)
      else some (.alui false f3 false rd rs1 iImm)
  | 0x1B =>
      if f3 = 0 then some (.alui true 0 false rd rs1 iImm)
      else if f3 = 1 ∧ f7 = 0 then some (.alui true 1 false rd rs1 (BitVec.ofNat 64 rs2))
      else if f3 = 5 ∧ (f7 = 0 ∨ f7 = 32) then some (.alui true 5 (f7 == 32) rd rs1 (BitVec.ofNat 64 rs2))
      else none
  | 0x33 =>
      if f7 = 1 then some (.muldiv false f3 rd rs1 rs2)
      else if f7 = 0 ∨ (f7 = 32 ∧ (f3 = 0 ∨ f3 = 5)) then some (.alu false f3 (f7 == 32) rd rs1 rs2)
      else none
  | 0x3B =>
      if f7 = 1 ∧ (f3 = 0 ∨ 4 ≤ f3) then some (.muldiv true f3 rd rs1 rs2)
      else if (f7 = 0 ∧ (f3 = 0 ∨ f3 = 1 ∨ f3 = 5)) ∨ (f7 = 32 ∧ (f3 = 0 ∨ f3 = 5)) then some (.alu true f3 (f7 == 32) rd rs1 rs2)
      else none
  | 0x2F =>
      let f5 := bitsOf n 27 5
      let known := [0, 1, 2, 3, 4, 8, 12, 16, 20, 24, 28].contains f5
      if known && (f3 == 2 || f3 == 3) && (f5 != 2 || rs2 == 0) then some (.amo f5 (f3 == 3) rd rs1 rs2) else none
  | 0x0F => if f3 = 0 then some .fence else none
  | 0x73 =>
      if n = 0x00000073 then some .ecall
      else if n = 0x00100073 then some .ebreak
      else if n = 0x10500073 then some .wfi
      else if f3 ≠ 0 ∧ f3 ≠ 4 then some (.csr f3 rd rs1 (bitsOf n 20 12))
      else none
  | 0x0B => some (.custom false f3 f7 rd rs1 rs2)
  | 0x2B => some (.custom true f3 f7 rd rs1 rs2)
  | _ => none

/-- A compressed instruction. -/
def rvcDecode (n : Nat) : Option Rv :=
  let f3 := bitsOf n 13 3
  let rdP := 8 + bitsOf n 2 3
  let rs1P := 8 + bitsOf n 7 3
  let rd := bitsOf n 7 5
  let rs2 := bitsOf n 2 5
  let imm6 := bitsOf n 2 5 + bitsOf n 12 1 * 2 ^ 5
  let lw := bitsOf n 10 3 * 8 + bitsOf n 6 1 * 4 + bitsOf n 5 1 * 64
  let ld := bitsOf n 10 3 * 8 + bitsOf n 5 2 * 64
  let br := sx 9 (bitsOf n 3 2 * 2 + bitsOf n 10 2 * 8 + bitsOf n 2 1 * 32 + bitsOf n 5 2 * 64 + bitsOf n 12 1 * 256)
  let u (m : Nat) : W64 := BitVec.ofNat 64 m
  match n % 4, f3 with
  | 0, 0 =>
      let m := bitsOf n 11 2 * 16 + bitsOf n 7 4 * 64 + bitsOf n 6 1 * 4 + bitsOf n 5 1 * 8
      if m = 0 then none else some (.alui false 0 false rdP 2 (u m))
  | 0, 2 => some (.load 2 rdP rs1P (u lw))
  | 0, 3 => some (.load 3 rdP rs1P (u ld))
  | 0, 6 => some (.store 2 rs1P rdP (u lw))
  | 0, 7 => some (.store 3 rs1P rdP (u ld))
  | 1, 0 => some (.alui false 0 false rd rd (sx 6 imm6))
  | 1, 1 => if rd = 0 then none else some (.alui true 0 false rd rd (sx 6 imm6))
  | 1, 2 => some (.alui false 0 false rd 0 (sx 6 imm6))
  | 1, 3 =>
      if imm6 = 0 then none
      else if rd = 2 then
        some (.alui false 0 false 2 2 (sx 10 (bitsOf n 6 1 * 16 + bitsOf n 2 1 * 32 + bitsOf n 5 1 * 64 + bitsOf n 3 2 * 128 +
          bitsOf n 12 1 * 512)))
      else some (.lui rd (sx 18 (imm6 * 2 ^ 12)))
  | 1, 4 =>
      match bitsOf n 10 2 with
      | 0 => some (.alui false 5 false rs1P rs1P (u imm6))
      | 1 => some (.alui false 5 true rs1P rs1P (u imm6))
      | 2 => some (.alui false 7 false rs1P rs1P (sx 6 imm6))
      | _ =>
          match bitsOf n 12 1, bitsOf n 5 2 with
          | 0, 0 => some (.alu false 0 true rs1P rs1P rdP)
          | 0, 1 => some (.alu false 4 false rs1P rs1P rdP)
          | 0, 2 => some (.alu false 6 false rs1P rs1P rdP)
          | 0, _ => some (.alu false 7 false rs1P rs1P rdP)
          | _, 0 => some (.alu true 0 true rs1P rs1P rdP)
          | _, 1 => some (.alu true 0 false rs1P rs1P rdP)
          | _, _ => none
  | 1, 5 =>
      some (.jal 0 (sx 12 (bitsOf n 3 3 * 2 + bitsOf n 11 1 * 16 + bitsOf n 2 1 * 32 + bitsOf n 7 1 * 64 + bitsOf n 6 1 * 128 +
        bitsOf n 9 2 * 256 + bitsOf n 8 1 * 1024 + bitsOf n 12 1 * 2048)))
  | 1, 6 => some (.branch 0 rs1P 0 br)
  | 1, 7 => some (.branch 1 rs1P 0 br)
  | 2, 0 => some (.alui false 1 false rd rd (u imm6))
  | 2, 2 => if rd = 0 then none else some (.load 2 rd 2 (u (bitsOf n 4 3 * 4 + bitsOf n 12 1 * 32 + bitsOf n 2 2 * 64)))
  | 2, 3 => if rd = 0 then none else some (.load 3 rd 2 (u (bitsOf n 5 2 * 8 + bitsOf n 12 1 * 32 + bitsOf n 2 3 * 64)))
  | 2, 4 =>
      match bitsOf n 12 1 with
      | 0 => if rs2 = 0 then (if rd = 0 then none else some (.jalr 0 rd 0)) else some (.alu false 0 false rd 0 rs2)
      | _ =>
          if rs2 = 0 then (if rd = 0 then some .ebreak else some (.jalr 1 rd 0))
          else some (.alu false 0 false rd rd rs2)
  | 2, 6 => some (.store 2 2 rs2 (u (bitsOf n 9 4 * 4 + bitsOf n 7 2 * 64)))
  | 2, 7 => some (.store 3 2 rs2 (u (bitsOf n 10 3 * 8 + bitsOf n 7 3 * 64)))
  | _, _ => none

/-- The low 32 bits sign-extended. -/
def sx32 (v : W64) : W64 := (v.truncate 32).signExtend 64

/-- OP and OP-IMM on 64 bits. -/
def aluOp (f3 : Nat) (alt : Bool) (a b : W64) : W64 :=
  match f3 with
  | 0 => if alt then a - b else a + b
  | 1 => a <<< (b.toNat % 64)
  | 2 => if a.slt b then 1 else 0
  | 3 => if a.ult b then 1 else 0
  | 4 => a ^^^ b
  | 5 => if alt then a.sshiftRight (b.toNat % 64) else a >>> (b.toNat % 64)
  | 6 => a ||| b
  | _ => a &&& b

/-- OP-32 and OP-IMM-32. -/
def aluOp32 (f3 : Nat) (alt : Bool) (a b : W64) : W64 :=
  let x : W32 := a.truncate 32
  let k := b.toNat % 32
  match f3 with
  | 0 => sx32 (if alt then a - b else a + b)
  | 1 => (x <<< k).signExtend 64
  | _ => (if alt then x.sshiftRight k else x >>> k).signExtend 64

/-- Truncating signed and unsigned division and remainder with the results the RISC-V specification gives a zero divisor and
overflow. -/
def divS (a b : Int) : Int := if b = 0 then -1 else a.tdiv b
def remS (a b : Int) : Int := if b = 0 then a else a.tmod b

/-- M-extension on 64 bits. -/
def mulDiv (f3 : Nat) (a b : W64) : W64 :=
  match f3 with
  | 0 => a * b
  | 1 => BitVec.ofInt 64 ((a.toInt * b.toInt) / 2 ^ 64)
  | 2 => BitVec.ofInt 64 ((a.toInt * b.toNat) / 2 ^ 64)
  | 3 => BitVec.ofNat 64 (a.toNat * b.toNat / 2 ^ 64)
  | 4 => BitVec.ofInt 64 (divS a.toInt b.toInt)
  | 5 => if b = 0 then BitVec.ofInt 64 (-1) else BitVec.ofNat 64 (a.toNat / b.toNat)
  | 6 => BitVec.ofInt 64 (remS a.toInt b.toInt)
  | _ => if b = 0 then a else BitVec.ofNat 64 (a.toNat % b.toNat)

/-- M-extension on 32 bits. -/
def mulDiv32 (f3 : Nat) (a b : W64) : W64 :=
  let x : W32 := a.truncate 32
  let y : W32 := b.truncate 32
  match f3 with
  | 0 => sx32 (a * b)
  | 4 => (BitVec.ofInt 32 (divS x.toInt y.toInt)).signExtend 64
  | 5 => (if y = 0 then BitVec.ofInt 32 (-1) else BitVec.ofNat 32 (x.toNat / y.toNat)).signExtend 64
  | 6 => (BitVec.ofInt 32 (remS x.toInt y.toInt)).signExtend 64
  | _ => (if y = 0 then x else BitVec.ofNat 32 (x.toNat % y.toNat)).signExtend 64

/-- What an AMO stores, from the old value and the operand, both sign-extended to 64 bits. -/
def amoValue (f5 : Nat) (wide : Bool) (a b : W64) : W64 :=
  let ua := if wide then a.toNat else a.toNat % 2 ^ 32
  let ub := if wide then b.toNat else b.toNat % 2 ^ 32
  match f5 with
  | 0 => a + b
  | 1 => b
  | 4 => a ^^^ b
  | 8 => a ||| b
  | 12 => a &&& b
  | 16 => if b.slt a then b else a
  | 20 => if a.slt b then b else a
  | 24 => if ub < ua then b else a
  | _ => if ua < ub then b else a

/-- Whether a branch is taken. -/
def branchTaken (f3 : Nat) (a b : W64) : Bool :=
  match f3 with
  | 0 => a == b
  | 1 => a != b
  | 4 => a.slt b
  | 5 => !a.slt b
  | 6 => a.ult b
  | _ => !a.ult b

/-- The value that a load of `n` bytes gives its destination. -/
def extendLoad (n : Nat) (signed : Bool) (v : Nat) : W64 := if signed then sx (8 * n) v else BitVec.ofNat 64 v

/-- Bytes of a load or store, and whether a load sign-extends. -/
def accessBytes (f3 : Nat) : Nat := 2 ^ (f3 % 4)
def accessSigned (f3 : Nat) : Bool := decide (f3 < 4)

end Sys2Proof.Machine
end

