-- ==== Sys2Proof/Machine/Streams.lean ====
section
/-!
DEFINITION. Stream engines: block lists, grants, completions, epochs and deadlines (R151 to R153, R242 to R248).
-/
namespace Sys2Proof.Machine

def stream0 (_ : Nat) : Stream := {}
def Parting.stream (p : Parting) (t : Nat) : Stream := Sparse.get stream0 p.streams t
def State.stream (s : State) (d q t : Nat) : Stream := (s.part d q).stream t
def State.setStream (s : State) (d q t : Nat) (x : Stream) : State :=
  s.onPart d q fun p => { p with streams := Sparse.put stream0 p.streams t x }

/-- `PART.SE_STATE` of a stream: 0 idle, 1 running, 2 done, 3 error (Table 6.12). -/
def State.streamState (s : State) (d q t : Nat) : Nat := s.fld d (ptCore q) (0x140 + 4 * (t / 16)) (2 * (t % 16)) 2
def State.setStreamState (s : State) (d q t v : Nat) : State := s.setFld d (ptCore q) (0x140 + 4 * (t / 16)) (2 * (t % 16)) 2 v

/-! ### The start record and the block list -/

/-- Fields of the start record (Table 6.6). -/
def Stream.list (x : Stream) : Nat := bitsOf x.cfg 0 48
def Stream.count (x : Stream) : Nat := bitsOf x.cfg 48 16
def Stream.kind (x : Stream) : Nat := bitsOf x.cfg 64 2
def Stream.doneSlot (x : Stream) : Nat := bitsOf x.cfg 66 11
def Stream.retire (x : Stream) : Nat := bitsOf x.cfg 80 5
def Stream.dir (x : Stream) : Bool := bitOf x.cfg 85
def Stream.mode (x : Stream) : Bool := bitOf x.cfg 86

/-- Whether a start record can be carried out (R152, Table 6.6). -/
def recordOk (w : Nat) : Bool :=
  bitsOf w 77 3 == 0 && bitsOf w 117 139 == 0 && bitsOf w 0 5 == 0 && bitsOf w 48 16 != 0 && bitsOf w 64 2 != 3

/-- Fields of a block-list entry (Table 9.6). -/
def eAddr (w : Nat) : Nat := bitsOf w 0 48
def eRank (w : Nat) : Nat := bitsOf w 48 12
def eLen (w : Nat) : Nat := bitsOf w 64 24
def eBucket (w : Nat) : Nat := bitsOf w 88 16
def eEpoch (w : Nat) : Bool := bitOf w 105
def eRsrc (w : Nat) : Bool := bitOf w 106
def eRdst (w : Nat) : Bool := bitOf w 107
def eSig (w : Nat) : Bool := bitOf w 108
def eNa (w : Nat) : Bool := bitOf w 109
def eDeadline (w : Nat) : Nat := bitsOf w 120 32
def eStride (w : Nat) : Int := if eEpoch w then 0 else toSigned 40 (bitsOf w 152 40)
def eRows (w : Nat) : Nat := if eEpoch w then 1 else bitsOf w 192 16 + 1
def eDaddr (w : Nat) : Nat := bitsOf w 208 48

/-- Bytes that an entry moves (R243). -/
def eBytes (w : Nat) : Nat := eRows w * eLen w

/-- Address of byte `off` of an entry's rows (R243): `ADDR` + row × `STRIDE` as an integer, and as 48 bits. -/
def eInt (w off : Nat) : Int := (eAddr w : Int) + eStride w * (off / eLen w : Nat) + (off % eLen w : Nat)
def eAt (w off : Nat) : Nat := (eInt w off).toNat % 2 ^ 48

/-- The field rules of an entry for a kind of stream (R244, Table 9.6). -/
def entryOk (kind w : Nat) : Bool :=
  let plain := !eEpoch w
  bitsOf w 60 4 == 0 && bitsOf w 110 10 == 0 && eAddr w % 64 == 0 && eLen w % 64 == 0 && eLen w != 0 &&
    (eRsrc w || eRdst w || eRank w == 0) &&
    (if plain then
      bitsOf w 152 6 == 0 && (bitOf w 104 || bitsOf w 192 16 == 0) && (if kind = 2 then eDaddr w % 64 == 0 else eDaddr w == 0)
    else
      bitsOf w 200 8 == 0 && eAddr w % 1024 == 0 && eLen w % 1024 == 0 && eDaddr w % 8 == 0 && !bitOf w 104 && !eRsrc w) &&
    !(kind == 1 && (eRsrc w || eEpoch w)) && !(decide (kind < 2) && eRdst w) && !(eRsrc w && eRdst w)

/-- Whether `n` bytes of local memory lie in the program's bounds and outside the carve-out (R244). -/
def State.localOk (s : State) (bs : List Bound) (a n : Nat) (write : Bool) : Bool :=
  inBounds bs a n write && !(decide (s.carveBase < a + n) && decide (a < sapEnd))

/-- Whether the local blocks of an entry are permitted (R185, R244); a row below address 0 or beyond 48 bits is not. -/
def State.entryInBounds (s : State) (bs : List Bound) (kind dst w : Nat) : Bool :=
  let rows := eRsrc w || (List.range (eRows w)).all fun i =>
    let a := eInt w (i * eLen w)
    decide (0 ≤ a) && decide (a < 2 ^ 48) && s.localOk bs a.toNat (eLen w) (kind == 1)
  let tags := !eEpoch w || (List.range (eLen w / 1024)).all fun i => s.localOk bs ((eDaddr w + 8 * i) / 64 * 64) 64 false
  let dest := kind != 2 || eRdst w || s.localOk bs dst (eBytes w) true
  rows && tags && dest

/-- A stream enters the error state at entry `n` (R152, R244); one that is in it stays as it is. -/
def State.streamError (s : State) (d q t n : Nat) : State :=
  let c := ptCore q
  if s.streamState d q t = 3 then s
  else
  ((((s.setStream d q t { s.stream d q t with stop := some n }).setStreamState d q t 3).setRg d c 0x148 (BitVec.ofNat 32 (t + n % 65536 * 2 ^ 5))).errBit d c 1).event d c 2 0 1 1 0

/-- Requests of a stream in progress: its own, the read of its block list, and those of before it was started again (R151). -/
def Stream.running (x : Stream) : List Nat := (x.reqs.filterMap fun r => r.id) ++ x.fetch.toList ++ x.left

/-- Outstanding requests of engine `e` (R151). -/
def Parting.outstanding (p : Parting) (e : Nat) : Nat :=
  (List.range 16).foldl (fun n i => n + (p.stream (16 * e + i)).running.length) 0

/-- SE.START carried out for a stream that is not busy (R152): `w` is its start record. Requests that it still has in progress, as one in the error
state may, stay counted (R151), and tiles of its that are still on their way are acknowledged to no entry. `PART.SE_ERR.ENTRY` shows 0 for a
bad start record, of which no entry is in error (DESIGN CHOICE, log entry 100). -/
def State.seStart (s : State) (d q t w : Nat) : State :=
  let x : Stream := { cfg := w, start := s.tick, tile := bitsOf w 101 16, line := bitsOf w 87 14, left := (s.stream d q t).running }
  let s := (s.setStream d q t x).setFlag d (ptCore q) 0x1D0 t false
  let s := s.onPart d q fun p => { p with sent := p.sent.map fun y => if y.stream = t then { y with stream := 32 } else y }
  if recordOk w then s.setStreamState d q t 1 else s.streamError d q t 0

/-! ### Served requests -/

/-- What has come back for a request: whether it failed, its data and poison; none while it is in progress. -/
def State.served (s : State) (id : Nat) : Option (Bool × Nat × Nat) :=
  match s.findReq id with
  | some r => if r.left = 0 then some (r.failed, r.data, r.poison) else none
  | none =>
      match s.remotes.find? fun r => r.id == id with
      | some r => if r.done then some (r.failed, r.data, r.poison) else none
      | none => none

/-- A finished request forgotten, of memory or of the network. -/
def State.forget (s : State) (id : Nat) : State := { s.dropReq id with remotes := s.remotes.filter fun r => r.id != id }

/-- A remote block is handed to the network (R243, R341). -/
def State.issueRemote (s : State) (r : RemoteReq) : Nat × State :=
  (s.nextReq, { s with remotes := s.remotes ++ [{ r with id := s.nextReq }], nextReq := s.nextReq + 1 })

/-- Whether a tag is valid and of the epoch that an entry expects; bits [63:49] are not compared (R246). -/
def tagExpected (w tag : Nat) : Bool := tag % 2 ^ 49 == bitsOf w 152 32 + bitsOf w 184 16 * 2 ^ 32 + 2 ^ 48

/-- Address of the tag of the chunk at byte `off` of an epoch entry (R246). -/
def tagAt (w off : Nat) : Nat := eDaddr w + 8 * (off / 1024)

/-- What a request becomes when its reply has arrived, with the entry it is of; none where its epoch does not match (R246). -/
def SReq.replied (r : SReq) (w : Nat) (data poison : Nat) : Option SReq :=
  match r.phase with
  | 4 => some { r with phase := 0, id := none, tag := data / 2 ^ (8 * (tagAt w r.off % 64)) % 2 ^ 64 }
  | 0 => some { r with phase := if eEpoch w then 5 else 1, id := none, data := data, poison := poison }
  | 5 =>
      let t := data / 2 ^ (8 * (tagAt w r.off % 64)) % 2 ^ 64
      if t = r.tag ∧ tagExpected w t = true then some { r with phase := 1, id := none } else none
  | _ => some { r with phase := 3, id := none }

/-! ### Beginning entries and injecting fetched tiles -/

/-- Bytes of the request at byte `off` of an entry: up to 4 KiB within its row, split at 4 KiB boundaries, or one epoch chunk
(R243, R246); a copy's requests are split at the boundaries of its destination as well. -/
def pieceBytes (kind dst w off : Nat) : Nat :=
  if eEpoch w then 1024
  else
    let n := min (eLen w - off % eLen w) (4096 - eAt w off % 4096)
    if kind = 2 then min n (4096 - (dst + off) % 4096) else n

/-- A stream begins its next entry once it has issued the last: it reads the entry's 32 B from its block list, a request of its own engine (R228,
R243, R244). -/
def State.beginEntry (s : State) (d q t : Nat) : State :=
  let x := s.stream d q t
  let busy := match x.entries.getLast? with | some e => decide (e.issued < eBytes e.bits) | none => false
  if s.streamState d q t ≠ 1 ∨ busy = true ∨ x.count ≤ x.next ∨ x.retryAt.isSome = true ∨ x.fetch.isSome = true ∨
      128 ≤ x.running.length ∨ 256 ≤ (s.part d q).outstanding (t / 16) then s
  else
    let a := x.list + 32 * x.next
    if spanMapped a 32 then
      let (id, s) := s.issue { id := 0, die := d, requester := 24 + 2 * q + t / 16, lane := t, addr := a, units := 1, write := false
                               data := 0, poison := 0, bytes := 32, left := 0 }
      s.setStream d q t { x with fetch := some id }
    else s.streamError d q t x.next

/-- An entry that has been read begins, if it is well formed and permitted (R185, R244). In epoch form a copy has no destination field: its address
is free. -/
def State.openEntry (s : State) (d q t w : Nat) (failed : Bool) : State :=
  let (free, s) := s.freeNat 48
  let x := s.stream d q t
  let dst := if eEpoch w then free / 64 * 64 else eDaddr w
  if failed || !entryOk x.kind w || !s.entryInBounds (s.core d (ptCore q)).bounds x.kind dst w then s.streamError d q t x.next
  else s.setStream d q t { x with entries := x.entries ++ [{ index := x.next, bits := w, dst := dst }], next := x.next + 1 }

/-- The reply to the read of a block list is taken in; in the error state it is dropped (R244). Requests of before a restart that have been served
are forgotten. -/
def State.takeListEntry (s : State) (d q t : Nat) : State :=
  let x := s.stream d q t
  let old := x.left.filter fun i => (s.served i).isSome
  let s := (old.foldl (fun s i => s.forget i) s).setStream d q t { x with left := x.left.filter fun i => !old.contains i }
  match x.fetch.bind fun i => (s.served i).map fun r => (i, r) with
  | none => s
  | some (i, failed, data, poison) =>
      let s := (s.forget i).setStream d q t { s.stream d q t with fetch := none }
      if s.streamState d q t = 1 then s.openEntry d q t data (failed || poison != 0) else s

/-- Replies of a stream taken in: data, epoch checks, failures (R244, R246). -/
def State.takeReplies (s : State) (d q t : Nat) : (fuel : Nat) → State
  | 0 => s.takeListEntry d q t
  | fuel + 1 =>
      let x := s.stream d q t
      match x.reqs.find? fun r => match r.id with | some i => (s.served i).isSome | none => false with
      | none => s.takeListEntry d q t
      | some r =>
          match r.id with
          | none => s
          | some i =>
              let (failed, data, poison) := (s.served i).getD (true, 0, 0)
              let w := match x.entries.find? fun e => e.index == r.entry with | some e => e.bits | none => 0
              let s := s.forget i
              let s :=
                if failed then (s.setStream d q t { x with reqs := x.reqs.erase r }).streamError d q t r.entry
                else
                  match r.replied w data poison with
                  | some r' => s.setStream d q t { x with reqs := x.reqs.map fun y => if y = r then r' else y }
                  | none =>
                      (s.bump d (ptCore q) 0x1A8 1).setStream d q t { x with
                        reqs := x.reqs.map fun y => if y = r then { r with phase := 4, id := none } else y
                        retryAt := some (s.tick + 64) }
              State.takeReplies s d q t fuel

/-- Data of an entry's requests in order, once all have been read: bytes, their number, poison. -/
def entryData (rs : List SReq) : Nat × Nat × Nat :=
  rs.foldl (fun acc r => (acc.1 + r.data * 2 ^ (8 * acc.2.1), acc.2.1 + r.bytes, acc.2.2 + r.poison * 2 ^ (acc.2.1 / 64))) (0, 0, 0)

/-- The 512 B lines of `n` bytes; what the last line holds beyond them is free. -/
def State.dataLines (s : State) (data n poison : Nat) : List (Nat × Nat) :=
  (List.range (ceilDiv n 512)).map fun i =>
    let line := data / 2 ^ (4096 * i) % 2 ^ 4096
    let used := min 512 (n - 512 * i)
    let pad := (Config.freeBits 4096 s.fresh).toNat / 2 ^ (8 * used) * 2 ^ (8 * used)
    (if used = 512 then line else line + pad, poison / 2 ^ (8 * i) % 2 ^ 8)

/-- Tile identifiers and lines of a fetch's tiles (R55, R152): 256 transfers each. -/
def fetchTiles (st : Nat) (x : Stream) : (fuel tile line : Nat) → List (Nat × Nat) → List (List Xfer)
  | 0, _, _, _ => []
  | _, _, _, [] => []
  | fuel + 1, tile, line, l =>
      ringTile st x.retire x.dir x.mode (tagLine x.mode x.retire line) (tile % 2 ^ 16) none (fun i => i) (l.take 256) ::
        fetchTiles st x fuel (tile + 1) (line + 256) (l.drop 256)

/-- Whether an entry is carried on: in the error state, of the entries before the one in error only what is in flight (R244). -/
def Stream.goes (x : Stream) (entry : Nat) : Bool := match x.stop with | some n => decide (entry < n) | none => true

/-- The oldest fetched entry whose data have all arrived is injected at the Parting station; a malformed hop tag is a failed
request (R23, R152). -/
def State.injectFetched (s : State) (d q t : Nat) : State :=
  let x := s.stream d q t
  let st := stationOfCore (ptCore q)
  match x.entries.find? fun e => !e.injected with
  | none => s
  | some e =>
      let rs := x.reqs.filter fun r => r.entry == e.index
      if x.kind ≠ 0 ∨ x.goes e.index = false ∨ e.issued < eBytes e.bits ∨ (rs.any fun r => r.phase != 1) = true then s
      else
        let (data, n, poison) := entryData rs
        let ls := s.dataLines data n poison
        let s := { s with fresh := s.fresh + 1 }
        let ts := fetchTiles st x (ls.length + 1) x.tile x.line ls
        let out := ts.filterMap fun xs => xs.head?.map fun z =>
          ({ stream := t, entry := e.index, tile := z.tag.tile, retire := z.tag.retire, dir := z.tag.dir, line := z.tag.bufLine
             xferLast := z.tag.xferLast } : SentTile)
        let y := { x with
          entries := x.entries.map fun e' => if e' = e then { e with injected := true } else e'
          reqs := x.reqs.filter fun r => r.entry != e.index
          tile := (x.tile + ts.length) % 2 ^ 16
          line := tagLine x.mode x.retire (x.line + 256 * ts.length) }
        let bad := ts.any fun xs => xs.any fun z => z.tag.malformed st
        let s := s.setStream d q t y
        if bad then (s.errBit d (stBlk st) 0).streamError d q t e.index
        else
          ts.foldl (fun s xs => s.sendPart d (ptCore q) 3 false xs.length xs) (s.onPart d q fun p => { p with sent := p.sent ++ out })

/-! ### Grants -/

/-- Classes of requests (R245). -/
inductive SClass where
  | read | write | remote
  deriving DecidableEq, Repr

def SClass.code : SClass → Nat
  | .read => 0
  | .write => 1
  | .remote => 2

/-- A request that a stream would issue next in each of its classes. -/
inductive SNext where
  /-- The next piece of an entry being issued. -/
  | piece (e : SEntry) (n : Nat)
  /-- A request in progress that issues again: tag, data, second tag, or write. -/
  | again (r : SReq) (e : SEntry)
  deriving DecidableEq, Repr

/-- The class of a request of an entry: remote for every one of a block with `RSRC` or `RDST`, else read or write (R245). -/
def classOf (w : Nat) (c : SClass) : SClass := if eRsrc w || eRdst w then .remote else c

/-- The requests that a stream has ready, with their classes (R243, R245, R246): a stream holds at most 128 requests (R151). -/
def Stream.ready (x : Stream) : List (SClass × SNext) :=
  let open_ := x.retryAt.isNone && decide (x.running.length < 128)
  let again := x.reqs.filterMap fun r =>
    match x.entries.find? fun e => e.index == r.entry with
    | none => none
    | some e =>
        if r.id.isSome || !open_ || !x.goes r.entry then none
        else if r.phase = 4 ∨ r.phase = 5 ∨ r.phase = 0 then some (classOf e.bits .read, SNext.again r e)
        else if r.phase = 1 ∧ x.kind = 2 then some (classOf e.bits .write, .again r e)
        else none
  let epochBusy := x.reqs.any fun r => r.phase == 0 || r.phase == 4 || r.phase == 5
  let piece := match x.entries.getLast? with
    | none => []
    | some e =>
        let n := pieceBytes x.kind e.dst e.bits e.issued
        if eBytes e.bits ≤ e.issued ∨ x.stop.isSome = true ∨ (eEpoch e.bits && epochBusy) = true ∨ !open_ = true then []
        else if x.kind = 1 then (if n ≤ 64 * x.inbox.length then [(classOf e.bits .write, SNext.piece e n)] else [])
        else [(classOf e.bits .read, .piece e n)]
  let all := again ++ piece
  let entryOf (n : SNext) : Nat := match n with | .piece e _ => e.index | .again r _ => r.entry
  let unissued (r : SReq) : Bool :=
    r.phase == 4 || r.phase == 5 || (x.kind == 2 && decide (r.phase < 2)) ||
      (r.phase == 0 && (x.entries.any fun e => e.index == r.entry && eEpoch e.bits))
  all.filter fun a => x.reqs.all fun r => !unissued r || decide (entryOf a.2 ≤ r.entry)

/-- The two shares of a split code other than the rest's, in per cent: read, write, remote (R245). -/
def splitShare (code : Nat) (c : SClass) : Nat :=
  match code, c with
  | 0, .read => 50
  | 0, _ => 25
  | 1, .read => 60
  | 1, .write => 30
  | 1, .remote => 10
  | 2, .write => 20
  | 2, _ => 40
  | _, .read => 34
  | _, _ => 33

/-- Units of 64 B that an engine has served in a class. -/
def Parting.servedUnits (p : Parting) (e : Nat) (c : SClass) : Nat := Sparse.get nat0 p.served (3 * e + c.code)

/-- Served units added; all three counts are halved when one reaches 2^31 (R245). -/
def Parting.serve (p : Parting) (e : Nat) (c : SClass) (n : Nat) : Parting :=
  let m := Sparse.put nat0 p.served (3 * e + c.code) (p.servedUnits e c + n)
  let m := if 2 ^ 31 ≤ p.servedUnits e c + n then
      (List.range 3).foldl (fun m i => Sparse.put nat0 m (3 * e + i) (Sparse.get nat0 m (3 * e + i) / 2)) m
    else m
  { p with served := m }

/-- Streams of engine `e` in the round-robin order after the one it served last (R151). -/
def Parting.turns (p : Parting) (e : Nat) : List Nat :=
  let l := Sparse.get nat0 p.last e
  (List.range 16).map fun i => 16 * e + (l + 1 + i) % 16

/-- The class that a grant cycle serves: with work, the smallest served count over its share; ties in the order read, write,
remote (R245). -/
def chooseClass (code : Nat) (units : SClass → Nat) (work : SClass → Bool) : Option SClass :=
  let better (a : Option SClass) (c : SClass) : Option SClass :=
    if work c then
      match a with
      | none => some c
      | some b => if units c * splitShare code b < units b * splitShare code c then some c else some b
    else a
  better (better (better none .read) .write) .remote

/-- A request of stream `t` issued (R243): memory requests of engine `e` are of requester 24 + 2q + e (Table 9.3). -/
def State.issueStream (s : State) (d q t : Nat) (w addr bytes : Nat) (write remote : Bool) (data poison : Nat) : Nat × State :=
  if remote then
    s.issueRemote { id := 0, die := d, quarter := q, stream := t, rank := eRank w, addr := addr, bytes := bytes, write := write,
                    bucket := eBucket w, data := data, poison := poison }
  else
    s.issue { id := 0, die := d, requester := 24 + 2 * q + t / 16, lane := t, addr := addr, units := bytes / 64, write := write,
              data := data, poison := poison, na := eNa w, left := 0 }

/-- The first `n` units of the inbox as data with poison. -/
def takeInbox (l : List (Nat × Bool)) (n : Nat) : Nat × Nat :=
  (packBits 512 ((l.take n).map (·.1)), packBits 1 ((l.take n).map fun u => b2n u.2))

/-- A stream's request issued; and its units of 64 B. -/
def State.grant (s : State) (d q t : Nat) : SNext → Nat × State
  | .piece e n =>
      let x := s.stream d q t
      let es := x.entries.map fun e' => if e' = e then { e with issued := e.issued + n } else e'
      if eEpoch e.bits then
        let a := tagAt e.bits e.issued / 64 * 64
        let (id, s) := s.issueStream d q t e.bits a 64 false false 0 0
        let r : SReq := { entry := e.index, off := e.issued, bytes := n, id := some id, phase := 4 }
        (1, s.setStream d q t { x with entries := es, reqs := x.reqs ++ [r] })
      else if x.kind = 1 then
        let (data, poison) := takeInbox x.inbox (n / 64)
        let (id, s) := s.issueStream d q t e.bits (eAt e.bits e.issued) n true false data poison
        let r : SReq := { entry := e.index, off := e.issued, bytes := n, id := some id, phase := 2 }
        (n / 64, s.setStream d q t { x with entries := es, reqs := x.reqs ++ [r], inbox := x.inbox.drop (n / 64) })
      else
        let (id, s) := s.issueStream d q t e.bits (eAt e.bits e.issued) n false (eRsrc e.bits) 0 0
        let r : SReq := { entry := e.index, off := e.issued, bytes := n, id := some id, phase := 0 }
        (n / 64, s.setStream d q t { x with entries := es, reqs := x.reqs ++ [r] })
  | .again r e =>
      let x := s.stream d q t
      let put (id : Nat) (phase : Nat) (s : State) : State :=
        s.setStream d q t { x with reqs := x.reqs.map fun y => if y = r then { r with id := some id, phase := phase } else y }
      if r.phase = 4 ∨ r.phase = 5 then
        let (id, s) := s.issueStream d q t e.bits (tagAt e.bits r.off / 64 * 64) 64 false false 0 0
        (1, put id r.phase s)
      else if r.phase = 0 then
        let (id, s) := s.issueStream d q t e.bits (eAt e.bits r.off) r.bytes false false 0 0
        (r.bytes / 64, put id 0 s)
      else
        let (id, s) := s.issueStream d q t e.bits (e.dst + r.off) r.bytes true (eRdst e.bits) r.data r.poison
        (r.bytes / 64, put id 2 s)

/-- What an engine does before it grants: replies are taken in, entries begin, fetched tiles leave. -/
def State.freshen (s : State) (d q e : Nat) : State :=
  let s := (List.range 16).foldl (fun s i =>
    let t := 16 * e + i
    (((s.takeReplies d q t 128).beginEntry d q t).injectFetched d q t)) s
  s.flushTiles d (ptCore q) 64

/-- Whether a stream waits with a part at its limit in a bank (R230). -/
def State.streamHeld (s : State) (d q t : Nat) : Bool :=
  s.held.any fun p => p.fromDie == d && p.fromIdx == 24 + 2 * q + t / 16 && p.lane == t

/-- One grant cycle of an engine (R151, R230, R245): a stream whose part waits is granted nothing. -/
def State.grantCycle (s : State) (d q e : Nat) : State :=
  let p := s.part d q
  let running := (p.turns e).filter fun t =>
    (s.streamState d q t == 1 || (s.streamState d q t == 3 && (p.stream t).stop.isSome)) && !s.streamHeld d q t
  let work (c : SClass) : Bool := running.any fun t => (p.stream t).ready.any fun r => r.1 == c
  if 256 ≤ p.outstanding e then s
  else
    match chooseClass (s.fld d (ptCore q) 0x198 (2 * e) 2) (p.servedUnits e) work with
    | none => s
    | some c =>
        match running.findSome? fun t => ((p.stream t).ready.find? fun r => r.1 == c).map fun r => (t, r.2) with
        | none => s
        | some (t, n) =>
            let (units, s) := s.grant d q t n
            s.onPart d q fun p => { p.serve e c units with last := Sparse.put nat0 p.last e (t % 16) }

/-- STREAM_REQUEST_GRANT: a stream engine grants one request to the class whose served share is smallest (R245); in an engine reset of its die it
issues none (R404). -/
def execStreamRequestGrant (d : Fin 8) (q : Fin 4) (e : Fin 2) (s : State) : Out :=
  if s.run == .ready && s.qRuns d q && !s.resetting d then .next ((s.freshen d q e).grantCycle d q e) else .next s

/-! ### Completion -/

/-- Whether every request of the oldest entry is done for the kind of its stream (R152, R243). -/
def State.entryComplete (s : State) (d q t : Nat) (x : Stream) (e : SEntry) : Bool :=
  let rs := x.reqs.filter fun r => r.entry == e.index
  decide (eBytes e.bits ≤ e.issued) &&
    (if x.kind = 0 then e.injected && !((s.part d q).sent.any fun y => y.stream == t && y.entry == e.index)
    else rs.all fun r => r.phase == 3) && s.streamState d q t == 1

/-- Deadline tick of an entry (R247); none without one. -/
def deadlineOf (start w : Nat) : Option Nat := if eDeadline w = 0 then none else some (start + eDeadline w)

/-- `PART.DL_DATA0–3` show the selected miss record (R248). -/
def DlRec.bits (r : DlRec) : Nat := r.stream + r.entry * 2 ^ 5 + r.bucket * 2 ^ 32 + r.late * 2 ^ 64 + (r.due % 2 ^ 32) * 2 ^ 96
def State.missWindow (s : State) (d q : Nat) : State :=
  let n := match (s.part d q).misses[s.fld d (ptCore q) 0x1B8 0 4]? with | some r => r.bits | none => 0
  (List.range 4).foldl (fun s j => s.setRg d (ptCore q) (0x1C0 + 4 * j) (BitVec.ofNat 32 (n / 2 ^ (32 * j)))) s

/-- Whether an entry with a block-list word is past its deadline (R247). -/
def Stream.overdue (x : Stream) (now w : Nat) : Bool := match deadlineOf x.start w with | some t => decide (t ≤ now) | none => false

/-- Whether an entry of a stream that is not complete, begun or still to begin, is past its deadline (R247). -/
def State.late (s : State) (x : Stream) : Bool :=
  (x.entries.any fun e => x.overdue s.tick e.bits) ||
    (List.range (x.count - x.next)).any fun i => x.overdue s.tick (s.readMem (x.list + 32 * (x.next + i)) 32)

/-- The deadline of an entry that completes now (R247, R248). -/
def State.closeDeadline (s : State) (d q t : Nat) (x : Stream) (e : SEntry) : State :=
  match deadlineOf x.start e.bits with
  | none => s
  | some due =>
      if s.flag d (ptCore q) 0x19C 0 ∧ due ≤ s.tick then
        let r : DlRec := ⟨t, e.index % 65536, eBucket e.bits, min (s.tick - due) (2 ^ 32 - 1), due⟩
        let s := s.setFlag d (ptCore q) 0x1D0 t (s.late (s.stream d q t))
        ((s.bump d (ptCore q) 0x1B0 1).onPart d q fun p => { p with misses := (r :: p.misses).take 16 }).missWindow d q
      else s

/-- The oldest entry of a stream completes: it signals if `SIG` is set, and the stream signals and is done after its last (R152,
R243). -/
def State.completeEntry (s : State) (d q t : Nat) (x : Stream) (e : SEntry) : State :=
  let y := { x with entries := x.entries.drop 1, completed := x.completed + 1, reqs := x.reqs.filter fun r => r.entry != e.index }
  let s := s.setStream d q t y
  let s := s.closeDeadline d q t x e
  let sig (s : State) : State := s.signal d q (ptCore q) d x.doneSlot 1
  let s := if eSig e.bits then sig s else s
  if y.completed = x.count then (sig s).setStreamState d q t 2 else s

/-- STREAM_ENTRY_COMPLETE: a block-list entry completes in list order (R243, R247, R248). -/
def execStreamEntryComplete (d : Fin 8) (q : Fin 4) (t : Fin 32) (s : State) : Out :=
  if s.powered && s.qRuns d q then
    let s := s.takeReplies d q t 128
    let x := s.stream d q t
    match x.entries with
    | e :: _ => .next (if s.entryComplete d q t x e then s.completeEntry d q t x e else s)
    | [] => .next s
  else .next s

/-- Units that a receive stream holds before its transfers wait in the landing buffer (R153, log entry 19). -/
def inboxUnits : Nat := 64

/-- PARTING_RECEIVE: a point-to-point transfer retiring at a Parting station goes to the receive stream that its `BUF_LINE` names, waits
for it, or is discarded (R153); one in copy-and-forward mode ends there without being written (R22). Requests and replies of memory are
taken by TRANSFER_RELEASE. -/
def execPartingReceive (d : Fin 8) (q path : Fin 4) (s : State) : Out :=
  let st := stationOfCore (ptCore q)
  let y := s.station d st
  match y.landing path with
  | [] => .next s
  | z :: rest =>
      if s.powered && s.qRuns d q then
        let t := z.tag.bufLine % 32
        let x := s.stream d q t
        let out := (s.setStation d st (y.setLanding path rest))
        if z.msg.isSome then .next s
        else if z.tag.mode then .next ((out.ackTile d st z).landHeld d path st)
        else if z.tag.bufLine / 32 ≠ 0 ∨ s.streamState d q t ≠ 1 ∨ x.kind ≠ 1 then
          .next (((out.errBit d (ptCore q) 1).event d (ptCore q) 2 0 1 1 0).landHeld d path st)
        else if inboxUnits ≤ x.inbox.length then .next s
        else
          let us := (List.range (8 * z.lines)).map fun i => (z.data / 2 ^ (512 * i) % 2 ^ 512, bitOf z.poison i)
          .next (((out.setStream d q t { x with inbox := x.inbox ++ us }).ackTile d st z).landHeld d path st)
      else .next s

/-- EPOCH_RETRY: after 64 ticks the stream fetches again the chunk whose epoch tag did not match (R246). -/
def execEpochRetry (d : Fin 8) (q : Fin 4) (t : Fin 32) (s : State) : Out :=
  let x := s.stream d q t
  match x.retryAt with
  | some k => .next (if k ≤ s.tick ∧ s.qRuns d q = true then s.setStream d q t { x with retryAt := none } else s)
  | none => .next s

/-- DEADLINE_MISS: an entry still incomplete at its deadline tick sets its stream's `DL_PENDING` bit in real-time mode (R247). -/
def execDeadlineMiss (d : Fin 8) (q : Fin 4) (t : Fin 32) (s : State) : Out :=
  if s.flag d (ptCore q) 0x19C 0 && s.streamState d q t == 1 && s.late (s.stream d q t) then
    .next (s.setFlag d (ptCore q) 0x1D0 t true)
  else .next s

end Sys2Proof.Machine
end

