-- ==== Sys2Proof/Machine/Hart.lean ====
section
/-!
DEFINITION. The harts of the Parting cores: start, stop, RV64IMAC execution and the queue extension (R147 to R150, R221, R222).
-/
namespace Sys2Proof.Machine

/-! ### Start, stop and exceptions -/

/-- A hart starts at its entry (R148); its registers keep what they hold. -/
def State.startHart (s : State) (d q h : Nat) : State :=
  (s.setHart d q h { s.hart d q h with pc := s.fld d (ptCore q) (0x110 + 4 * h) 0 17, wait := none, resv := none }).setHartState d q h 1

/-- A hart stops. -/
def State.stopHart (s : State) (d q h : Nat) : State :=
  (s.setHart d q h { s.hart d q h with wait := none }).setHartState d q h 0

/-- A write of `PART.HART_CTRL` (R148, Table 6.12): bits written 1 start the harts that do not run, bits written 0 stop those
that do. -/
def State.wHartCtrl (s : State) (d q : Nat) (v : W32) : State :=
  (List.range 4).foldl (fun s h =>
    let runs := s.hartState d q h == 1
    if v.getLsbD h then (if runs || s.run != .ready then s else s.startHart d q h) else (if runs then s.stopHart d q h else s))
    (s.writeAcc d (ptCore q) 0x104 v)

/-- HART_START: writing 1 to the hart's bit of `PART.HART_CTRL.RUN`, the other bits as they are, starts it at its entry
(R148). -/
def execHartStart (d : Fin 8) (q h : Fin 4) (s : State) : Out :=
  .next (if s.inReset then s else s.wHartCtrl d q (s.rg d (ptCore q) 0x104 ||| BitVec.ofNat 32 (2 ^ h.val)))

/-- HART_STOP: writing 0 to the hart's bit stops it (R148). -/
def execHartStop (d : Fin 8) (q h : Fin 4) (s : State) : Out :=
  .next (if s.inReset then s else s.wHartCtrl d q (s.rg d (ptCore q) 0x104 &&& ~~~(BitVec.ofNat 32 (2 ^ h.val))))

/-- An exception stops the hart (R148): its cause and place are latched and the event is recorded as uncontained, with an event class and a
syndrome. -/
def State.hartStops (s : State) (d q h cause ev syn : Nat) : State :=
  let c := ptCore q
  let x := s.hart d q h
  let s := (s.setRg d c (0x120 + 4 * h) (BitVec.ofNat 32 (x.pc % 2 ^ 17 + cause * 2 ^ 17))).setHartState d q h 3
  ((s.setHart d q h { x with wait := none }).errBit d c 0).event d c 2 ev 1 0 syn

/-- An exception of a hart (R148). -/
def State.hartFault (s : State) (d q h cause : Nat) : State := s.hartStops d q h cause 0 0

/-- A hart loads a poisoned word of its core's memories or of the module's, or fetches one: an access fault, and an uncontained memory event
(R313, R322). -/
def State.hartPoison (s : State) (d q h cause addr : Nat) : State := s.hartStops d q h cause 4 (addr % 2 ^ 48 + ptCore q * 2 ^ 48)

/-! ### Fetching -/

/-- What a hart fetches at its pc: an exception, or an instruction and its bytes (R148). -/
inductive RvFetched where
  | fault (cause : Nat)
  /-- A poisoned word of instruction memory (R313). -/
  | poison (addr : Nat)
  | instr (i : Rv) (len : Nat)
  deriving DecidableEq, Repr

/-- Bytes of instruction memory. -/
def Parting.code (p : Parting) (a n : Nat) : Nat := ofBytes (Sparse.getRange byte0 p.imem a n)

def Parting.fetch (p : Parting) (pc : Nat) : RvFetched :=
  if imemBytes < pc + 2 then .fault 1
  else if Sparse.get false0 p.imemPoison (pc / 64) then .poison pc
  else
    let lo := p.code pc 2
    if lo % 4 ≠ 3 then (match rvcDecode lo with | some i => .instr i 2 | none => .fault 2)
    else if imemBytes < pc + 4 then .fault 1
    else if Sparse.get false0 p.imemPoison ((pc + 3) / 64) then .poison (pc + 2)
    else match rvDecode (p.code pc 4) with | some i => .instr i 4 | none => .fault 2

/-- Operations of the queue extension (Table 8.8). -/
inductive QOp where
  | qpush | qwait | tksig | tkwait | cbTake | cbRead | cbSet | cbMask
  | cbLog | seStart | seStat | wsend | wrecv | tick
  deriving DecidableEq, Repr

/-- The operation of a custom encoding; none for an illegal one (R221). -/
def queueOp (one : Bool) (f3 f7 : Nat) : Option QOp :=
  if one then
    if f7 ≠ 0 then none
    else match f3 with
      | 0 => some .cbLog
      | 1 => some .seStart
      | 2 => some .seStat
      | 3 => some .wsend
      | 4 => some .wrecv
      | 5 => some .tick
      | _ => none
  else if f3 = 0 then (if f7 < 12 then some .qpush else none)
  else if f7 ≠ 0 then none
  else match f3 with
    | 1 => some .qwait
    | 2 => some .tksig
    | 3 => some .tkwait
    | 4 => some .cbTake
    | 5 => some .cbRead
    | 6 => some .cbSet
    | _ => some .cbMask

/-- Whether a hart executes now: it runs, waits for nothing, and its quarter runs (R148). -/
def State.hartReady (s : State) (d q h : Nat) : Bool :=
  s.run == .ready && s.qRuns d q && s.hartState d q h == 1 && (s.hart d q h).wait.isNone

/-! ### Data memory -/

/-- Offset in data memory of `n` bytes at a hart address; none outside it. -/
def dataOffset (a n : Nat) : Option Nat :=
  if Config.dmemBase ≤ a ∧ a + n ≤ Config.dmemBase + dmemBytes then some (a - Config.dmemBase) else none
/-- Offset in instruction memory. -/
def codeOffset (a n : Nat) : Option Nat :=
  if Config.imemBase ≤ a ∧ a + n ≤ Config.imemBase + imemBytes then some (a - Config.imemBase) else none

/-- Bytes of data memory. -/
def Parting.data (p : Parting) (o n : Nat) : Nat := ofBytes (Sparse.getRange byte0 p.dmem o n)
/-- Whether a 64 B unit that `n` bytes touch is poisoned. -/
def Parting.dataBad (p : Parting) (o n : Nat) : Bool := (unitsOf o n).any fun u => Sparse.get false0 p.dmemPoison u

/-- A hart's store to data memory: the other harts' reservations of it end, its own stays (R148). -/
def State.hartStore (s : State) (d q h o n v : Nat) : State :=
  let own := (s.hart d q h).resv
  let s := s.onPart d q fun p => p.writeData o n v 0
  s.setHart d q h { s.hart d q h with resv := own }

/-! ### RV64IMAC -/

/-- A hart waits for an access outside its core's memories (R149); addresses are of 48 bits (R224). -/
def State.beginAccess (s : State) (d q h a n : Nat) (store : Option W64) (rd : Nat) (signed : Bool) : State :=
  if 2 ^ 48 ≤ a then s.hartFault d q h (if store.isSome then 7 else 5)
  else s.setHart d q h { s.hart d q h with wait := some (.access { addr := a, bytes := n, store := store, rd := rd, signed := signed, since := s.tick }) }

/-- Whether an address lies in register space, where a misaligned access is an access fault (R360). -/
def inRegisters (a : Nat) : Bool := match regionOf a with | .register => true | _ => false

/-- A load (R148, R149, R313): `next` is the hart at its next instruction. -/
def State.hartLoad (s : State) (d q h : Nat) (next : Hart) (a n rd : Nat) (signed : Bool) : State :=
  let p := s.part d q
  if a % n ≠ 0 then s.hartFault d q h (if inRegisters a then 5 else 4)
  else
    match dataOffset a n with
    | some o =>
        if p.dataBad o n then s.hartPoison d q h 5 o
        else s.setHart d q h (next.setReg rd (extendLoad n signed (p.data o n)))
    | none =>
      match codeOffset a n with
      | some o =>
          if Sparse.get false0 p.imemPoison (o / 64) then s.hartPoison d q h 5 o
          else s.setHart d q h (next.setReg rd (extendLoad n signed (p.code o n)))
      | none => s.beginAccess d q h a n none rd signed

/-- A store (R148, R149); instruction memory is written only by the loader (R147). -/
def State.hartWrite (s : State) (d q h : Nat) (next : Hart) (a n : Nat) (v : W64) : State :=
  if a % n ≠ 0 then s.hartFault d q h (if inRegisters a then 7 else 6)
  else
    match dataOffset a n with
    | some o => (s.setHart d q h next).hartStore d q h o n v.toNat
    | none => if (codeOffset a n).isSome then s.hartFault d q h 7 else s.beginAccess d q h a n (some v) 0 false

/-- An atomic operation: on data memory only (R148). -/
def State.hartAmo (s : State) (d q h : Nat) (next : Hart) (f5 : Nat) (wide : Bool) (a rd : Nat) (b : W64) : State :=
  let n := if wide then 8 else 4
  let p := s.part d q
  if a % n ≠ 0 then s.hartFault d q h ((if f5 = 2 then 4 else 6) + b2n (inRegisters a))
  else
    match dataOffset a n with
    | none => s.hartFault d q h (if f5 = 2 then 5 else 7)
    | some o =>
        let old := extendLoad n true (p.data o n)
        if f5 = 3 then
          let x := s.hart d q h
          if x.resv = some o then (s.setHart d q h { next.setReg rd 0 with resv := none }).hartStore d q h o n b.toNat
          else s.setHart d q h { next.setReg rd 1 with resv := none }
        else if p.dataBad o n then s.hartPoison d q h 5 o
        else if f5 = 2 then s.setHart d q h { next.setReg rd old with resv := some o }
        else
          let v := amoValue f5 wide old (if wide then b else sx32 b)
          (s.setHart d q h (next.setReg rd old)).hartStore d q h o n v.toNat

/-- A CSR instruction (R148): `mie` and `mip` read zero and ignore writes, `cycle` and `time` are read-only; others are illegal
(log entry 12). -/
def State.hartCsr (s : State) (d q h : Nat) (next : Hart) (f3 rd rs1 num : Nat) : State :=
  let writes := f3 % 4 == 1 || rs1 != 0
  if num = 0x304 ∨ num = 0x344 then s.setHart d q h (next.setReg rd 0)
  else if writes then s.hartFault d q h 2
  else if num = 0xC00 then s.setHart d q h (next.setReg rd (BitVec.ofNat 64 (s.quarter d q).cycle))
  else if num = 0xC01 then s.setHart d q h (next.setReg rd (BitVec.ofNat 64 s.tick))
  else s.hartFault d q h 2

/-- An instruction of `len` bytes carried out (R148). -/
def State.hartRun (s : State) (d q h : Nat) (i : Rv) (len : Nat) : State :=
  let x := s.hart d q h
  let pc := BitVec.ofNat 64 x.pc
  let next := { x with pc := x.pc + len }
  let link := BitVec.ofNat 64 (x.pc + len)
  let put (rd : Nat) (v : W64) : State := s.setHart d q h (next.setReg rd v)
  match i with
  | .lui rd imm => put rd imm
  | .auipc rd imm => put rd (pc + imm)
  | .jal rd off => s.setHart d q h { next.setReg rd link with pc := (pc + off).toNat }
  | .jalr rd rs1 off => s.setHart d q h { next.setReg rd link with pc := (x.reg rs1 + off).toNat / 2 * 2 }
  | .branch f3 rs1 rs2 off =>
      s.setHart d q h (if branchTaken f3 (x.reg rs1) (x.reg rs2) then { x with pc := (pc + off).toNat } else next)
  | .load f3 rd rs1 off => s.hartLoad d q h next (x.reg rs1 + off).toNat (accessBytes f3) rd (accessSigned f3)
  | .store f3 rs1 rs2 off => s.hartWrite d q h next (x.reg rs1 + off).toNat (accessBytes f3) (x.reg rs2)
  | .alui w f3 alt rd rs1 imm => put rd (if w then aluOp32 f3 alt (x.reg rs1) imm else aluOp f3 alt (x.reg rs1) imm)
  | .alu w f3 alt rd rs1 rs2 =>
      put rd (if w then aluOp32 f3 alt (x.reg rs1) (x.reg rs2) else aluOp f3 alt (x.reg rs1) (x.reg rs2))
  | .muldiv w f3 rd rs1 rs2 => put rd (if w then mulDiv32 f3 (x.reg rs1) (x.reg rs2) else mulDiv f3 (x.reg rs1) (x.reg rs2))
  | .amo f5 wide rd rs1 rs2 => s.hartAmo d q h next f5 wide (x.reg rs1).toNat rd (x.reg rs2)
  | .fence => s.setHart d q h next
  | .wfi => s.setHart d q h next
  | .ecall => (s.setHart d q h next).setHartState d q h 2
  | .ebreak => if s.debug d q then s.setHart d q h next else s.hartFault d q h 3
  | .csr f3 rd rs1 num => s.hartCsr d q h next f3 rd rs1 num
  | .custom .. => s.hartFault d q h 2

/-- HART_INSTRUCTION: a hart executes one RV64IMAC instruction, or stops on an exception; operations of the queue extension have
steps of their own (R148). -/
def execHartInstruction (d : Fin 8) (q h : Fin 4) (f : EngFacts) (s : State) : Out :=
  if s.hartReady d q h then
    let t := s.partErrors d q f
    match (t.part d q).fetch (t.hart d q h).pc with
    | .fault cause => .next (t.hartFault d q h cause)
    | .poison addr => .next (t.hartPoison d q h 1 addr)
    | .instr (.custom one f3 f7 rd rs1 rs2) len =>
        if (queueOp one f3 f7).isSome then .next s
        else .next (t.hartRun d q h (.custom one f3 f7 rd rs1 rs2) len)
    | .instr i len => .next (t.hartRun d q h i len)
  else .next s

/-! ### The queue extension -/

/-- Operands of an operation of the queue extension: queue of a QPUSH, destination, values of rs1 and rs2. -/
structure QArgs where
  f7 : Nat
  rd : Nat
  a : W64
  b : W64
  deriving DecidableEq, Repr

/-- The operation at a hart's pc, if it is `op`: `act` is given the state with the hart at its next instruction; none while it
stalls. -/
def State.hartOp (s : State) (d q h : Nat) (op : QOp) (act : State → QArgs → Option State) : State :=
  if s.hartReady d q h then
    let x := s.hart d q h
    match (s.part d q).fetch x.pc with
    | .instr (.custom one f3 f7 rd rs1 rs2) len =>
        if queueOp one f3 f7 = some op then
          match act (s.setHart d q h { x with pc := x.pc + len }) ⟨f7, rd, x.reg rs1, x.reg rs2⟩ with
          | some t => t
          | none => s
        else s
    | _ => s
  else s

/-- The hart goes on with a value in its destination. -/
def State.giveHart (s : State) (d q h rd : Nat) (v : W64) : State := s.setHart d q h ((s.hart d q h).setReg rd v)

/-- An exception of an operation: the faulting instruction is the operation's own. -/
def State.opFault (s : State) (d q h len cause : Nat) : State :=
  (s.setHart d q h { s.hart d q h with pc := (s.hart d q h).pc - len }).hartFault d q h cause

/-- An operation loads a poisoned word of data memory (R313). -/
def State.opPoison (s : State) (d q h len addr : Nat) : State :=
  (s.setHart d q h { s.hart d q h with pc := (s.hart d q h).pc - len }).hartPoison d q h 5 addr

/-- The offset of `n` bytes aligned to `k` at a hart address in data memory; else the exception of an access there. -/
def dataPlace (a n k : Nat) (store : Bool) : Except Nat Nat :=
  if a % k ≠ 0 then .error (if store then 6 else 4)
  else match dataOffset a n with | some o => .ok o | none => .error (if store then 7 else 5)

/-- QPUSH pushes the request that a record in data memory names, or fails at once with all ones (R180, R222), also where its block would run
past data memory, of which R222 does not speak (DESIGN CHOICE, log entry 101). -/
def State.qpush (s : State) (d q h : Nat) (x : QArgs) : Option State :=
  let c := ptCore q
  let fail := some (s.giveHart d q h x.rd (BitVec.ofInt 64 (-1)))
  match dataOffset x.a.toNat 16 with
  | none => fail
  | some o =>
      if (s.part d q).dataBad o 16 then some (s.opPoison d q h 4 o)
      else
        let w := (s.part d q).data o 16
        let units := bitsOf w 48 6 + 1
        let loc := bitsOf w 64 12
        if bitsOf w 0 6 ≠ 0 ∨ bitsOf w 54 10 ≠ 0 ∨ bitsOf w 76 52 ≠ 0 ∨ dmemBytes / 64 < loc + units then fail
        else if (s.core d c).mayPush false x.f7 then
          let (data, poison) := if 8 ≤ x.f7 then s.localBlock d c loc units else (0, 0)
          let (num, s) := s.push d c x.f7 false loc units (bitsOf w 0 48) data poison
          some (s.giveHart d q h x.rd (BitVec.ofNat 64 num))
        else none

/-- QPUSH (R150, R222). -/
def execQpush (d : Fin 8) (q h : Fin 4) (s : State) : Out := .next (s.hartOp d q h .qpush fun s x => s.qpush d q h x)

/-- QWAIT stalls until the named request of a queue has completed; a queue that does not exist gives a free value (R150,
R179). -/
def execHartQwait (d : Fin 8) (q h : Fin 4) (s : State) : Out :=
  .next (s.hartOp d q h .qwait fun s x =>
    let k := x.a.toNat
    if 12 ≤ k then
      let (v, s) := s.freeNat 64
      some (s.giveHart d q h x.rd (BitVec.ofNat 64 v))
    else
      let m := (s.core d (ptCore q)).queue k
      let s := s.setHart d q h { s.hart d q h with wait := some (.queue k (m.target (x.b.toNat % 65536)) x.rd), since := s.tick }
      some (s.serveQueueWaits d q k))

/-- TKSIG adds a count to a completion slot anywhere in the module (R150, R155). -/
def execTksig (d : Fin 8) (q h : Fin 4) (s : State) : Out :=
  .next (s.hartOp d q h .tksig fun s x =>
    let n := x.b.toNat % 65536
    if n = 0 then some (s.giveHart d q h x.rd 1)
    else some ((s.signal d q (ptCore q) (bitsOf x.a.toNat 16 3) (x.a.toNat % 65536) n).giveHart d q h x.rd 0))

/-- TKWAIT stalls until a slot of this board holds at least n, then takes n (R150, R156). -/
def execTkwait (d : Fin 8) (q h : Fin 4) (s : State) : Out :=
  .next (s.hartOp d q h .tkwait fun s x =>
    let slot := x.a.toNat % 512
    some ((s.setHart d q h { s.hart d q h with wait := some (.token slot (x.b.toNat % 65536) x.rd), since := s.tick }).serveSlot d q slot))

/-- CB.TAKE takes n from a slot if it holds at least n, after the waits of the cores and of the harts before its own (R150, R156). -/
def execCbTake (d : Fin 8) (q h : Fin 4) (s : State) : Out :=
  .next (s.hartOp d q h .cbTake fun s x =>
    let slot := x.a.toNat % 512
    let n := x.b.toNat % 65536
    let s := s.serveBefore d q slot h
    let v := s.slot d q slot
    some (if n ≤ v then (s.setSlot d q slot (v - n)).giveHart d q h x.rd 1 else s.giveHart d q h x.rd 0))

/-- CB.READ returns a slot's value (R150). -/
def execCbRead (d : Fin 8) (q h : Fin 4) (s : State) : Out :=
  .next (s.hartOp d q h .cbRead fun s x =>
    let s := s.serveSlot d q (x.a.toNat % 512)
    some (s.giveHart d q h x.rd (BitVec.ofNat 64 (s.slot d q (x.a.toNat % 512)))))

/-- CB.SET sets a slot's value and clears its source mask, after the waits on it (R150, R156, R157). -/
def execCbSet (d : Fin 8) (q h : Fin 4) (s : State) : Out :=
  .next (s.hartOp d q h .cbSet fun s x =>
    let slot := x.a.toNat % 512
    let s := (s.serveSlot d q slot).setSlot d q slot x.b.toNat
    some ((s.onPart d q fun p => { p with masks := Sparse.put nat0 p.masks slot 0 }).giveHart d q h x.rd 0))

/-- CB.MASK returns a slot's source mask and clears it if bit 0 of rs2 is set (R150, R157). -/
def execCbMask (d : Fin 8) (q h : Fin 4) (s : State) : Out :=
  .next (s.hartOp d q h .cbMask fun s x =>
    let slot := x.a.toNat % 512
    let m := Sparse.get nat0 (s.part d q).masks slot
    let s := if x.b.getLsbD 0 then s.onPart d q fun p => { p with masks := Sparse.put nat0 p.masks slot 0 } else s
    some (s.giveHart d q h x.rd (BitVec.ofNat 64 m)))

/-- CB.LOG copies one arrival-log record into data memory (R150, R158); its index counts modulo 256 (DESIGN CHOICE, log entry 102). -/
def execCbLog (d : Fin 8) (q h : Fin 4) (s : State) : Out :=
  .next (s.hartOp d q h .cbLog fun s x =>
    match dataPlace x.b.toNat 16 16 true with
    | .error e => some (s.opFault d q h 4 e)
    | .ok o => some ((s.hartStore d q h o 16 ((s.part d q).logRecord (x.a.toNat % 256))).giveHart d q h x.rd 0))

/-- SE.START starts a stream from a start record, or returns 1 if it is busy (R150, R152); the stream's number counts modulo 32
(DESIGN CHOICE, log entry 102). -/
def execSeStart (d : Fin 8) (q h : Fin 4) (s : State) : Out :=
  .next (s.hartOp d q h .seStart fun s x =>
    let t := x.a.toNat % 32
    if s.streamState d q t = 1 then some (s.giveHart d q h x.rd 1)
    else
      match dataPlace x.b.toNat 32 1 false with
      | .error e => some (s.opFault d q h 4 e)
      | .ok o =>
          if (s.part d q).dataBad o 32 then some (s.opPoison d q h 4 o)
          else some ((s.seStart d q t ((s.part d q).data o 32)).giveHart d q h x.rd 0))

/-- SE.STAT returns a stream's state and the number of its completed blocks (R150); the stream's number counts modulo 32 (DESIGN CHOICE,
log entry 102). -/
def execSeStat (d : Fin 8) (q h : Fin 4) (s : State) : Out :=
  .next (s.hartOp d q h .seStat fun s x =>
    let t := x.a.toNat % 32
    some (s.giveHart d q h x.rd (BitVec.ofNat 64 (s.streamState d q t + (s.stream d q t).completed % 65536 * 4))))

/-- A message leaves a Parting endpoint (R159 to R161): one for a reserved address or of an unknown type is refused. `WHITTLE_TX_CNT` counts
such a one, and not one whose `LEN` is bad (DESIGN CHOICE, log entry 89). -/
def State.sendMsg (s : State) (d q : Nat) (m : WMsg) : State :=
  let s := s.bump d (ptCore q) 0x160 1
  if endpointOf m.dst = .reserved then s.refuseMsg m 2
  else if m.type = 0 ∨ 4 < m.type then s.refuseMsg m 3
  else { s with whittle := s.whittle ++ [m] }

/-- WSEND sends a message from data memory and stalls until it is accepted or refused; a header with a reserved bit set or a
`LEN` above 32 is refused with reason 4 (R150, R160, R161). -/
def execWsend (d : Fin 8) (q h : Fin 4) (s : State) : Out :=
  .next (s.hartOp d q h .wsend fun s x =>
    let p := s.part d q
    match dataPlace x.a.toNat 8 8 false with
    | .error e => some (s.opFault d q h 4 e)
    | .ok o =>
        if p.dataBad o 8 then some (s.opPoison d q h 4 o)
        else
          let w := p.data o 8
          let len := bitsOf w 16 6
          let s' := s.setHart d q h { s.hart d q h with wait := some (.send x.rd s.tick) }
          let words := (List.range (min len 32)).map fun i => BitVec.ofNat 64 (p.data (o + 8 + 8 * i) 8)
          let bad := (List.range (min len 32)).foldl (fun a i => a + b2n (p.dataBad (o + 8 + 8 * i) 8) * 2 ^ i) 0
          let m : WMsg := { dst := bitsOf w 0 8, src := 4 * d + q, len := len, type := bitsOf w 24 8, arg := bitsOf w 32 16,
                            count := bitsOf w 48 16, payload := words, poison := bad, idx := ptCore q, die := d, hart := some h }
          if 32 < len ∨ bitsOf w 22 2 ≠ 0 then some (s'.refuseMsg m 4)
          else if dmemBytes < o + 8 + 8 * len then some (s.opFault d q h 4 5)
          else some (s'.sendMsg d q m))

/-- Payload words of a mailbox entry in which the read finds double-bit errors: their poison is created here (R313). -/
def State.mailErrors (s : State) (d q bad : Nat) : State :=
  match (s.part d q).mailbox with
  | m :: rest =>
      let bad := bad % 2 ^ m.len
      if bad ||| m.poison = m.poison then s
      else (s.onPart d q fun p => { p with mailbox := { m with poison := m.poison ||| bad } :: rest }).event d (ptCore q) 1 4 0 0x7F
        (ptCore q * 2 ^ 48)
  | [] => s

/-- WRECV moves the payload of the oldest mailbox entry into data memory and returns its bytes, 0 if there is none (R150); `bad` are the words
in which the mailbox has double-bit errors (R313). -/
def execWrecv (d : Fin 8) (q h : Fin 4) (bad : BitVec 32) (s : State) : Out :=
  .next (s.hartOp d q h .wrecv fun s x =>
    let s := s.mailErrors d q bad.toNat
    match (s.part d q).mailbox with
    | [] => some (s.giveHart d q h x.rd 0)
    | m :: rest =>
        match dataPlace x.a.toNat (8 * m.len) 8 true with
        | .error e => some (s.opFault d q h 4 e)
        | .ok o =>
            let s := s.onPart d q fun p => { p.writeWords o m.payload m.poison with mailbox := rest }
            some (s.giveHart d q h x.rd (BitVec.ofNat 64 (8 * m.len))))

/-- TICK returns the tick counter (R150). -/
def execTick (d : Fin 8) (q h : Fin 4) (s : State) : Out :=
  .next (s.hartOp d q h .tick fun s x => some (s.giveHart d q h x.rd (BitVec.ofNat 64 s.tick)))

end Sys2Proof.Machine
end

