-- ==== Sys2Proof/Machine/Network.lean ====
section
/-!
DEFINITION. Frames, the host rings and the collective transport (chapter 13 R330 to R340, R344, R345; R382).
-/
namespace Sys2Proof.Machine

/-! ### Host receive rings -/

/-- The management port's page. -/
def mgmtBlk : Nat := 3

/-- Offset of the base register of Headstock `hs`'s ring (Table 15.8). -/
def hrxAt (hs : Nat) : Nat := 0x140 + 0x20 * hs
/-- 64 B units of a ring, and units between tail and head. -/
def State.hrxUnits (s : State) (hs : Nat) : Nat := 64 * s.fld 24 mgmtBlk (hrxAt hs + 8) 0 18
def State.hrxUsed (s : State) (hs : Nat) : Nat :=
  let n := s.hrxUnits hs
  if n = 0 then 0 else (s.fld 24 mgmtBlk (hrxAt hs + 12) 0 24 + n - s.fld 24 mgmtBlk (hrxAt hs + 16) 0 24 % n) % n

/-- Units of the largest frame and its record (R382). -/
def hrxRoom : Nat := (9216 + 64) / 64
/-- Whether the Control station of a Headstock grants credit for a frame (R382). -/
def State.hrxOpen (s : State) (hs : Nat) : Bool := decide (s.hrxUsed hs + hrxRoom < s.hrxUnits hs)

/-- Whether a ring has room for a record and a frame of `len` bytes: of a longer frame than 9,216 B for all of it (R342, R382). -/
def State.hrxFits (s : State) (hs len : Nat) : Bool := decide (s.hrxUsed hs + max hrxRoom (1 + ceilDiv len 64) < s.hrxUnits hs)

/-- A 64 B unit written by the Headstock: as one of its requests to a Tailstock, or through the Control station of the die that owns the Heartwood
address; elsewhere there is no memory (R27, R240, R379, R382). -/
def State.hrxStore (s : State) (a data : Nat) : State :=
  match regionOf a with
  | .sapwood t =>
      s.onTail t fun x => { x with queue := x.queue ++
        [{ write := true, addr := a, units := 1, na := false, data := data, poison := 0, die := 8, via := s.tick, req := none, tag := ringLane }] }
  | .heartwood e =>
      (s.issue { id := 0, die := e, requester := ctrlWho, lane := ringLane, addr := a, units := 1, write := true, data := data, poison := 0, left := 0 }).2
  | _ => s

/-- `n` units written from the ring's head, wrapping at its end; the head moves past them (R382). -/
def State.hrxWrite (s : State) (hs : Nat) : (n data : Nat) → State
  | 0, _ => s
  | n + 1, data =>
      let size := s.hrxUnits hs
      let head := s.fld 24 mgmtBlk (hrxAt hs + 12) 0 24
      let a := s.pair 24 mgmtBlk (hrxAt hs) % 2 ^ 48 + 64 * head
      let s := s.hrxStore a (data % 2 ^ 512)
      State.hrxWrite (s.setFld 24 mgmtBlk (hrxAt hs + 12) 0 24 (if size ≤ head + 1 then 0 else head + 1)) hs n (data / 2 ^ 512)

/-- A record and its frame written into a ring (R332, R382). The places of the record's fields belong to the image: its words are
free values, and what it says stands in the record of outputs. -/
def State.hostDeliver (s : State) (d hs : Nat) (frame : Option (Nat × Nat)) (e : Emit) : State :=
  if s.hrxFits hs ((frame.map fun f => f.1).getD 0) then
    let (record, s) := s.freeNat 512
    let s := s.hrxWrite hs 1 record
    let s := match frame with
      | some (len, raw) =>
          let (pad, s) := s.freeNat 512
          let n := ceilDiv len 64
          let used := 512 - (512 * n - 8 * len)
          s.hrxWrite hs n (raw % 2 ^ (8 * len) + pad / 2 ^ used * 2 ^ (8 * len))
      | none => s
    s.emit e
  else s.bump (fpeDie d) fpeBlk 0x1D0 1

/-- The Headstock that receives a die's host frames (`FPE.HQ`). -/
def State.hostOf (s : State) (d : Nat) : Nat := s.fld (fpeDie d) fpeBlk 0x10C (d % 2) 1

/-! ### Timestamps -/

/-- PTP time of the module at a fraction of the tick, in units of 2^-16 ns (R345). -/
def State.ptpTime (s : State) (frac : Nat) : Int := (s.tick * 655360 + frac : Nat)
/-- Picoseconds in units of 2^-16 ns. -/
def psUnits (ps : Nat) : Int := (ps * 65536 / 1000 : Nat)
/-- Timestamps placed at the connector by the port's fixed delays (R345). -/
def State.rxStamp (s : State) (p frac : Nat) : Nat := (s.ptpTime frac - psUnits (s.fld (portDie p) (portBlk p) 0x128 0 16)).toNat
def State.txStamp (s : State) (p frac : Nat) : Nat := (s.ptpTime frac + psUnits (s.fld (portDie p) (portBlk p) 0x128 16 16)).toNat

/-! ### Receiving frames -/

/-- The MAC address of a port (`FPP.MAC`), and the broadcast address. -/
def State.portMac (s : State) (p : Nat) : Nat := s.pair (portDie p) (portBlk p) 0x110 % 2 ^ 48
def broadcastMac : Nat := 2 ^ 48 - 1

/-- Whether an IP destination is the die's endpoint. -/
def State.isEndpoint (s : State) (d : Nat) (dst : BitVec 128) (v4 : Bool) : Bool :=
  dst.toNat == s.endpointAddr d && v4 == s.flag (fpeDie d) fpeBlk 0x140 (d % 2)

/-- What MACsec makes of a frame (R344): dropped, past all checks to the host's rows, or on with its protection. -/
inductive SecResult where
  | drop
  | clear
  | on
  deriving DecidableEq, Repr

def noSa (_ : Nat) : Option Sa := none

/-- MACSEC_CHECK (R344): ICV, replay window, and the frames that pass unprotected. -/
def State.secCheck (s : State) (p : Nat) (f : FrameIn) : SecResult × State :=
  let z := portDie p
  let i := portBlk p
  if !s.flag z i 0x180 0 then (.on, s)
  else
    match f.sec with
    | none =>
        match f.body with
        | .eapol => (.clear, s)
        | .ptp _ => (if s.flag z i 0x180 2 then .on else .drop, s)
        | _ => (.drop, s)
    | some t =>
        match Sparse.get noSa (s.port p).rxSa (b2n t.an), t.icvOk with
        | some sa, true =>
            if t.pn + s.fld z i 0x184 0 30 < sa.pn then (.drop, s.bump z i 0x1D0 1)
            else (.on, s.onPort p fun x => { x with rxSa := Sparse.put noSa x.rxSa (b2n t.an) (some { sa with pn := max sa.pn (t.pn + 1) }) })
        | _, _ => (.drop, s.bump z i 0x1C8 1)

/-- Whether a frame came in under MACsec (R332). -/
def State.cameSecure (s : State) (p : Nat) (f : FrameIn) : Bool := s.flag (portDie p) (portBlk p) 0x180 0 && f.sec.isSome

/-- A frame for the host (R332). -/
def State.toHost (s : State) (p : Nat) (f : FrameIn) : State :=
  let d := portLathe p
  let hs := s.hostOf d
  let sum := match f.body with | .udp _ _ ok _ _ => ok | .ip _ _ ok => ok | .ptp ok => ok | _ => true
  s.hostDeliver d hs (some (f.len, f.raw))
    (.hostRecord hs p f.len (s.rxStamp p f.frac) (s.cameSecure p f) sum f.ecn 0)

/-- Room in a port's receive buffer for `n` bytes (R333). -/
def State.hasRoom (s : State) (p n : Nat) : Bool := decide (s.bufUse p + n ≤ rxBufBytes)

def State.rxDrop (s : State) (p : Nat) : State := s.bump (portDie p) (portBlk p) 0x158 1

/-- The receiving flow of a packet's sender, made if it is new. -/
def Net.rxFlow (n : Net) (x : HctIn) : RxFlow :=
  (n.rx.find? fun f => f.is x.srcRank x.srcCe).getD { rank := x.srcRank, ce := x.srcCe, me := x.dstRank }

/-- The receive window moved past PSNs received in order. -/
def slideLow : (fuel low : Nat) → List Nat → Nat × List Nat
  | 0, low, l => (low, l)
  | n + 1, low, l => if l.contains low then slideLow n (low + 1) (l.erase low) else (low, l)

/-- The PSN of a packet next to a flow's own count, of its 32 bits. -/
def fullPsn (low psn : Nat) : Int :=
  let k : Nat := (psn + 2 ^ 32 - low % 2 ^ 32) % 2 ^ 32
  (low : Int) + (if k < 2 ^ 31 then (k : Int) else (k : Int) - (2 ^ 32 : Nat))

/-- A DATA or CTRL packet taken by its receiving flow: delivered once, a duplicate dropped (R337). -/
def State.hctDeliver (s : State) (d p : Nat) (marked : Bool) (x : HctIn) : State :=
  let n := s.net d
  let f := n.rxFlow x
  let psn := fullPsn f.low x.psn
  let dup := decide (psn < f.low) || f.beyond.contains psn.toNat
  let (low, beyond) := if dup then (f.low, f.beyond) else slideLow 4096 f.low (f.beyond ++ [psn.toNat])
  let g := { f with low := low, beyond := beyond, pend := f.pend + 1, all := f.all + 1, marked := f.marked + b2n marked
                    oldest := if f.pend = 0 then s.tick else f.oldest, used := s.tick, peer := x.src }
  let s := s.setNet d { n with rx := (n.rx.filter fun y => !y.is x.srcRank x.srcCe) ++ [g] }
  if dup then s.bump (fpeDie d) fpeBlk 0x1B0 1
  else
    match x.body with
    | .data ms =>
        let e := s.engine d
        s.setEngine d { e with inbox := e.inbox ++ ms.map fun m => ⟨m, x.srcRank, x.srcCe, p⟩ }
    | .ctrl k payload => if k = 1 ∧ d = 0 then (let n := s.net d; s.setNet d { n with ctrl := n.ctrl ++ [payload] }) else s
    | .ack .. => s

/-- Bytes of an HCT packet in the receive buffer. -/
def hctSize (x : HctIn) : Nat := match x.body with | .data ms => (ms.map msgSize).sum | _ => 64

/-- Ranks that an engine knows as this module's: `MYRANK` of its open buckets and of its flows, and of engine 0 also the rank in the exchange group
(R110, R293). -/
def State.ownRanks (s : State) (d : Nat) : List Nat :=
  (s.engine d).buckets.map (fun b => bitsOf b.desc 98 12) ++ (s.net d).rx.map (fun f => f.me) ++
    (s.net d).tx.flatMap (fun f => f.unacked.map fun k => k.me) ++ (if d = 0 then [s.fld 24 0 0x1B0 4 12] else [])

/-- Whether `DST_RANK` names this module (R336; log entry 109): a rank that the engine knows, or one that the surroundings say. -/
def State.rankHere (s : State) (d : Nat) (x : HctIn) : Bool := (s.ownRanks d).contains x.dstRank || x.rankOk

/-- An HCT packet (R336): dropped and counted where it is bad, else delivered. -/
def State.hctReceive (s : State) (d p : Nat) (marked : Bool) (x : HctIn) : State :=
  let count := match x.body with | .data ms => decide (1 ≤ ms.length) && decide (ms.length ≤ 8) && x.count == ms.length | _ => true
  if x.crc != hctCrc x.hdr.toNat x.body || x.version != 1 || x.type == 3 || !s.rankHere d x || x.dstCe != d || !count then s.bump (fpeDie d) fpeBlk 0x1B8 1
  else if !s.hasRoom p (hctSize x) then s.rxDrop p
  else
    let s := if marked then s.bump (fpeDie d) fpeBlk 0x1C0 1 else s
    match x.body with
    | .ack a sack m all =>
        let n := s.net d
        (s.setNet d { n with acks := n.acks ++ [⟨x.srcRank, x.srcCe, a, sack, m, all, p⟩] }).pfcCheck p
    | _ => (s.hctDeliver d p marked x).pfcCheck p

/-- A RoCEv2 packet (R341): one with a bad ICRC, or for a queue pair that the die has not, is lost (DEDUCED, log entry 21), any other waits for its
step. -/
def State.roceReceive (s : State) (d p : Nat) (f : FrameIn) (x : RoceIn) : State :=
  if !x.icrcOk || decide (1024 ≤ x.qpn) then s
  else if !s.hasRoom p (roceSize x) then s.rxDrop p
  else
    let s := if f.marked then s.bump (fpeDie d) fpeBlk 0x1C0 1 else s
    let n := s.net d
    let k : RocePkt := { pkt := x, port := p, stamp := s.rxStamp p f.frac, sec := s.cameSecure p f, ecn := f.ecn }
    (s.setNet d { n with roce := n.roce ++ [k] }).pfcCheck p

/-- Rows 3 to 9 of Table 13.3, from row 5 on where `skip` is set (R331). -/
def State.classify (s : State) (p : Nat) (skip : Bool) (f : FrameIn) : State :=
  let z := portDie p
  let i := portBlk p
  let d := portLathe p
  match skip, f.body with
  | false, .pfc quanta =>
      let pcp := s.fld (fpeDie d) fpeBlk 0x104 22 3
      match quanta.find? fun q => q.1 == pcp with
      | some q => if s.flag z i 0x104 1 then s.onPort p fun x => { x with pfcIn := x.pfcIn ++ [q.2] } else s
      | none => s
  | _, _ =>
      let tagBad := s.flag z i 0x104 2 && f.vlan != some (s.fld z i 0x104 3 12)
      if !skip && (tagBad || (f.dst.toNat != s.portMac p && f.dst.toNat != broadcastMac)) then s.rxDrop p
      else
        match f.body with
        | .udp dst v4 sumOk port body =>
            if s.isEndpoint d dst v4 then
              if !sumOk then s.rxDrop p
              else if port = s.fld (fpeDie d) fpeBlk 0x104 0 16 then
                match body with
                | .hct x => s.hctReceive d p f.marked x
                | _ => s.bump (fpeDie d) fpeBlk 0x1B8 1
              else if port = roceUdp then
                match body with
                | .roce x => s.roceReceive d p f x
                | _ => s
              else s.toHost p f
            else s.toHost p f
        | .ip dst v4 sumOk => if s.isEndpoint d dst v4 && !sumOk then s.rxDrop p else s.toHost p f
        | _ => s.toHost p f

/-- A received frame handled by the first row of Table 13.3 that applies (R331). -/
def State.takeFrame (s : State) (p : Nat) (f : FrameIn) : State :=
  let z := portDie p
  let i := portBlk p
  if !f.fcsOk then s.bump z i 0x140 1
  else
    let s := s.bump z i 0x138 1
    match s.secCheck p f with
    | (.drop, s) => s.rxDrop p
    | (.clear, s) => s.classify p true f
    | (.on, s) => s.classify p false f

/-- A received frame with a bit flipped (R353): before the FCS is formed, so that only the checks inside can find it, and it reads as `g`; or after. -/
def corruptFrame (after : Bool) (bit : Nat) (f g : FrameIn) : FrameIn :=
  if after then { f with fcsOk := false, raw := f.raw ^^^ 2 ^ bit } else { g with fcsOk := f.fcsOk, len := f.len, raw := f.raw ^^^ 2 ^ bit, frac := f.frac }

/-- FRAME_RECEIVE: a frame reaches a port; the injection register may drop, corrupt or hold it back; else it is classified and
dropped, delivered or sent to the host (R330, R331, R353). `g` is the frame as its fields read with bit `INJ_BIT` flipped. -/
def execFrameReceive (p : Fin 104) (f g : FrameIn) (s : State) : Out :=
  let z := portDie p
  let i := portBlk p
  if !s.ceRuns || !s.linkUp p || (s.port p).ringNative || s.resetting (portLathe p) then .next s
  else
    let s := ((s.frameBoundary p).bump z i 0x148 f.fecCorrected).bump z i 0x150 f.fecFailed
    let (hit, s) := s.injectHit z i 0x200 0x208 0x20C 0x214 false f.word
    let act := s.fld z i 0x200 1 2
    let n := s.fld z i 0x200 10 4
    if hit && act == 0 then .next s
    else if hit && act == 2 && n != 0 then .next (s.onPort p fun x => { x with heldRx := x.heldRx ++ [(f, n)] })
    else
      let f := if hit && act == 1 then corruptFrame (s.flag z i 0x200 4) (s.rg z i 0x210).toNat f g else f
      let s := s.takeFrame p f
      let held := (s.port p).heldRx.map fun h => (h.1, h.2 - 1)
      let s := s.onPort p fun x => { x with heldRx := held.filter fun h => h.2 != 0 }
      .next ((held.filter fun h => h.2 == 0).foldl (fun s h => s.takeFrame p h.1) s)

/-- Ticks of a number of pause quanta of 512 bit times at 800 Gbit/s, rounded up. -/
def pauseTicks (quanta : Nat) : Nat := ceilDiv (quanta * 64) 1000

/-- PFC_FRAME: the oldest received pause of the port's priority holds its transmissions, or ends the pause (R333). -/
def execPfcFrame (p : Fin 104) (s : State) : Out :=
  let x := s.port p
  match x.pfcIn with
  | [] => .next s
  | q :: rest =>
      let s := s.setPort p { x with pfcIn := rest }
      if q = 0 then .next ((s.unpause p).pumpAll (portLathe p))
      else .next ((s.onPort p fun x => { x with pausedTo := some (s.tick + pauseTicks q) }).setFlag (portDie p) (portBlk p) 0x120 6 true)

/-! ### Host frames -/

/-- A kind-3 header's fields (Table 13.4), if it is not refused (R334). -/
def State.hostHeader (s : State) (d h : Nat) : Option (Nat × Nat × Bool × Nat) :=
  let p := bitsOf h 0 7
  let n := bitsOf h 7 14
  if bitsOf h 38 466 ≠ 0 ∨ bitsOf h 504 8 ≠ 3 ∨ !(portsOf d).contains p ∨ n < 60 ∨ s.fld (portDie p) (portBlk p) 0x108 0 14 < n then none
  else some (p, n, bitOf h 21, bitsOf h 22 16)

/-- A host frame sent by its header and bytes (R332, R345). -/
def State.sendHost (s : State) (d h frame frac : Nat) : State :=
  match s.hostHeader d h with
  | none => s.netHdrBad d
  | some (p, n, ts, tag) =>
      if !s.linkUp p || (s.port p).ringNative then s.bump (fpeDie d) fpeBlk 0x1D0 1
      else
        let s := s.sendFrame p (.host n (frame % 2 ^ (8 * n)))
        if ts && s.portSends p then
          let hs := s.hostOf d
          s.hostDeliver d hs none (.hostRecord hs p 0 (s.txStamp p frac) false true 0 tag)
        else s

/-- HOST_FRAME: a kind-3 tile sends a host frame on its egress port: one that a Headstock writes through the Control station, or the
oldest tile at the Net station (R332, R334). `frac` is the fraction of the tick at its start-of-frame delimiter. -/
def execHostFrame (d : Fin 8) (hs : Option HostTile) (frac : Nat) (s : State) : Out :=
  if !s.ceRuns then .next s
  else
    match hs with
    | some t => .next (s.sendHost d t.hdr.toNat t.frame frac)
    | none =>
        match s.netTile d with
        | none => .next s
        | some (lines, t) =>
            if netKind lines ≠ 3 then .next s
            else
              let n := lines.length - 1
              let (free, t) := t.freeNat 73728
              .next (t.sendHost d (lines.headD (0, 0)).1 (packBits 4096 ((lines.drop 1).map (·.1)) + free * 2 ^ (4096 * n)) frac)

/-! ### HCT: acknowledgement, retransmission, rate -/

/-- Whether PSN `a` lies before `b`, of 32 bits. -/
def psnBefore (a b : Nat) : Bool := decide (a % 2 ^ 32 ≠ b % 2 ^ 32) && decide ((b + 2 ^ 32 - a % 2 ^ 32) % 2 ^ 32 < 2 ^ 31)

/-- Whether an ACK reports PSN `k` received (Table 13.6). -/
def AckIn.covers (a : AckIn) (k : Nat) : Bool :=
  let j := (k + 2 ^ 32 - (a.ackPsn + 1) % 2 ^ 32) % 2 ^ 32
  psnBefore k a.ackPsn || (decide (j < 64) && bitOf a.sack j)
/-- PSNs after `k` that its `SACK` shows received. -/
def AckIn.later (a : AckIn) (k : Nat) : Nat :=
  ((List.range 64).filter fun i => bitOf a.sack i && psnBefore k (a.ackPsn + 1 + i)).length

/-- The rate after a marked ACK: max(1, b (1 − f ÷ 2)), f = marked ÷ all (R339). -/
def TxFlow.slower (f : TxFlow) (marked all now : Nat) : TxFlow :=
  let due := match f.cutAt with | some t => decide (t + 1000 ≤ now) | none => true
  let f := { f with calmFrom := now, calm := 0 }
  if !due || all = 0 then f
  else
    let num := f.rateNum * (2 * all - min marked (2 * all))
    let den := f.rateDen * (2 * all)
    if num < den then { f with rateNum := 1, rateDen := 1, cutAt := some now } else { f with rateNum := num, rateDen := den, cutAt := some now }

/-- HCT_ACK: the oldest ACK releases packets, triggers fast retransmission and lowers the rate (R337, R339). -/
def execHctAck (d : Fin 8) (s : State) : Out :=
  let n := s.net d
  match n.acks with
  | [] => .next s
  | a :: rest =>
      let s := (s.setNet d { n with acks := rest }).pfcCheck a.port
      match s.txFlow d a.rank a.ce with
      | none => .next s
      | some f =>
          let left := f.unacked.filter fun k => !a.covers k.psn
          let again := left.filter fun k => !k.fast && decide (3 ≤ a.later k.psn)
          let left := left.map fun k => if again.contains k then { k with fast := true } else k
          let s := s.onTx d a.rank a.ce fun f =>
            let f := { f with unacked := left, used := s.tick }
            if a.marked = 0 then f else f.slower a.marked a.all s.tick
          let s := again.foldl (fun s k => s.sendPkt d a.rank a.ce { k with fast := true } true) s
          .next (s.pumpAll d)

/-- HCT_ACK_SEND: a flow is acknowledged after 8 packets, or 2 µs after the oldest one (R337). -/
def execHctAckSend (d : Fin 8) (rank : Nat) (ce : Fin 8) (s : State) : Out :=
  let n := s.net d
  match n.rx.find? fun f => f.is rank ce with
  | none => .next s
  | some f =>
      if !s.ceRuns || f.pend = 0 || (decide (f.pend < 8) && decide (s.tick < f.oldest + 200)) then .next s
      else
        let sack := (List.range 64).foldl (fun m i => m + b2n (f.beyond.contains (f.low + 1 + i)) * 2 ^ i) 0
        let g := { f with pend := 0, all := 0, marked := 0, turn := f.turn + 1, used := s.tick }
        let s := (s.setNet d { n with rx := n.rx.map fun y => if y.is rank ce then g else y }).bump (fpeDie d) fpeBlk 0x1A0 1
        let ports := s.inService d
        let body : HctBody := .ack (f.low % 2 ^ 32) sack (f.marked % 65536) (f.all % 65536)
        let hdr := hctHeader 1 0 f.me d rank ce 0 + f.low % 2 ^ 32 * 2 ^ 80 + sack * 2 ^ 112 + f.marked % 65536 * 2 ^ 176 +
          f.all % 65536 * 2 ^ 192
        match ports[f.turn % max 1 ports.length]? with
        | none => .next s
        | some p => .next (s.sendFrame p (.hct f.peer (f.turn % 16) hdr body))

/-- Ticks of the first timeout (R337). -/
def hctTimeout : Nat := 5000
/-- Ticks after its first sending at which retry `j` of a packet is sent, or at which the timeout of its 8th ends at `j` = 9
(R337). -/
def retryAt (j : Nat) : Nat := hctTimeout * (2 ^ j - 1)

/-- HCT_RETRANSMIT_TIMEOUT: a packet whose timeout has expired is sent again, and its entropy value rests for 1 ms (R337, R338). -/
def execHctRetransmitTimeout (d : Fin 8) (rank : Nat) (ce : Fin 8) (s : State) : Out :=
  match s.txFlow d rank ce with
  | none => .next s
  | some f =>
      match f.unacked.find? fun k => decide (k.retries < 8) && decide (k.first + retryAt (k.retries + 1) ≤ s.tick) with
      | none => .next s
      | some k =>
          if s.ceRuns then
            let s := s.onTx d rank ce fun f => { f with resting := Sparse.put (fun _ => 0) f.resting k.entropy (s.tick + 100000) }
            .next (s.sendPkt d rank ce { k with retries := k.retries + 1 } true)
          else .next s

/-- FLOW_FATAL: a packet is still unacknowledged when the timeout of its 8th retry expires (R340, R413). -/
def execFlowFatal (d : Fin 8) (rank : Nat) (ce : Fin 8) (s : State) : Out :=
  match s.txFlow d rank ce with
  | none => .next s
  | some f =>
      if s.ceRuns && f.unacked.any fun k => k.retries == 8 && decide (k.first + retryAt 9 ≤ s.tick) then
        let s := s.onTx d rank ce fun f => { f with unacked := [], waiting := [] }
        .next ((s.errBit (fpeDie d) fpeBlk 0).event (fpeDie d) fpeBlk 2 6 1 0 (rank % 4096 + ce.val * 2 ^ 12))
      else .next s

/-- FLOW_EVICT: a flow idle for 100 ms leaves its table (R337). -/
def execFlowEvict (d : Fin 8) (rank : Nat) (ce : Fin 8) (s : State) : Out :=
  let n := s.net d
  let idle (t : Nat) : Bool := decide (t + 10000000 ≤ s.tick)
  let tx := n.tx.filter fun f => !(f.is rank ce && f.unacked.isEmpty && f.waiting.isEmpty && idle f.used)
  let rx := n.rx.filter fun f => !(f.is rank ce && f.pend == 0 && idle f.used)
  if tx.length = n.tx.length ∧ rx.length = n.rx.length then .next s
  else
    let s := (s.setNet d { n with tx := tx, rx := rx }).bump (fpeDie d) fpeBlk 0x1D8 1
    match tx[flowTable - 1]? with
    | some _ => .next (if tx.length < n.tx.length then s.pumpAll d else s)
    | none => .next s

/-- Gbit/s that a rate limit never passes (R339). -/
def rateCeiling : Nat := 1300

/-- CC_INCREASE: 10 µs without a marked ACK raise the flow's rate limit (R339). -/
def execCcIncrease (d : Fin 8) (rank : Nat) (ce : Fin 8) (s : State) : Out :=
  match s.txFlow d rank ce with
  | none => .next s
  | some f =>
      if f.calmFrom + 1000 ≤ s.tick then
        let step := s.fld (fpeDie d) fpeBlk 0x108 11 8 * (if 5 ≤ f.calm then 4 else 1)
        let num := f.rateNum + step * f.rateDen
        .next (s.onTx d rank ce fun f =>
          if rateCeiling * f.rateDen < num then { f with calmFrom := f.calmFrom + 1000, calm := f.calm + 1, rateNum := rateCeiling, rateDen := 1 }
          else { f with calmFrom := f.calmFrom + 1000, calm := f.calm + 1, rateNum := num })
      else .next s

end Sys2Proof.Machine
end

