-- ==== Sys2Proof/Machine/Roce.lean ====
section
/-!
DEFINITION. RoCEv2: queue pairs, remote requests, windows, and the tables of the Faceplate engines (chapter 13 R334, R341 to R343, R355).
-/
namespace Sys2Proof.Machine

/-! ### Tables and queue pairs -/

def State.table (s : State) (e t i : Nat) : Nat := Sparse.get nat0 s.tables (2 ^ 16 * e + 2 ^ 13 * t + i)
def State.setTable (s : State) (e t i v : Nat) : State := { s with tables := Sparse.put nat0 s.tables (2 ^ 16 * e + 2 ^ 13 * t + i) v }

/-- A queue pair's context: its table is 2 for the A die and 3 for the B die (Table 13.11). -/
def State.qpCtx (s : State) (d q : Nat) : Nat := s.table (d / 2) (2 + d % 2) q
def State.qp (s : State) (d q : Nat) : Qp := Sparse.get Qp.initial s.qps (1024 * d + q)
def State.setQp (s : State) (d q : Nat) (x : Qp) : State := { s with qps := Sparse.put Qp.initial s.qps (1024 * d + q) x }

/-- Fields of a context (R355). -/
def ctxReady (c : Nat) : Bool := bitsOf c 0 2 == 1
def ctxHost (c : Nat) : Bool := bitOf c 2
def ctxMtu (c : Nat) : Nat := 128 * 2 ^ bitsOf c 4 4
def ctxRetries (c : Nat) : Nat := bitsOf c 8 3
def ctxT (c : Nat) : Nat := bitsOf c 11 5
def ctxPeer (c : Nat) : Nat := bitsOf c 16 24
def ctxKey (c : Nat) : Nat := bitsOf c 104 32
/-- How a context's frames are addressed (R355): peer address, then IPv4, then UDP source port. -/
def ctxTo (c : Nat) : Nat := bitsOf c 136 128 + b2n (bitOf c 3) * 2 ^ 128 + bitsOf c 88 16 * 2 ^ 129

/-- The port that a queue pair sends on: chosen at enable as QPN mod u, and again when it has gone down (R341). -/
def State.choosePort (s : State) (d q : Nat) : State :=
  let ports := s.inService d
  s.setQp d q { s.qp d q with port := ports[q % max 1 ports.length]? }
def State.keepPort (s : State) (d q : Nat) : State :=
  match (s.qp d q).port with
  | some p => if s.linkUp p && !(s.port p).ringNative then s else s.choosePort d q
  | none => s.choosePort d q

/-- A packet of a queue pair sent on its port (R341). -/
def State.qpSend (s : State) (d q : Nat) (b : TxBody) : State :=
  let s := s.keepPort d q
  match (s.qp d q).port with
  | some p => s.sendFrame p b
  | none => s

/-! ### Answers to requesters -/

/-- A reply tile of the Net station (R334): its data, or one transfer whose contents the spec does not give; `REQ_TAG` stands in
`TILE_ID`. -/
def State.netReply (s : State) (d st : Nat) (dir : Bool) (tag : Nat) (data : Option (Nat × Nat × Nat)) : State :=
  let (line, s) := s.freeNat 14
  let (pad, s) := s.freeNat 4096
  let ls := match data with
    | some (n, v, p) => (List.range (ceilDiv n 512)).map fun i =>
        let used := min 512 (n - 512 * i)
        (v / 2 ^ (4096 * i) % 2 ^ (8 * used) + pad / 2 ^ (8 * used) * 2 ^ (8 * used), p / 2 ^ (8 * i) % 2 ^ 8)
    | none => [(pad, 0)]
  (s.post d netStation linkKey (ringTile netStation st dir false line tag none (fun i => i) ls)).flushMsgs d netStation

/-- A request is answered: with its data, or in failure (R152, R244, R334). -/
def State.roceAnswer (s : State) (d : Nat) (r : QpReq) (failed : Bool) : State :=
  match r.owner with
  | .remote id =>
      { s with remotes := s.remotes.map fun (x : RemoteReq) => if x.id = id then
          { x with done := true, failed := failed, data := if r.op = 0 then r.data else x.data
                   poison := if r.op = 0 then r.bad else x.poison } else x }
  | .tile st dir tag => s.netReply d st dir tag (if r.op = 0 && !failed then some (r.bytes, r.data, r.bad) else none)

/-- A queue pair enters the error state: its requests fail (R343). -/
def State.qpError (s : State) (d q : Nat) : State :=
  let x := s.qp d q
  let s := (s.setTable (d / 2) (2 + d % 2) q (withBits (s.qpCtx d q) 0 2 2)).setQp d q { x with work := [] }
  x.work.foldl (fun s r => s.roceAnswer d r true) s

/-! ### Requests -/

/-- The frames of a request (R341): a READ in one, a WRITE or SEND in packets of the path MTU. -/
def requestFrames (c : Nat) (r : QpReq) : List TxBody :=
  if r.op = 0 then [.roce (ctxTo c) (ctxPeer c) (r.psn % 2 ^ 24) 0 (ctxKey c) r.addr r.bytes 0 0 r.bucket]
  else
    let m := ctxMtu c
    (List.range r.count).map fun i =>
      let n := min m (r.bytes - m * i)
      .roce (ctxTo c) (ctxPeer c) ((r.psn + i) % 2 ^ 24) r.op (ctxKey c) (r.addr + m * i) n (r.data / 2 ^ (8 * m * i) % 2 ^ (8 * n))
        (r.bad / 2 ^ (m * i / 64) % 2 ^ ceilDiv n 64) r.bucket

/-- A request handed to a queue pair, or failed where the queue pair accepts none (R341, R343). -/
def State.roceIssue (s : State) (d q : Nat) (r : QpReq) : State :=
  let c := s.qpCtx d q
  if !ctxReady c || (r.op == 2 && !ctxHost c) then s.roceAnswer d r true
  else
    let x := s.qp d q
    let n := max 1 (ceilDiv r.bytes (ctxMtu c))
    let r := { r with psn := x.sendPsn, count := n }
    let s := s.setQp d q { x with sendPsn := (x.sendPsn + n) % 2 ^ 24, work := x.work ++ [r]
                                  since := if x.work.isEmpty then s.tick else x.since
                                  retries := if x.work.isEmpty then 0 else x.retries }
    (requestFrames c r).foldl (fun s b => s.qpSend d q b) s

/-- The queue pair of a rank in the die's rank-to-QP table (R342, Table 13.11). -/
def State.qpOfRank (s : State) (d rank : Nat) : Option Nat :=
  let row := s.table (d / 2) (4 + d % 2) (rank / 16)
  let e := bitsOf row (32 * (rank % 16)) 32
  if bitOf e 15 then some (bitsOf e 0 10) else none

/-- A request for a rank's queue pair, or for the one named. -/
def State.roceRoute (s : State) (d : Nat) (q : Option Nat) (r : QpReq) : State :=
  match q with
  | some q => s.roceIssue d q r
  | none => s.roceAnswer d r true

/-- Whether a kind-1 header is refused (R334, Table 13.4). -/
def requestBad (h : Nat) : Bool :=
  let op := bitsOf h 0 2
  let a := bitsOf h 2 48
  bitsOf h 63 1 != 0 || bitsOf h 86 10 != 0 || bitsOf h 112 392 != 0 || op == 3 || a % 64 != 0 || (op == 2 && a != 0)

/-- The request of a kind-1 tile, with its queue pair where the header names one (R334). -/
def tileRequest (lines : List (Nat × Nat)) (free : Nat) : QpReq :=
  let h := (lines.headD (0, 0)).1
  let bytes := 64 * (bitsOf h 50 6 + 1)
  let ls := lines.drop 1
  { owner := .tile (bitsOf h 56 5) (bitOf h 61) (bitsOf h 96 16), rank := bitsOf h 64 12, op := bitsOf h 0 2, addr := bitsOf h 2 48
    bytes := bytes
    data := if bitsOf h 0 2 = 0 then 0 else (packBits 4096 (ls.map (·.1)) + free * 2 ^ (4096 * ls.length)) % 2 ^ (8 * bytes)
    bad := if bitsOf h 0 2 = 0 then 0 else packBits 8 (ls.map (·.2)) % 2 ^ (bytes / 64)
    psn := 0, count := 0 }

/-- REMOTE_REQUEST: the oldest tile at the Net station, if it is of kind 1 or of no kind, else the oldest block that a stream has
handed to the network, becomes a request on a queue pair (R243, R334, R342). -/
def execRemoteRequest (d : Fin 8) (s : State) : Out :=
  if !s.ceRuns then .next s
  else
    let block : Out :=
      match s.remotes.find? fun r => r.die == d.val && !r.sent with
      | none => .next s
      | some r =>
          let s := { s with remotes := s.remotes.map fun (x : RemoteReq) => if x.id = r.id then { x with sent := true } else x }
          let q : QpReq := { owner := .remote r.id, rank := r.rank, op := if r.write then 1 else 0, addr := r.addr, bytes := r.bytes
                             data := if r.write then r.data else 0, bad := if r.write then r.poison else 0, psn := 0, count := 0, bucket := r.bucket }
          .next (s.roceRoute d (s.qpOfRank d r.rank) q)
    match s.netTile d with
    | none => block
    | some (lines, t) =>
        let k := netKind lines
        if k = 1 then
          let (free, t) := t.freeNat 32768
          let h := (lines.headD (0, 0)).1
          let q := tileRequest lines free
          if requestBad h then .next ((t.netHdrBad d).roceAnswer d { q with op := 1 } true)
          else .next (t.roceRoute d (if bitOf h 62 then some (bitsOf h 76 10) else t.qpOfRank d q.rank) q)
        else if 4 ≤ k then .next (t.netHdrBad d)
        else block

/-! ### Responses -/

/-- Requests in front that a positive acknowledgement of PSN `k` completes: WRITEs and SENDs up to it, not past a READ. -/
def ackedBy (k : Nat) : List QpReq → List QpReq
  | [] => []
  | r :: l => if r.op ≠ 0 ∧ (k + 2 ^ 24 - (r.psn + r.count - 1) % 2 ^ 24) % 2 ^ 24 < 2 ^ 23 then r :: ackedBy k l else []

/-- A positive acknowledgement, or a packet of a READ response (R334, R342). -/
def State.roceDone (s : State) (d q psn data bad : Nat) : State :=
  let x := s.qp d q
  let m := ctxMtu (s.qpCtx d q)
  match x.work with
  | [] => s
  | r :: rest =>
      if r.op = 0 then
        if psn = (r.psn + r.got) % 2 ^ 24 then
          let r := { r with data := r.data + data % 2 ^ (8 * m) * 2 ^ (8 * m * r.got), bad := r.bad + bad % 2 ^ ceilDiv m 64 * 2 ^ (m * r.got / 64), got := r.got + 1 }
          if r.got = r.count then (s.setQp d q { x with work := rest, since := s.tick, retries := 0 }).roceAnswer d r false
          else s.setQp d q { x with work := r :: rest, since := s.tick, retries := 0 }
        else s
      else
        let done := ackedBy psn x.work
        if done = [] then s
        else
          let s := s.setQp d q { x with work := x.work.drop done.length, since := s.tick, retries := 0 }
          done.foldl (fun s r => s.roceAnswer d r false) s

/-- Every request of a queue pair sent again. -/
def State.qpResend (s : State) (d q : Nat) : State :=
  let work := (s.qp d q).work.map fun r => if r.op = 0 then { r with got := 0, data := 0, bad := 0 } else r
  let s := s.setQp d q { s.qp d q with work := work, since := s.tick }
  work.foldl (fun s r => (requestFrames (s.qpCtx d q) r).foldl (fun s b => s.qpSend d q b) s) s

/-- Whether a packet asks, and does not answer. -/
def roceAsks : RoceBody → Bool
  | .done .. => false
  | .nak _ => false
  | _ => true

/-- The packets of a list that no earlier packet of their queue pair and direction stands before (R341). -/
def roceFronts (l : List RocePkt) : List RocePkt :=
  l.zipIdx.filterMap fun x =>
    if (l.take x.2).any fun y => y.pkt.qpn % 1024 == x.1.pkt.qpn % 1024 && roceAsks y.pkt.body == roceAsks x.1.pkt.body then none else some x.1

/-- A packet of a kind taken from a die's waiting RoCEv2 packets, in the order of each queue pair. -/
def State.takeRoce (s : State) (d : Nat) (is : RoceBody → Bool) : Option (RocePkt × State) :=
  let n := s.net d
  match (roceFronts n.roce).find? fun x => is x.pkt.body with
  | none => none
  | some x => some (x, (s.setNet d { n with roce := n.roce.erase x }).pfcCheck x.port)

/-- ROCE_RESPONSE: the oldest response answers its requester, or fails the request it refuses (R334, R343, R244). -/
def execRoceResponse (d : Fin 8) (s : State) : Out :=
  if !s.ceRuns then .next s
  else
    match s.takeRoce d fun b => match b with | .done .. => true | .nak _ => true | _ => false with
    | none => .next s
    | some (x, s) =>
        let q := x.pkt.qpn % 1024
        if !ctxReady (s.qpCtx d q) then .next s
        else
          match x.pkt.body with
          | .done data bad => .next (s.roceDone d q x.pkt.psn data bad)
          | .nak 0 => .next (s.qpResend d q)
          | .nak 4 => .next (s.setQp d q { s.qp d q with since := s.tick })
          | _ => .next (s.qpError d q)

/-- ROCE_ACK_TIMEOUT: a request unanswered for 4.096 µs × 2^t is tried again; with its retries exhausted the queue pair is in
error (R342, R343). -/
def execRoceAckTimeout (d : Fin 8) (q : Fin 1024) (s : State) : Out :=
  let c := s.qpCtx d q
  let x := s.qp d q
  match x.work with
  | [] => .next s
  | r :: _ =>
      if !s.ceRuns || !ctxReady c || decide (10 * (s.tick - x.since) < 4096 * 2 ^ ctxT c) then .next s
      else if x.retries < ctxRetries c then
        .next ((s.setQp d q { x with retries := x.retries + 1 }).qpResend d q)
      else
        let port := match x.port with | some p => p | none => 0
        .next (((s.errBit (fpeDie d) fpeBlk 1).event (fpeDie d) fpeBlk 2 6 1 1 (r.rank % 4096 + q.val * 2 ^ 15 + port % 128 * 2 ^ 25)).qpError d q)

/-! ### Incoming requests -/

/-- A packet of a queue pair to its peer: operation, PSN, and what it carries (R341, R342). -/
def State.toPeer (s : State) (d q psn op at_ len data bad : Nat) : State :=
  let c := s.qpCtx d q
  s.qpSend d q (.roce (ctxTo c) (ctxPeer c) (psn % 2 ^ 24) op 0 at_ len data bad)

/-- An answer sent: a READ response in packets of `mtu` bytes, or an ACK or NAK (R341, R342). -/
def State.sendAnswer (s : State) (d : Nat) (j : PeerJob) (x : SpanData) : State :=
  if j.code = 4 then
    (List.range (ceilDiv j.span.bytes j.mtu)).foldl (fun s i =>
      let len := min j.mtu (j.span.bytes - j.mtu * i)
      s.toPeer d j.qp (j.psn + i) 4 (j.span.addr + j.mtu * i) len (x.data / 2 ^ (8 * j.mtu * i) % 2 ^ (8 * len))
        (x.poison / 2 ^ ((j.span.addr + j.mtu * i) / 64 - j.span.addr / 64) % 2 ^ ((j.span.addr + j.mtu * i + len - 1) / 64 - (j.span.addr + j.mtu * i) / 64 + 1))) s
  else s.toPeer d j.qp j.psn j.code 0 0 0 0

/-- The answers of a die's queue pairs that may leave: each queue pair's in the order of its requests, once what they wait for has been served (R342). -/
def State.peerReady (s : State) : (seen : List Nat) → List PeerJob → Option PeerJob
  | _, [] => none
  | seen, j :: l => if !seen.contains j.qp && s.spanDone j.span then some j else State.peerReady s (j.qp :: seen) l

/-- Answers leave (R342). -/
def State.peerAdvance (s : State) (d : Nat) : (fuel : Nat) → State
  | 0 => s
  | fuel + 1 =>
      match s.peerReady [] (s.net d).jobs with
      | none => s
      | some j =>
          let (x, s) := (s.setNet d { s.net d with jobs := (s.net d).jobs.erase j }).takeSpan j.span
          State.peerAdvance (s.sendAnswer d j x) d fuel
def State.peerSettle (s : State) (d : Nat) : State := if s.ceRuns then s.peerAdvance d (s.net d).jobs.length else s

/-- Answers that waited for memory leave at a tick edge. -/
def State.peerTick (s : State) : State := (List.range 8).foldl (fun s d => if (s.net d).jobs.isEmpty then s else s.peerSettle d) s

/-- An answer behind those of its queue pair's earlier requests (R342). -/
def State.peerAnswer (s : State) (d : Nat) (j : PeerJob) : State :=
  (s.setNet d { s.net d with jobs := (s.net d).jobs ++ [j] }).peerSettle d

/-- Requests of peers to the die's memory: of requester 32, the Net station's, in a queue of their own (R229, R342). -/
def peerReq (d : Nat) (write : Bool) (data poison : Nat) : MemReq := { ceReq d write data poison with lane := 1 }

/-- A NAK sent and counted (R341, R343). -/
def State.sendNak (s : State) (d q psn code : Nat) : State :=
  (s.bump (fpeDie d) fpeBlk 0x1C8 1).peerAnswer d { qp := q, span := {}, psn := psn, code := 8 + code }

/-- How an incoming request's PSN stands (R342): expected, seen before, or beyond a gap. -/
inductive PsnPlace where
  | next
  | again
  | gap
  deriving DecidableEq, Repr
def psnPlace (expect psn : Nat) : PsnPlace :=
  let k := (psn + 2 ^ 24 - expect % 2 ^ 24) % 2 ^ 24
  if k = 0 then .next else if k < 2 ^ 23 then .gap else .again

/-- Whether one of the die's windows grants an access, in memory that exists (R342, Table 13.7). -/
def State.granted (s : State) (d a n : Nat) (write : Bool) : Bool :=
  let mapped := match regionOf a, regionOf (a + n - 1) with
    | .heartwood _, .heartwood _ => true
    | .sapwood _, .sapwood _ => true
    | _, _ => false
  mapped && (List.range 64).any fun i =>
    let w := s.table (d / 2) (d % 2) i
    bitOf w 90 && bitOf w (if write then 89 else 88) && decide (bitsOf w 0 48 ≤ a) && decide (a + n ≤ bitsOf w 0 48 + bitsOf w 48 40)

/-- The key required of a die's incoming requests (`FPE.RKEY`). -/
def State.roceKey (s : State) (d : Nat) : W32 := s.rg (fpeDie d) fpeBlk (0x148 + 4 * (d % 2))

/-- A remote-access NAK: the queue pair enters the error state (R343). -/
def State.refuseAccess (s : State) (d q psn : Nat) : State := (s.sendNak d q psn 2).qpError d q

/-- Expected PSN of a queue pair moved past `n` packets. -/
def State.expectPsn (s : State) (d q n : Nat) : State :=
  let x := s.qp d q
  s.setQp d q { x with recvPsn := (x.recvPsn + n) % 2 ^ 24 }

/-- The next incoming request of a kind, or of an operation that is not implemented, in its PSN order (R341, R342). -/
def State.onRequest (s : State) (d : Nat) (is : RoceBody → Bool) (act : State → (q psn : Nat) → (first : Bool) → RocePkt → State) : Out :=
  if !s.ceRuns then .next s
  else
    match s.takeRoce d fun b => is b || b == .other with
    | none => .next s
    | some (x, s) =>
        let q := x.pkt.qpn % 1024
        if !ctxReady (s.qpCtx d q) then .next s
        else
          match x.pkt.body, psnPlace (s.qp d q).recvPsn x.pkt.psn with
          | _, .gap => .next (s.sendNak d q (s.qp d q).recvPsn 0)
          | .other, .again => .next s
          | .other, .next => .next ((s.expectPsn d q 1).sendNak d q x.pkt.psn 1)
          | _, .next => .next (act s q x.pkt.psn true x)
          | _, .again => .next (act s q x.pkt.psn false x)

/-- ROCE_READ_REQUEST: an incoming READ is checked against key and windows, read, and answered with its data (R30, R342, R343). -/
def execRoceReadRequest (d : Fin 8) (s : State) : Out :=
  s.onRequest d (fun b => match b with | .read .. => true | _ => false) fun s q psn first x =>
    match x.pkt.body with
    | .read key a n =>
        if key ≠ s.roceKey d ∨ n = 0 ∨ s.granted d a n false = false then s.refuseAccess d q psn
        else
          let m := ctxMtu (s.qpCtx d q)
          let s := if first then s.expectPsn d q (ceilDiv n m) else s
          let (x, s) := s.ask (peerReq d false 0 0) a n
          s.peerAnswer d { qp := q, span := x, psn := psn, code := 4, mtu := m }
    | _ => s

/-- ROCE_WRITE_REQUEST: an incoming WRITE is checked, stored, and acknowledged after its stores (R178, R342, R343). -/
def execRoceWriteRequest (d : Fin 8) (s : State) : Out :=
  s.onRequest d (fun b => match b with | .write .. => true | _ => false) fun s q psn first x =>
    match x.pkt.body with
    | .write key a n data bad =>
        if key ≠ s.roceKey d ∨ n = 0 ∨ s.granted d a n true = false then s.refuseAccess d q psn
        else
          let k := ceilDiv n (ctxMtu (s.qpCtx d q))
          let (x, s) := if first then (s.expectPsn d q k).ask (peerReq d true (data % 2 ^ (8 * n)) bad) a n else ({}, s)
          s.peerAnswer d { qp := q, span := x, psn := psn + k - 1, code := 3 }
    | _ => s

/-- ROCE_SEND_REQUEST: an incoming SEND goes to the host ring on a host-owned queue pair; without room it is answered with an RNR
NAK (R342). -/
def execRoceSendRequest (d : Fin 8) (s : State) : Out :=
  s.onRequest d (fun b => match b with | .send .. => true | _ => false) fun s q psn first x =>
    match x.pkt.body with
    | .send n data =>
        let c := s.qpCtx d q
        let hs := s.hostOf d
        let k := max 1 (ceilDiv n (ctxMtu c))
        let ack (s : State) : State := s.peerAnswer d { qp := q, span := {}, psn := psn + k - 1, code := 3 }
        if !ctxHost c then (s.expectPsn d q k).sendNak d q psn 1
        else if !first then ack s
        else if !s.hrxFits hs n then s.sendNak d q psn 4
        else
          let s := s.expectPsn d q k
          ack (s.hostDeliver d hs (some (n, data)) (.hostRecord hs x.port n x.stamp x.sec true x.ecn 0))
    | _ => s

/-! ### FPE.TBL -/

/-- Entries of a table (R342, R355). -/
def tableSize (t : Nat) : Nat := if t < 2 then 64 else if t < 4 then 1024 else if t < 6 then 256 else 0
/-- Table and entry that `FPE.TBL_SEL` names, if they exist. -/
def State.tblSel (s : State) (e : Nat) : Option (Nat × Nat) :=
  let t := s.fld (28 + e) fpeBlk 0x150 0 3
  let i := s.fld (28 + e) fpeBlk 0x150 3 13
  if i < tableSize t then some (t, i) else none

/-- A window entry as it is stored: `VALID` stays 0 where it overlaps the carve-out (R342). -/
def State.windowEntry (s : State) (w : Nat) : Nat :=
  let a := bitsOf w 0 48
  if a < sapEnd ∧ s.carveBase < a + bitsOf w 48 40 then withBits w 90 1 0 else w

/-- The fields of an entry, whose other bits are zero: windows (Table 13.7), contexts (R355) and the rank table's rows (Table 13.11). -/
def entryKept (t w : Nat) : Nat :=
  if t < 2 then w % 2 ^ 91
  else if t < 4 then w % 2 ^ 264
  else packBits 32 ((List.range 16).map fun j => bitsOf w (32 * j) 10 + b2n (bitOf w (32 * j + 15)) * 2 ^ 15)

/-- A queue pair takes a context: requests of the one before fail, and a ready one takes its port and its PSNs (R341, R342). -/
def State.enableQp (s : State) (d q c : Nat) : State :=
  let old := (s.qp d q).work
  let s := (s.setQp d q { sendPsn := bitsOf c 40 24, recvPsn := bitsOf c 64 24 }).setNet d
    { s.net d with jobs := (s.net d).jobs.filter fun j => j.qp != q }
  let s := if ctxReady c then s.choosePort d q else s
  old.foldl (fun s r => s.roceAnswer d r true) s

/-- A write of `FPE.TBL_SEL`: the data registers show the selected entry (Table 13.11). -/
def State.wTblSel (s : State) (e : Nat) (v : W32) : State :=
  let s := s.writeAcc (28 + e) fpeBlk 0x150 v
  match s.tblSel e with
  | none => s
  | some (t, i) => (List.range 16).foldl (fun s j => s.setRg (28 + e) fpeBlk (0x160 + 4 * j) (BitVec.ofNat 32 (s.table e t i / 2 ^ (32 * j)))) s

/-- A write of `FPE.TBL_DATA15`: the selected entry is stored at once (R355). -/
def State.wTblData15 (s : State) (e : Nat) (v : W32) : State :=
  let s := s.writeAcc (28 + e) fpeBlk 0x19C v
  let w := packBits 32 ((List.range 16).map fun j => (s.rg (28 + e) fpeBlk (0x160 + 4 * j)).toNat)
  match s.tblSel e with
  | none => s
  | some (t, i) =>
      let w := entryKept t w
      let s := s.setTable e t i (if t < 2 then s.windowEntry w else w)
      if t = 2 ∨ t = 3 then s.enableQp (2 * e + t - 2) i w else s

/-- TBL_STORE: a write of `FPE.TBL_DATA15` stores the selected window, queue pair or rank-table entry (R342, R355). -/
def execTblStore (e : Fin 4) (v : W32) (s : State) : Out := .next (if s.inReset then s else s.wTblData15 e v)

end Sys2Proof.Machine
end

