-- ==== Sys2Proof/Machine/Links.lean ====
section
/-!
DEFINITION. Lasers, ports, bypass pairs, ring-native framing, package links and deliberate faults (chapter 13 R326 to R328, R344,
R346 to R351, R353; R321, R357, R425, R438).
-/
namespace Sys2Proof.Machine

/-! ### Bypass pairs -/

/-- Die, block index, ports and West Lathe die of bypass pair `n` = 2e + j (Table 14.1, R346). -/
def pairDie (n : Nat) : Nat := 28 + n / 2
def pairBlk (n : Nat) : Nat := 0x28 + n % 2
def pairPorts (n : Nat) : List Nat := [26 * (n / 2) + 2 * (n % 2), 26 * (n / 2) + 2 * (n % 2) + 1]
def pairLathe (n : Nat) : Nat := 2 * (n / 2)
/-- The pair of a bypass port. -/
def pairOf (p : Nat) : Nat := 2 * (p / 26) + p % 26 / 2

/-- Bit `k` of a bay's state in `FPE.LASER`: 0 present, 1 ready, 2 fault, 3 low power; bay d feeds the 13 ports of Lathe die d
(Table 13.1). -/
def State.bayBit (s : State) (d k : Nat) : Bool := s.flag (fpeDie d) fpeBlk 0x100 (8 * (d % 2) + k)
def State.setBay (s : State) (d v : Nat) : State :=
  s.setFld (fpeDie d) fpeBlk 0x100 (8 * (d % 2)) 4 (v + 8 * (Sparse.get nat0 s.bays d / 4 % 2))

/-- Whether a pair may be open (R346, R347, R425). -/
def State.mayOpen (s : State) (n : Nat) : Bool :=
  s.run == .ready && s.bayBit (pairLathe n) 1 && !s.latchOpen && !s.resetting (pairLathe n)

/-- A pair's element begins to close (R346). -/
def State.closePair (s : State) (n : Nat) : State :=
  if s.flag (pairDie n) (pairBlk n) 0x108 0 then s else s.setFlag (pairDie n) (pairBlk n) 0x108 1 true

/-- A write of `BYP.CTRL` (R346, R347, R356): a pair opens where it may, and closes when `OPEN` is written 0. -/
def State.wBypCtrl (s : State) (n : Nat) (v : W32) : State :=
  let s := s.writeAcc (pairDie n) (pairBlk n) 0x104 v
  if v.getLsbD 0 then
    (if s.mayOpen n && s.flag (pairDie n) (pairBlk n) 0x108 0 then s.setFlag (pairDie n) (pairBlk n) 0x108 1 true else s)
  else s.closePair n

/-- `BYP.CTRL` as a read-modify-write of `OPEN` writes it: a staged `NATIVE` is kept. -/
def State.bypCtrl (s : State) (n : Nat) (open_ : Bool) : W32 :=
  BitVec.ofNat 32 (withBits (s.stagedOr (pairDie n) (pairBlk n) 0x104).toNat 0 1 (b2n open_))

/-- BYPASS_OPEN: `BYP.CTRL.OPEN` written 1 opens the pair while the module is Ready and bay 2e is ready (R347). -/
def execBypassOpen (n : Fin 8) (s : State) : Out := .next (if s.inReset then s else s.wBypCtrl n (s.bypCtrl n true))
/-- BYPASS_CLOSE: `BYP.CTRL.OPEN` written 0 closes the element (R346). -/
def execBypassClose (n : Fin 8) (s : State) : Out := .next (if s.inReset then s else s.wBypCtrl n (s.bypCtrl n false))

/-! ### Ports up and down -/

/-- Queue pairs of a die that send on a port choose again (R341). -/
def State.rechoose (s : State) (p : Nat) : State :=
  let d := portLathe p
  (s.qps.filter fun c => c.1 / 1024 == d && c.2.port == some p).foldl (fun s c => s.choosePort d (c.1 % 1024)) s

/-- A port goes down: the frames in its transmit queue are lost (R338, R341). -/
def State.portDown (s : State) (p : Nat) (dark : Bool) : State :=
  let z := portDie p
  let i := portBlk p
  let up := s.flag z i 0x120 0
  let s := ((s.setFlag z i 0x120 0 false).setFlag z i 0x120 1 (dark || s.flag z i 0x120 1)).setFlag z i 0x120 6 false
  let s := s.onPort p fun x => { x with txq := [], pausedTo := none, heldRx := [], heldTx := [], heldBlocksRx := [], heldBlocksTx := [], replayDue := false }
  let s := if isBypass p then s.setFlag z (bypBlk p) 0x108 2 false else s
  if up then (s.bump z i 0x160 1).rechoose p else s

/-- LINK_DOWN: loss of light or of the far end takes a port down; `LF_RX` and `RF_RX` show fault ordered sets that it receives (R330,
R338, R341, R347). -/
def execLinkDown (p : Fin 104) (k : LinkLoss) (s : State) : Out :=
  if !s.powered then .next s
  else
    match k with
    | .light => .next (s.portDown p true)
    | .farEnd => .next (s.portDown p false)
    | .faults l r => .next ((s.setFlag (portDie p) (portBlk p) 0x120 2 l).setFlag (portDie p) (portBlk p) 0x120 3 r)

/-- BYPASS_ELEMENT_SWITCHED: an element finishes moving: open if its pair may be and is to be open, else closed; the light that its
ports see changes (R346, R347). -/
def execBypassElementSwitched (n : Fin 8) (s : State) : Out :=
  let z := pairDie n
  let i := pairBlk n
  if s.flag z i 0x108 1 then
    let closed := !(s.flag z i 0x104 0 && s.mayOpen n)
    let changed := closed != s.flag z i 0x108 0
    let s := (s.setFlag z i 0x108 0 closed).setFlag z i 0x108 1 false
    .next (if changed then (pairPorts n).foldl (fun s p => s.portDown p true) (s.bump z i 0x110 1) else s)
  else .next s

/-- Whether a port can train: powered, enabled, not disabled, its rings locked, its bay ready, and not behind a closed element
(R326 to R328, R346). -/
def State.canTrain (s : State) (p : Nat) : Bool :=
  let z := portDie p
  let i := portBlk p
  (s.run == .startUp || s.run == .ready || s.run == .quiesced) && s.flag z i 0x104 0 && !(s.port p).disabled && !s.flag z i 0x120 5 &&
    s.bayBit (portLathe p) 1 && !s.flag z i 0x120 0 && (!isBypass p || !s.flag z (bypBlk p) 0x108 0)

/-- The 32 bits of a block at `FPP.INJ_OFF`, as the injection register compares them: of its header, whose layout the spec leaves open, a free
value (R348, R353; log entry 110). -/
def State.blockWord (s : State) (p : Nat) (xs : List (Nat × Nat)) : W32 × State :=
  let off := s.fld (portDie p) (portBlk p) 0x204 0 7
  let (h, s) := if s.flag (portDie p) (portBlk p) 0x200 0 then s.freeNat 256 else (0, s)
  (BitVec.ofNat 32 ((h + packBits 4096 (xs.map (·.1)) * 2 ^ 256) / 2 ^ (8 * off)), s)

/-- A ring-native block sent, on the outputs and in its pair's count (R348). -/
def State.emitBlock (s : State) (p : Nat) (corrupt : Option (Nat × Bool)) (b : NativeBlock) : State :=
  (s.bump (portDie p) (bypBlk p) 0x120 1).emit (.native p corrupt b)

/-- A ring-native block passes the port's injection register on its way out (R348, R353). -/
def State.sendBlock (s : State) (p : Nat) (b : NativeBlock) : State :=
  let z := portDie p
  let i := portBlk p
  let (word, s) := s.blockWord p b.xfers
  let (hit, s) := s.injectHit z i 0x200 0x208 0x20C 0x214 true word
  let act := s.fld z i 0x200 1 2
  let n := s.fld z i 0x200 10 4
  if hit && act == 0 then s
  else if hit && act == 2 && n != 0 then s.onPort p fun x => { x with heldBlocksTx := x.heldBlocksTx ++ [(b, n)] }
  else
    let s := s.emitBlock p (if hit && act == 1 then some ((s.rg z i 0x210).toNat, s.flag z i 0x200 4) else none) b
    let held := (s.port p).heldBlocksTx.map fun h => (h.1, h.2 - 1)
    let s := s.onPort p fun x => { x with heldBlocksTx := held.filter fun h => h.2 != 0 }
    (held.filter fun h => h.2 == 0).foldl (fun s h => s.emitBlock p none h.1) s

/-- The blocks that the far end has not acknowledged sent again in order (R349); while the port may send nothing, the replay waits (R330, R407). -/
def State.replay (s : State) (p : Nat) : State :=
  let l := (s.port p).unacked
  if l = [] then s
  else if !s.portSends p then s.onPort p fun x => { x with replayDue := true }
  else l.foldl (fun s b => s.sendBlock p b) ((s.onPort p fun x => { x with replayDue := false }).bump (portDie p) (bypBlk p) 0x118 1)

/-- Replays that waited go out once their ports may send (R349). -/
def State.replayTick (s : State) : State :=
  s.ports.foldl (fun s x => if x.2.replayDue && s.linkUp x.1 && x.2.ringNative && s.portSends x.1 then s.replay x.1 else s) s

/-- After training of a ring-native port (R349): the same far module gets the unacknowledged blocks again, a different one loses
them. -/
def State.nativeTrained (s : State) (p : Nat) (serial : W64) : State :=
  let z := portDie p
  let i := bypBlk p
  let same := s.pair z i 0x130 == serial.toNat
  let s := s.setPair z i 0x130 serial.toNat
  let s := if (pairPorts (pairOf p)).all fun q => s.flag (portDie q) (portBlk q) 0x120 0 && (s.port q).ringNative
    then s.setFlag z i 0x108 2 true else s
  if same then s.replay p
  else
    let lost := (s.port p).unacked != []
    let s := s.onPort p fun x => { x with unacked := [], txSeq := 0, rxSeq := 0, credit := 256 }
    if lost then (s.errBit z i 0).event z i 2 6 1 0 (p * 2 ^ 25) else s

/-- LINK_TRAIN_COMPLETE: a port has trained against its far end; with different framings at the two ends it stays down (R347 to
R349). -/
def execLinkTrainComplete (p : Fin 104) (f : TrainFacts) (s : State) : Out :=
  if !s.canTrain p then .next s
  else
    let z := portDie p
    let i := portBlk p
    let s := if isBypass p then s.commit z (bypBlk p) 0x104 else s
    let native := isBypass p && s.flag z (bypBlk p) 0x104 1
    let s := (s.setFld z i 0x120 1 3 0).onPort p fun x => { x with ringNative := native, pausing := none }
    if native != f.native then .next (s.setFlag z i 0x120 4 true)
    else
      let s := (s.setFlag z i 0x120 4 false).setFlag z i 0x120 0 true
      .next (if native then s.nativeTrained p f.serial else s)

/-! ### Lasers and rings -/

/-- Every port of a die loses light (R327). -/
def State.darken (s : State) (d : Nat) : State := (portsOf d).foldl (fun s p => s.portDown p true) s

/-- Elements that a bay without light closes: bay 2e is that of both pairs of engine e (R346). -/
def State.closeForBay (s : State) (d : Nat) : State := if d % 2 = 0 then (s.closePair d).closePair (d + 1) else s

/-- A bay's fault: its bit, the record, and its ports without light (R327, R438, R352). -/
def State.bayFault (s : State) (d : Nat) : State :=
  (((s.setBay d 5).errBit (fpeDie d) fpeBlk 2).event (fpeDie d) fpeBlk 1 6 0 2 0).darken d

/-- The lasers of a fitted module enabled (R327): its ports' rings are tuned, and their links train. -/
def State.enableBay (s : State) (d : Nat) : State :=
  match Sparse.get nat0 s.bays d % 4 with
  | 1 => (portsOf d).foldl (fun s p => (s.setFlag (portDie p) (portBlk p) 0x120 1 false).setFlag (portDie p) (portBlk p) 0x120 5 false) (s.setBay d 3)
  | 2 => s.bayFault d
  | _ => s

/-- LASER_INSERT: an ELSFP module is fitted in an empty bay; it is enabled if its four lasers are on the grid (R327, R438). Before
start-up step 6 it waits. `lowPower` is what the module reports for the bay's bit of `FPE.LASER` (Table 13.11; log entry 111). -/
def execLaserInsert (d : Fin 8) (grid lowPower : Bool) (s : State) : Out :=
  if Sparse.get nat0 s.bays d ≠ 0 then .next s
  else
    let s := { s with bays := Sparse.put nat0 s.bays d ((if grid then 1 else 2) + 4 * b2n lowPower) }
    .next (if s.run == .ready || s.run == .quiesced || (s.run == .startUp && decide (6 ≤ s.startStep)) then s.enableBay d else s)

/-- LASER_REMOVE: an ELSFP module is withdrawn (R327, R346). -/
def execLaserRemove (d : Fin 8) (s : State) : Out :=
  if Sparse.get nat0 s.bays d = 0 then .next s
  else
    let s := { s with bays := Sparse.put nat0 s.bays d 0 }
    .next (if s.powered then ((s.setBay d 0).darken d).closeForBay d else s)

/-- LASER_FAULT: a fitted module's lasers fail (R327, R346, R352). -/
def execLaserFault (d : Fin 8) (lowPower : Bool) (s : State) : Out :=
  if s.powered && s.bayBit d 1 then
    .next (({ s with bays := Sparse.put nat0 s.bays d (3 + 4 * b2n lowPower) }.bayFault d).closeForBay d)
  else .next s

/-- Whether a ring's heater is within 4 steps of an end of its range (R328). -/
def nearEnd (margin : W32) : Bool := (List.range 8).any fun k => decide (bitsOf margin.toNat (4 * k) 4 ≤ 4)

/-- RING_DITHER: the dither loop holds the locks of a port's rings; a ring near the end of its heater range is relocked on the
adjacent resonance, with new margins, or cannot be (R328, R352). -/
def execRingDither (p : Fin 104) (margin : W32) (relocked : Option W32) (s : State) : Out :=
  let z := portDie p
  let i := portBlk p
  if s.powered && s.bayBit (portLathe p) 1 && !s.flag z i 0x120 5 then
    let s := s.setRg z i 0x124 margin
    if nearEnd margin then
      let s := (s.portDown p false).bump z i 0x168 1
      match relocked with
      | some m => .next (s.setRg z i 0x124 m)
      | none => .next ((s.setFlag z i 0x120 5 true).event z i 1 6 0 0x7F 0)
    else .next s
  else .next s

/-! ### Ring-native framing -/

/-- Blocks of up to four transfers from a sequence number and a transfer index on (R348). -/
def nativeBlocks (farTag : Nat) : (fuel seq first : Nat) → List (Nat × Nat) → List NativeBlock
  | 0, _, _, _ => []
  | _, _, _, [] => []
  | fuel + 1, seq, first, l => ⟨seq, farTag, first, l.take 4⟩ :: nativeBlocks farTag fuel (seq + 1) (first + 4) (l.drop 4)

/-- Blocks that a replay buffer holds (R349). -/
def replayDepth : Nat := 256

/-- RING_NATIVE_SEND: a kind-2 tile sends its transfers 1 onward on a ring-native port of the die; without credit, or while the link
trains, it waits (R334, R348, R349). -/
def execRingNativeSend (d : Fin 8) (s : State) : Out :=
  if !s.ceRuns then .next s
  else
    match s.netTile d with
    | none => .next s
    | some (lines, t) =>
        if netKind lines ≠ 2 then .next s
        else
          let h := (lines.headD (0, 0)).1
          let p := bitsOf h 0 7
          let xs := lines.drop 1
          let x := s.port p
          if bitsOf h 7 57 ≠ 0 ∨ bitsOf h 128 376 ≠ 0 ∨ !(portsOf d).contains p ∨ !isBypass p ∨ !s.flag (portDie p) (bypBlk p) 0x104 1 then
            .next (t.netHdrBad d)
          else if !s.linkUp p || !x.ringNative || !s.portSends p || decide (x.credit < xs.length) ||
              decide (replayDepth < x.unacked.length + ceilDiv xs.length 4) then .next s
          else
            let bs := nativeBlocks (bitsOf h 64 64) (xs.length + 1) x.txSeq 0 xs
            let t := t.setPort p { x with txSeq := x.txSeq + bs.length, unacked := x.unacked ++ bs, credit := x.credit - xs.length }
            .next (bs.foldl (fun s b => s.sendBlock p b) t)

/-- What the far end acknowledges and returns, and a replay that it asks for (R348, R349). -/
def State.nativeAcked (s : State) (p : Nat) (b : NativeIn) : State :=
  let x := s.port p
  let s := s.setPort p { x with unacked := x.unacked.filter fun u => decide (b.ack ≤ u.seq), credit := min 256 (x.credit + b.credit) }
  if b.again then s.replay p else s

/-- An acknowledgement or a request to replay leaves a port that may send (R330, R349). -/
def State.sendAck (s : State) (p seq credit : Nat) (again : Bool) : State := if s.portSends p then s.emit (.nativeAck p seq credit again) else s

/-- A ring-native block taken: its transfers are injected at the Net station under `FAR_TAG`, with `SRC` replaced (R348, R28); a CRC failure or a gap
asks for a replay (R349). -/
def State.takeBlock (s : State) (p : Nat) (b : NativeIn) : State :=
  let x := s.port p
  if !b.crcOk || decide (x.rxSeq < b.seq) then s.sendAck p x.rxSeq 0 true
  else
    let s := s.nativeAcked p b
    if b.xfers = [] then s
    else if b.seq < x.rxSeq then s.sendAck p x.rxSeq 0 false
    else
      let d := portLathe p
      let tag := HopTag.ofBits b.farTag.toNat
      let port := (coreOfStation tag.retire).isNone && decide (tag.retire < 30)
      let n := b.xfers.length
      if port && decide (s.credit d tag.retire < n) then s
      else
        let xs := b.xfers.zipIdx.map fun v =>
          ({ tag := { tag with src := netStation, xfer := b.first + v.2 }, data := v.1.1, poison := v.1.2, credit := port } : Xfer)
        let (ok, s) := s.offer d netStation xs
        let s := if ok && port then s.takeCredit d tag.retire n else s
        let s := (s.onPort p fun x => { x with rxSeq := x.rxSeq + 1 }).bump (portDie p) (bypBlk p) 0x128 1
        s.sendAck p (x.rxSeq + 1) n false

/-- RING_NATIVE_BLOCK: a ring-native block arrives; the injection register may drop, corrupt or hold it back (R348, R349, R353). `g` is the block
as its fields read with bit `INJ_BIT` flipped before its CRC was formed. -/
def execRingNativeBlock (p : Fin 104) (b g : NativeIn) (s : State) : Out :=
  let z := portDie p
  let i := portBlk p
  if !s.linkUp p || !(s.port p).ringNative || !s.ceRuns then .next s
  else
    let (word, s) := s.blockWord p b.xfers
    let (hit, s) := s.injectHit z i 0x200 0x208 0x20C 0x214 false word
    let act := s.fld z i 0x200 1 2
    let n := s.fld z i 0x200 10 4
    if hit && act == 0 then .next s
    else if hit && act == 2 && n != 0 then .next (s.onPort p fun x => { x with heldBlocksRx := x.heldBlocksRx ++ [(b, n)] })
    else
      let s := s.takeBlock p (if hit && act == 1 then (if s.flag z i 0x200 4 then { b with crcOk := false } else { g with crcOk := b.crcOk }) else b)
      let held := (s.port p).heldBlocksRx.map fun h => (h.1, h.2 - 1)
      let s := s.onPort p fun x => { x with heldBlocksRx := held.filter fun h => h.2 != 0 }
      .next ((held.filter fun h => h.2 == 0).foldl (fun s h => s.takeBlock p h.1) s)

/-! ### MACsec keys -/

/-- A write of a key, salt or SSCI register (Table 13.10). -/
def State.wSak (s : State) (p off : Nat) (v : W32) : State :=
  s.onPort p fun x => { x with keys := Sparse.put (fun _ => 0) x.keys off v }

/-- A write of `FPP.SAK_SEL` with `LOAD` set loads a secure association from the key registers (R344). -/
def State.wSakSel (s : State) (p : Nat) (v : W32) : State :=
  if v.getLsbD 2 then
    let x := s.port p
    let word (off : Nat) : Nat := (Sparse.get (fun _ => 0) x.keys off).toNat
    let sa : Sa := { key := packBits 32 ((List.range 8).map fun j => word (0x190 + 4 * j))
                     salt := packBits 32 ((List.range 3).map fun j => word (0x1B0 + 4 * j)), ssci := word 0x1BC }
    let an := b2n (v.getLsbD 0)
    s.setPort p (if v.getLsbD 1 then { x with txSa := Sparse.put noSa x.txSa an (some sa) }
      else { x with rxSa := Sparse.put noSa x.rxSa an (some sa) })
  else s

/-- SAK_LOAD (R344). -/
def execSakLoad (p : Fin 104) (v : W32) (s : State) : Out := .next (if s.inReset then s else s.wSakSel p v)

/-! ### Package links and deliberate faults -/

/-- The port stations whose links are package links (R350). -/
def linkStations : List Nat := [0, 7, 14, 15, 22, 29]

/-- PACKAGE_LINK_REFUSE: the receiver of a package link finds a CRC mismatch in the transfer that crosses, and refuses it (R351). -/
def execPackageLinkRefuse (d : Fin 8) (st : Fin 30) (s : State) : Out :=
  if s.powered && linkStations.contains st.val && (s.station d st).arrived != [] then .next (s.linkRefuse d st) else .next s

/-- A write of an injection register: ignored while no debug session is open (R353, R389). -/
def State.wInject (s : State) (z i off : Nat) (v : W32) : State := if s.debugOpen then s.writeAcc z i off v else s

/-- FPP_INJ: a write of `FPP.INJ` (R353). -/
def execFppInj (p : Fin 104) (v : W32) (s : State) : Out := .next (if s.inReset then s else s.wInject (portDie p) (portBlk p) 0x200 v)

/-- BED_INJ: a write of `BED.INJ` of a port station; a core station has none (R353, R357). -/
def execBedInj (d : Fin 8) (st : Fin 30) (v : W32) (s : State) : Out := .next (if s.inReset then s else s.wInject d (stBlk st) 0x180 v)

/-- A check injection armed on a core: array or slice, and reports (R321). -/
def State.armCheck (s : State) (d c which count : Nat) : State :=
  if !s.debugOpen || (count != 1 && count != 2) then s
  else
    let x := s.core d c
    s.setCore d c { x with inject := (x.inject.filter fun y => y.1 != which) ++ [(which, count)] }

/-- A write of `GOUGE.CHK_INJ` or `SKEW.CHK_INJ` (R321). -/
def State.wGougeChk (s : State) (d c : Nat) (v : W32) : State := s.armCheck d c (bitsOf v.toNat 0 2) (bitsOf v.toNat 2 2)
def State.wSkewChk (s : State) (d c : Nat) (v : W32) : State := s.armCheck d c (bitsOf v.toNat 0 4) (bitsOf v.toNat 4 2)

/-- GOUGE_CHK_INJ: the array's checker reports a mismatch on its next row (R321). -/
def execGougeChkInj (d : Fin 8) (c : Fin 24) (v : W32) (s : State) : Out :=
  .next (if isGouge c && !s.inReset then s.wGougeChk d c v else s)
/-- SKEW_CHK_INJ: the slice's checker reports a mismatch on its next instruction (R321). -/
def execSkewChkInj (d : Fin 8) (c : Fin 24) (v : W32) (s : State) : Out :=
  .next (if isSkew c && !s.inReset then s.wSkewChk d c v else s)

end Sys2Proof.Machine
end

