-- ==== Sys2Proof/Machine/Loader.lean ====
section
/-!
DEFINITION. The loader: die program images, their checks, patches and start, and the unloading of a job (R184 to R189, R182, R194,
R403).
-/
namespace Sys2Proof.Machine

/-! ### The image -/

/-- `n` bytes of an image at offset `o`, little-endian. -/
def imgNum (img : List Byte) (o n : Nat) : Nat := ofBytes ((img.drop o).take n)

/-- A section entry (Table 7.4). -/
structure Sec where
  index : Nat
  core : Nat
  kind : Nat
  space : Bool
  write : Bool
  length : Nat
  src : Nat
  dst : Nat
  /-- A reserved bit is set. -/
  bad : Bool
  deriving DecidableEq, Repr

/-- A section entry from its 256 bits. -/
def secOf (index n : Nat) : Sec where
  index := index
  core := bitsOf n 0 5
  kind := bitsOf n 5 3
  space := bitOf n 8
  write := bitOf n 9
  length := bitsOf n 32 32
  src := bitsOf n 64 48
  dst := bitsOf n 128 48
  bad := bitsOf n 10 22 != 0 || bitsOf n 112 16 != 0 || bitsOf n 176 80 != 0

/-- A patch record (Table 7.6). -/
structure Patch where
  index : Nat
  sec : Nat
  unit : Nat
  off : Nat
  width : Nat
  kind : Nat
  arg : Nat
  addend : Int
  bad : Bool
  deriving DecidableEq, Repr

/-- A patch record from its 256 bits. -/
def patchOf (index n : Nat) : Patch where
  index := index
  sec := bitsOf n 0 16
  unit := bitsOf n 16 32
  off := bitsOf n 48 9
  width := bitsOf n 57 6
  kind := bitsOf n 64 8
  arg := bitsOf n 72 16
  addend := toSigned 64 (bitsOf n 128 64)
  bad := bitOf n 63 || bitsOf n 88 40 != 0 || bitsOf n 192 64 != 0

/-- A die program image with its header fields (Table 7.3). -/
structure Image where
  bytes : List Byte
  /-- The header, 1,024 bits. -/
  hdr : Nat
  secs : List Sec
  patches : List Patch
  deriving DecidableEq, Repr

def Image.backfill (m : Image) : Bool := bitsOf m.hdr 40 2 == 1
def Image.hinted (m : Image) : Bool := bitOf m.hdr 42
def Image.debug (m : Image) : Bool := bitOf m.hdr 43
def Image.arrays (m : Image) (q : Nat) : Nat := bitsOf m.hdr (96 + 4 * q) 4
def Image.act (m : Image) : Nat := bitsOf m.hdr 192 64
def Image.ckpt (m : Image) : Nat := bitsOf m.hdr 256 64
def Image.digest (m : Image) : Nat := bitsOf m.hdr 384 256

/-- The image that bytes hold. -/
def imageOf (bytes : List Byte) : Image :=
  let h := imgNum bytes 0 128
  { bytes := bytes
    hdr := h
    secs := (List.range (bitsOf h 64 16)).map fun i => secOf i (imgNum bytes (bitsOf h 128 32 + 32 * i) 32)
    patches := (List.range (bitsOf h 80 16)).map fun i => patchOf i (imgNum bytes (bitsOf h 160 32 + 32 * i) 32) }

/-- The digest that the header must hold: of the image with `DIGEST` zero (R184, log entry 10). -/
def imageDigest (bytes : List Byte) : Nat :=
  (Config.shake256 (bytes.take 48 ++ List.replicate 32 0 ++ bytes.drop 80)).toNat % 2 ^ 256

/-- The contents of a section. -/
def Image.contents (m : Image) (x : Sec) : Nat := imgNum m.bytes x.src x.length

/-- Sections of a kind, of a core. -/
def Image.ofKind (m : Image) (k : Nat) : List Sec := m.secs.filter fun x => x.kind == k
def Image.ofCore (m : Image) (k c : Nat) : List Sec := m.secs.filter fun x => x.kind == k && x.core == c

/-- Cores on which a program runs: those with code (R185). -/
def Image.runsOn (m : Image) (c : Nat) : Bool := m.secs.any fun x => decide (x.kind ≤ 1) && x.core == c

/-- The address of a section on die `d`'s Heartwood, or of a Sapwood window. -/
def Sec.addr (x : Sec) (d : Nat) : Nat := if x.kind = 5 ∧ x.space then x.dst else d * 2 ^ 36 + x.dst

/-! ### The checks of Table 7.8 -/

/-- A refusal: its code, and the index of the offending entry. -/
abbrev Refused := Option (Nat × Option Nat)

/-- A header with a reserved bit set or a field out of its range (0x02). -/
def Image.headerBad (m : Image) : Bool :=
  let h := m.hdr
  let f := bitsOf h
  let size := m.bytes.length
  decide (2 ≤ f 40 2) || f 44 20 != 0 || f 64 16 == 0 || decide (4096 < f 64 16) ||
    ((List.range 4).any fun q => decide (12 < m.arrays q)) || f 112 16 != 0 ||
    f 128 5 != 0 || f 160 5 != 0 || decide (size < f 128 32 + 32 * f 64 16) || decide (size < f 160 32 + 32 * f 80 16) ||
    f 192 12 != 0 || f 256 12 != 0 || (m.backfill && (m.act != 0 || m.ckpt != 0)) || f 352 32 != 0 || f 640 384 != 0

/-- A section with a reserved bit set or a field out of its range (0x02). -/
def Sec.bad02 (x : Sec) (size : Nat) : Bool :=
  let c := x.core
  let engine := decide (c < 24) && !isParting c
  let part := decide (c < 24) && isParting c
  let inside := decide (x.src + x.length ≤ size)
  x.bad || decide (6 < x.kind) || x.length % (if x.kind ≤ 1 then 8 else 64) != 0 ||
    (match x.kind with
      | 0 => !engine || !inside || decide (storeWords < x.dst + x.length / 8)
      | 1 => !part || !inside || decide (imemBytes < x.dst + x.length)
      | 2 => !part || !inside || decide (dmemBytes < x.dst + x.length)
      | 3 => c != 31 || !inside || decide (2 ^ 36 < x.dst + x.length)
      | 4 => !engine || !inside || decide (bufBytes c < 64 * x.dst + x.length)
      | 5 => c != 31 || x.src != 0 ||
          (if x.space then decide (x.dst < sapBase) || decide (sapEnd < x.dst + x.length) else decide (2 ^ 36 < x.dst + x.length))
      | _ => !engine || x.src != 0 ||
          (if x.space then !isGouge c || decide (bankWords c < x.dst + x.length / 128)
            else decide (bufBytes c < 64 * x.dst + x.length)))

/-- The range that a section takes at its destination, by a unit of its kind: words, bytes or 64 B units. -/
def Sec.span (x : Sec) : Nat :=
  match x.kind with
  | 0 => x.length / 8
  | 4 => x.length / 64
  | _ => x.length

/-- Whether two sections with contents overlap at their destinations (R186). -/
def Sec.overlaps (x y : Sec) : Bool :=
  x.kind == y.kind && decide (x.kind ≤ 4) && x.core == y.core && decide (x.dst < y.dst + y.span) && decide (y.dst < x.dst + x.span)

/-- The first entry that overlaps an earlier one. -/
def firstOverlap : List Sec → List Sec → Option Nat
  | _, [] => none
  | seen, x :: l => if seen.any fun y => x.overlaps y then some x.index else firstOverlap (x :: seen) l

/-- The windows of an image as bounds (R185). -/
def Image.windows (m : Image) (d : Nat) : List Bound := (m.ofKind 5).map fun x => ⟨x.addr d, x.length, x.write⟩

/-- The bounds of a program: its windows and the home ranges of its die, writable where it runs (R185). -/
def Image.bounds (m : Image) (d : Nat) : List Bound :=
  m.windows d ++ (List.range 24).map fun c => ⟨d * 2 ^ 36 + homeOffset c, homeBytes c, m.runsOn c⟩

/-- A section outside the bounds that it must keep: a back-fill image's Heartwood contents outside its own windows, or a window
over the carve-out (R186, R238). -/
def State.outside (s : State) (d : Nat) (m : Image) (x : Sec) : Bool :=
  (m.backfill && x.kind == 3 && !inBounds (m.windows d) (x.addr d) x.length false) ||
    (x.kind == 5 && x.space && x.length != 0 && decide (s.carveBase < x.dst + x.length))

/-- The base of a patch kind (Table 7.7); none for an unknown kind or argument. -/
def patchBase (d rank : Nat) (layout : List Nat) (kind arg : Nat) : Option Nat :=
  let only (n : Nat) : Option Nat := if arg = 0 then some n else none
  match kind with
  | 0x01 => only (d * 2 ^ 36)
  | 0x02 => if arg < 24 then some (d * 2 ^ 36 + homeOffset arg) else none
  | 0x03 => only d
  | 0x04 => only (layout.getD 0 0)
  | 0x05 => only (layout.getD 1 0)
  | 0x06 => if arg < 2 then some (layout.getD (2 + arg) 0) else none
  | 0x07 => only (layout.getD 4 0)
  | 0x08 => if arg < 4096 then some (regBase + d * 2 ^ 24 + arg * 2 ^ 12) else none
  | 0x09 => if arg < 4 then some (4 * d + arg) else none
  | 0x0A => only rank
  | _ => none

/-- A patch with a reserved bit set or a field out of its range (0x02). -/
def Patch.bad02 (p : Patch) (secs : List Sec) : Bool :=
  p.bad || p.width == 0 || decide (48 < p.width) || decide (512 < p.off + p.width) ||
    (match secs.find? fun x => x.index == p.sec with
      | none => true
      | some x => decide (4 < x.kind) || decide (8 * x.length < 512 * p.unit + p.off + p.width))

/-- The value of a patch; none where its kind or argument is unknown or the value does not fit (0x07). -/
def Patch.value (p : Patch) (d rank : Nat) (layout : List Nat) : Option Nat :=
  match patchBase d rank layout p.kind p.arg with
  | none => none
  | some b =>
      let v := (b : Int) + p.addend
      if v < 0 ∨ (2 : Int) ^ p.width ≤ v then none else some v.toNat

/-- First bit that a patch writes in its section's contents. -/
def Patch.first (p : Patch) : Nat := 512 * p.unit + p.off

/-- The first record that writes a bit of an earlier one. -/
def firstClash : List Patch → List Patch → Option Nat
  | _, [] => none
  | seen, p :: l =>
      if seen.any fun q => q.sec == p.sec && decide (p.first < q.first + q.width) && decide (q.first < p.first + p.width)
      then some p.index else firstClash (p :: seen) l

/-- The contents of a section with its patches written, in table order (R187). -/
def Image.patched (m : Image) (d rank : Nat) (layout : List Nat) (x : Sec) : Nat :=
  (m.patches.filter fun p => p.sec == x.index).foldl (fun n p =>
    match p.value d rank layout with | some v => withBits n p.first p.width v | none => n) (m.contents x)

/-- The words of a core's code, in order of address: address, word, section. -/
def Image.code (m : Image) (c : Nat) (patched : Sec → Nat) : List (Nat × Nat × Nat) :=
  let ws := (m.ofCore 0 c).flatMap fun x =>
    let n := patched x
    (List.range (x.length / 8)).map fun i => (x.dst + i, bitsOf n (64 * i) 64, x.index)
  ws.mergeSort fun a b => decide (a.1 ≤ b.1)

/-- What the loader knows of the weight registers as it reads a program in order: the format and N of the active and shadow tile
of each array; nothing after a loop (log entry 22). -/
structure KnownTiles where
  active : List (Option (Nat × Nat)) := [none, none, none, none]
  shadow : List (Option (Nat × Nat)) := [none, none, none, none]
  deriving DecidableEq, Repr

def KnownTiles.swap (t : KnownTiles) (as : List Nat) : KnownTiles :=
  as.foldl (fun t a => { active := t.active.set a (t.shadow.getD a none), shadow := t.shadow.set a (t.active.getD a none) }) t

/-- What an instruction does to the tiles known. -/
def KnownTiles.after (t : KnownTiles) : EngInstr → KnownTiles
  | .wld _ a fmt _ ncode _ _ _ => { t with shadow := t.shadow.set a (some (fmt, colsOf ncode)) }
  | .wswap mask => t.swap (arraysOf mask)
  | .loop .. => {}
  | i => t.swap (swapsOf i)

/-- Whether an epilogue's output is of a class that is never counted, by a descriptor that the image preloads: stores to memory, or tiles that retire at
a port station (R54, R105, R173, R211). -/
def epiUncounted (pre : Nat → Option Nat) (desc : Nat) : Bool :=
  match (pre desc).bind epiDesc with
  | some e => e.dest == 3 || e.dest == 1 || (e.dest == 2 && (coreOfStation (bitsOf e.ext 0 5)).isNone)
  | none => false

/-- Whether an instruction of a core holds a counted flag that its program may not hold; `pre` are the 64 B units of its operand buffer that
the image preloads (R173, R177, R211). -/
def countedBad (core : Nat) (hinted : Bool) (pre : Nat → Option Nat) : EngInstr → Bool
  | .tsig c _ _ _ _ => hinted && c
  | .send c _ dir near _ _ retire _ _ =>
      c && (hinted || (coreOfStation (if near then neighbour (stationOfCore core) dir else retire)).isNone)
  | .epi _ c _ _ _ _ desc _ => c && (hinted || epiUncounted pre desc)
  | .chout c _ _ _ _ dkind _ retire _ _ _ => c && (hinted || (dkind == 3 && (coreOfStation retire).isNone))
  | .setop _ => hinted
  | .cexp .. => hinted
  | .twaitTick .. => hinted
  | _ => false

/-- Whether an epilogue's descriptor that the image preloads stores by store queue 3 (R54, R191). -/
def storesBySQ3 (pre : Nat → Option Nat) (desc : Nat) : Bool :=
  match (pre desc).bind epiDesc with
  | some e => e.dest == 1 && bitsOf e.ext 0 2 == 3
  | none => false

/-- Whether a main program names a queue that a loaded back-fill program has (R191). -/
def queueTaken (pre : Nat → Option Nat) : EngInstr → Bool
  | .qreq q _ _ _ _ _ => q == 6 || q == 7 || q == 11
  | .qwait q _ => q == 6 || q == 7 || q == 11
  | .epi _ _ _ _ _ _ desc _ => storesBySQ3 pre desc
  | .rs _ _ ed _ _ _ _ _ _ _ _ _ => (match ed with | some u => storesBySQ3 pre u | none => false)
  | _ => false

/-- An illegal operand that the instruction's words show, whatever its address registers hold (R202). -/
def wordsBad (c : Nat) (i : EngInstr) : Bool :=
  match i with
  | .qreq _ loc lenM1 addr axen _ => decide (bufBytes c / 64 ≤ loc + lenM1) || (!axen && addr % 64 != 0)
  | i => badOperand c [] i

/-- An illegal operand that is known at load: of the instruction, of the tiles known, and of a back-fill program's grants (R39, R42, R52,
R191, R202). -/
def operandBad (c : Nat) (t : KnownTiles) (gs : Option (List Grant)) (i : EngInstr) : Bool :=
  wordsBad c i || (match gs with | some gs => outsideGrant gs true 1 (accUses 32 i) i | none => false) ||
  match i with
  | .wld transpose _ fmt _ _ _ _ _ => transpose && (!isBGouge c || fmtMX fmt)
  | .rs swap transpose ed mask mode m _ _ fmt wbase _ _ =>
      let t := if swap then t.swap (arraysOf mask) else t
      (transpose && (!isBGouge c || fmtMX fmt)) ||
        ((arraysOf mask).any fun a =>
          match t.active.getD a none with
          | some (f, n) => !mayMeet fmt f || (!(ed.isSome && mode == 3) && outOfBank c wbase m n)
          | none => !(ed.isSome && mode == 3) && outOfBank c wbase m 32)
  | .epi _ _ _ wbase m ncode _ _ => outOfBank c wbase m (colsOf ncode)
  | .chout _ _ wbase m ncode _ _ _ _ _ _ => outOfBank c wbase m (colsOf ncode)
  | .chin _ _ wbase m ncode _ _ => outOfBank c wbase m (colsOf ncode)
  | _ => false

/-- The code's instructions checked in order of address: `skip` extension words remain to be passed (R177, R189). -/
def scanCode (c : Nat) (hinted taken : Bool) (pre : Nat → Option Nat) (gs : Option (List Grant)) :
    (ws : List (Nat × Nat × Nat)) → (skip : Nat) → KnownTiles → Refused
  | [], _, _ => none
  | _ :: rest, skip + 1, t => scanCode c hinted taken pre gs rest skip t
  | (a, w, sec) :: rest, 0, t =>
      let next (k : Nat) : Nat :=
        match rest[k]? with | some x => if x.1 = a + k + 1 then x.2.1 else 0 | none => 0
      match decodeEng (isGouge c) a w (next 0) (next 1) with
      | none => scanCode c hinted taken pre gs rest 0 t
      | some i =>
          if countedBad c hinted pre i || (taken && queueTaken pre i) then some (0x08, some sec)
          else if operandBad c t gs i then some (0x09, some sec)
          else scanCode c hinted taken pre gs rest (engLength i - 1) (t.after i)

/-- The 64 B unit `u` of a core's operand buffer or scratch as an image preloads it. -/
def Image.preload (m : Image) (c : Nat) (patched : Sec → Nat) (u : Nat) : Option Nat :=
  ((m.ofCore 4 c).find? fun x => decide (x.dst ≤ u) && decide (u < x.dst + x.length / 64)).map fun x =>
    bitsOf (patched x) (512 * (u - x.dst)) 512

/-- The first section of a Skew program's data with a tie-table entry that has a reserved bit set or `USES_M1` = 0 (R102). Which sections are the
program's data is open: here those that preload a Skew core's scratch (DESIGN CHOICE, log entry 107). -/
def Image.tieBad (m : Image) (patched : Sec → Nat) : Option Nat :=
  ((m.ofKind 4).find? fun x => isSkew x.core && (Config.tieEntries m.bytes x.index).any fun o =>
    let e := bitsOf (patched x) (8 * o) 256
    bitsOf e 112 4 == 0 || bitsOf e 116 12 != 0 || bitsOf e 160 96 != 0).map fun x => x.index

/-- The grants of a core (R191): of the accumulator words of every bank, a grant of `LENGTH` bytes holds `LENGTH` / 128 from `DST`, which
Table 7.5 leaves open (DESIGN CHOICE, log entry 81). -/
def Image.grantsOf (m : Image) (c : Nat) : List Grant :=
  (m.ofCore 6 c).map fun x => if x.space then ⟨1, x.dst, x.length / 128⟩ else ⟨0, x.dst, x.length / 64⟩

/-- Engine cores, in order. -/
def engineCores : List Nat := (List.range 24).filter fun c => !isParting c

def noProg (_ : Nat) : Option LoadedProg := none

/-- The programs of the job's dies other than the one that an image replaces. -/
def Job.others (j : Job) (d : Nat) : List LoadedProg :=
  (j.mains.filter fun c => c.1 != d).filterMap fun c => c.2

/-- The loader's checks of an image, in the order of Table 7.8 (R182, R184 to R189, R194, R99, R102). A running job's `DEBUG` is no value that
a back-fill image could change (R194). -/
def State.loadCheck (s : State) (job d rank : Nat) (layout : List Nat) (bytes : List Byte) : Refused :=
  let m := imageOf bytes
  let j := s.job.getD { id := job }
  let loaded := j.mains.filterMap (fun c => c.2) ++ j.backs.filterMap fun c => c.2
  let main := Sparse.get noProg j.mains d
  if j.id ≠ job then some (0x0B, none)
  else if bytes.length < 128 ∨ m.digest ≠ imageDigest bytes ∨ bitsOf m.hdr 0 32 ≠ 0x48535746 ∨ bitsOf m.hdr 32 8 ≠ 1 then
    some (0x01, none)
  else if m.headerBad then some (0x02, none)
  else
    match m.secs.find? fun x => x.bad02 bytes.length with
    | some x => some (0x02, some x.index)
    | none =>
    match m.patches.find? fun p => p.bad02 m.secs with
    | some p => some (0x02, some p.index)
    | none =>
    if (loaded.any fun p => p.hinted != m.hinted) ||
        ((List.range 4).any fun q => (s.flag d (qBlk q) 0x00C 0 || !s.debugOpen || m.backfill) && s.debug d q != m.debug) then some (0x03, none)
    else if s.fld 24 0 (0x138 + 4 * (d / 4)) (8 * (d % 4)) 8 < (List.range 4).foldl (fun n q => n + m.arrays q) 0 ∨
        (m.backfill && (List.range 4).any fun q => decide ((match main with | some p => p.arrays.getD q 0 | none => 0) < m.arrays q)) then
      some (0x04, none)
    else if 768 * 2 ^ 30 < (j.others d).foldl (fun n p => n + p.act + p.ckpt) 0 + m.act + m.ckpt + (sapEnd - s.carveBase) then
      some (0x05, none)
    else
      match firstOverlap [] m.secs with
      | some n => some (0x06, some n)
      | none =>
      match m.secs.find? fun x => s.outside d m x with
      | some x => some (0x06, some x.index)
      | none =>
      match m.patches.find? fun p => (p.value d rank layout).isNone with
      | some p => some (0x07, some p.index)
      | none =>
      match firstClash [] m.patches with
      | some n => some (0x07, some n)
      | none =>
        let taken := !m.backfill && (Sparse.get noProg j.backs d).isSome
        let patched := m.patched d rank layout
        match engineCores.findSome? fun c => scanCode c m.hinted taken (m.preload c patched)
            (if m.backfill then some (m.grantsOf c) else none) (m.code c patched) 0 {} with
        | some r => some r
        | none => (m.tieBad patched).map fun n => (0x0A, some n)

/-! ### Loading -/

/-- The contents of a section, with the poison of their 64 B units, at a destination in a core (Table 7.5). -/
def State.writeSection (s : State) (d : Nat) (x : Sec) (data poison : Nat) : State :=
  match x.kind with
  | 0 => s.onCore d x.core fun y => { y with
      store := Sparse.putRange nat0 y.store x.dst ((List.range (x.length / 8)).map fun i => bitsOf data (64 * i) 64)
      storePoison := writePoison y.storePoison (8 * x.dst) x.length poison }
  | 1 => s.onPart d (x.core / 6) fun p => { p with
      imem := Sparse.putRange byte0 p.imem x.dst (bytesOf x.length data)
      imemPoison := writePoison p.imemPoison x.dst x.length poison }
  | 2 => s.onPart d (x.core / 6) fun p => { p with
      dmem := Sparse.putRange byte0 p.dmem x.dst (bytesOf x.length data)
      dmemPoison := writePoison p.dmemPoison x.dst x.length poison }
  | 4 => s.onCore d x.core fun y => y.writeBuf (bufBytes x.core) (64 * x.dst) x.length data poison
  | _ => s

/-- Queues of the back-fill program (R191). -/
def backQueues : List Nat := [6, 7, 11]

/-- A main program starts on a core at word 0 (R200, R205, R179). -/
def State.startMain (s : State) (d c : Nat) : State :=
  let s := (s.setProgPc d c 0).setProgState d c 1
  s.onCore d c fun x =>
    let x := (List.range 4).foldl (fun x u => x.setUnit u []) x
    { x with prog := {}, window := none, suspended := false, withheld := [], stream := none, works := x.works.filter fun w => w.entry.backfill
             rows := [], rowPoison := [], rowGens := [], halted := false, stalled := false
             queues := x.queues.filter fun (k : Nat × MQueue) => x.backfill.isSome && backQueues.contains k.1 }

/-- A back-fill program is ready on a core, from the destination of its first code section (R190, R200). -/
def State.startBack (s : State) (d c pc : Nat) (gs : List Grant) : State :=
  s.onCore d c fun x =>
    let x := (List.range 4).foldl (fun x u => x.setUnit (4 + u) []) x
    { x with backfill := some { pc := pc }, grants := gs
             queues := x.queues.filter fun (k : Nat × MQueue) => !backQueues.contains k.1 }

/-- The groups of every core of a die applied within the load (R186, R367, R377). -/
def State.applyCores (s : State) (d : Nat) : State :=
  let mask := (List.range 24).foldl (fun a c => a ||| 2 ^ s.groupOf d c) 0
  ((s.sampleStrobe mask).deliverStrobe mask).applyNow fun x => bitOf mask x.2.1 && s.pageRuns x.1

/-- The schedule of a main program staged on the quarters of its die (R166, R183, R194). -/
def State.writeSched (s : State) (d : Nat) (m : Image) : State :=
  (List.range 4).foldl (fun s q =>
    let dbg := if s.debugOpen then m.debug else s.debug d q
    s.writeAcc d (qBlk q) 0x180 (BitVec.ofNat 32 (b2n m.hinted + b2n dbg * 2 + m.arrays q * 4))) s

/-- A main program's quarters as it starts: the loader sets their pending points, and the count of debug mode starts (R194, R255). -/
def State.startQuarters (s : State) (d : Nat) (points : List (Fin 8)) : State :=
  (List.range 4).foldl (fun s q =>
    let x := s.quarter d q
    let s := s.setQuarter d q { x with startBase := x.cycle }
    match points[q]? with
    | some p => s.requestBy d q p 24
    | none => s) s

/-- A section for a core sent from the Control station in messages of up to 4 KiB (R27); what travels, and the state. -/
def State.sendSection (s : State) (d c data n : Nat) : Span × State :=
  if n = 0 then ({}, s)
  else
    let units := ceilDiv n 64
    let id := s.nextReq
    let ps := (List.range (ceilDiv units 64)).map fun i => (64 * i, min 64 (units - 64 * i))
    let r : MemReq := { id := id, die := d, requester := ctrlWho, lane := loaderLane, addr := 0, units := units, write := true, data := data,
                        poison := 0, left := ps.length }
    ({ bytes := n, ids := [(0, id)] },
      ps.foldl (fun s p => s.send d (laneKey ctrlWho loaderLane) id (.section_ id p.1 p.2) [ringLeg 29 (stationOfCore c)]
        (blockLines p.2 (data / 2 ^ (512 * p.1)) 0)) { s with reqs := s.reqs ++ [r], nextReq := id + 1 })

/-- The contents of a section on their way: to Heartwood as writes of the Control station, else to a core (R27, R186). -/
def State.sendContents (s : State) (d : Nat) (x : Sec) (data : Nat) : Span × State :=
  if x.kind = 3 then
    s.ask { id := 0, die := d, requester := ctrlWho, lane := loaderLane, addr := 0, units := 0, write := true, data := data, poison := 0, left := 0 }
      (x.addr d) x.length
  else s.sendSection d x.core data x.length

/-- The loader begins an image that it has accepted: the job is loaded, and every section leaves patched (R27, R186, R187). -/
def State.beginLoad (s : State) (l : Load) : Load × State :=
  let m := imageOf l.bytes
  let a := m.secs.foldl (fun (a : List (Nat × Span) × State) x =>
    if x.kind ≤ 4 then
      (let (sp, t) := a.2.sendContents l.die x (m.patched l.die l.rank l.layout x); (a.1 ++ [(x.index, sp)], t)) else a)
    ([], { s with job := some (s.job.getD { id := l.job }) })
  ({ l with begun := true, spans := a.1 }, a.2)

/-- A section of which all has arrived: what its requests brought is written into its core; a kind-3 section already stands in memory. -/
def State.landSection (s : State) (d : Nat) (m : Image) (p : Nat × Span) : State :=
  let (y, s) := s.takeSpan p.2
  match m.secs.find? fun x => x.index == p.1 with
  | some x => s.writeSection d x y.data y.poison
  | none => s

/-- A die program loaded once its sections have arrived: bounds, schedule, apply and start (R186). -/
def State.install (s : State) (job d rank : Nat) (layout : List Nat) (points : List (Fin 8)) (m : Image) : State :=
  let j := s.job.getD { id := job }
  let p : LoadedProg := { digest := m.digest, hinted := m.hinted, debug := m.debug, arrays := (List.range 4).map m.arrays,
                          act := m.act, ckpt := m.ckpt, gpool := bitsOf m.hdr 320 16, ret := bitsOf m.hdr 336 16, tick := s.tick }
  let j := if m.backfill then { j with backs := Sparse.put noProg j.backs d (some p) }
    else { j with mains := Sparse.put noProg j.mains d (some p) }
  let j := { j with layout := Sparse.put (fun _ => []) j.layout d layout, rank := rank }
  let s := { s with job := some j }
  let bs := m.bounds d
  let s := (List.range 24).foldl (fun s c => s.onCore d c fun x =>
    if m.backfill then { x with boundsB := bs } else { x with bounds := bs }) s
  let s := (if m.backfill then s else s.writeSched d m).applyCores d
  let s := if m.backfill then s else s.startQuarters d points
  engineCores.foldl (fun s c =>
    if m.backfill then (match m.ofCore 0 c with | [] => s | x :: _ => s.startBack d c x.dst (m.grantsOf c))
    else if m.runsOn c then s.startMain d c else s) s

/-- The images before the loader. -/
def State.setLoads (s : State) (l : List Load) : State := { s with mgmt := { s.mgmt with loads := l } }

/-- The loader goes on with the images before it, one at a time: it checks the oldest, sends its sections, and starts the program once all have
arrived, and reports to its caller (R186, R189). -/
def State.loaderGo (s : State) : (fuel : Nat) → State
  | 0 => s
  | fuel + 1 =>
      match s.mgmt.loads with
      | [] => s
      | l :: rest =>
          if l.begun then
            if l.spans.all fun p => s.spanDone p.2 then
              let t := l.spans.foldl (fun s p => s.landSection l.die (imageOf l.bytes) p) s
              let t := (t.install l.job l.die l.rank l.layout l.points (imageOf l.bytes)).setLoads rest
              State.loaderGo { t with out := t.out ++ [.loader 0 l.die none] } fuel
            else s
          else
            match s.loadCheck l.job l.die l.rank l.layout l.bytes with
            | some (code, index) => State.loaderGo { (s.setLoads rest) with out := s.out ++ [.loader code l.die index] } fuel
            | none => let (l, t) := s.beginLoad l; (t.setLoads (l :: rest)).loaderGo fuel

/-- The loader's work at a moment; it loads nothing unless the module is ready (R406). -/
def State.loaderTick (s : State) : State := if s.run = .ready then s.loaderGo (2 * s.mgmt.loads.length) else s

/-- LOAD_IMAGE: an image of a job that has reached the loader by the inbound mailbox (R381); the loader checks, patches, writes and starts it, all
or nothing, and reports to its caller (R186, R189). It loads nothing until the module is ready (R406). `points` are the pending points that it sets as
it starts the job, which the spec leaves to it (R255, log entry 44). -/
def execLoadImage (job : Nat) (d : Fin 8) (rank : Nat) (layout : List Nat) (points : List (Fin 8)) (bytes : List Byte) (s : State) : Out :=
  if s.run ≠ .ready ∨ s.mgmt.taken = 0 then .next s
  else
    .next (s.setLoads (s.mgmt.loads ++ [{ job := job, die := d, rank := rank, layout := layout, points := points, bytes := bytes }])).loaderTick

/-! ### Unloading -/

/-- Whether the first entry of a chain port waits for its tile. -/
def chinWaits : List UEntry → Bool
  | [] => false
  | e :: _ => e.started && !e.landed && e.instr.op == .chin

/-- A chain-in that still waits for its tile as its program ends: hazard kind 4 (R25, R195, R196). -/
def State.chinHazard (s : State) (d c u : Nat) : State :=
  match (s.core d c).unit u with
  | [] => s
  | e :: l =>
      match e.instr with
      | .chin _ _ _ _ _ bufLine tile => if chinWaits (e :: l) then s.hazard d c 4 tile bufLine 0 (s.phaseNow d (c / 6)) else s
      | _ => s

/-- Waits still pending when their program ends: hazard kind 4 (R25, R195). -/
def State.pendingWaits (s : State) (d c : Nat) : State :=
  (((s.waitHazard d c false).waitHazard d c true).chinHazard d c 3).chinHazard d c 7

/-- A core without a program. -/
def Core.unload (x : Core) : Core :=
  { x with prog := {}, backfill := none, window := none, suspended := false, units := [], withheld := [], stream := none, streamB := none, works := [], outQ := []
           rows := [], rowPoison := [], rowGens := [], epiOut := [], queues := [], bounds := [], boundsB := [], grants := [], halted := false, stalled := false }

/-- An image that the loader has begun is given up as its job is unloaded, with what is on its way (R186). -/
def State.dropLoads (s : State) : State :=
  let s := (s.mgmt.loads.filter fun l => l.begun).foldl (fun s l => l.spans.foldl (fun s p => p.2.ids.foldl (fun s i => s.dropReq i.2) s) s) s
  s.setLoads (s.mgmt.loads.filter fun l => !l.begun)

/-- Every program of the job unloaded, and its debug mode ended, unless the field is locked (R186, R369, R389, R403). -/
def State.unloadJob (s : State) : State :=
  if s.job.isNone then s
  else
    let s := s.dropLoads
    let s := (List.range 192).foldl (fun s n =>
      let d := n / 24
      let c := n % 24
      if isParting c then
        let s := s.onCore d c Core.unload
        (List.range 4).foldl (fun s h => if s.hartState d (c / 6) h = 1 then s.stopHart d (c / 6) h else s) s
      else
        let s := (s.pendingWaits d c).onCore d c Core.unload
        if s.progState d c = 1 then s.setProgState d c 0 else s) s
    allQuarters.foldl (fun s p =>
      if s.flag p.1 (qBlk p.2) 0x00C 0 then s
      else
        let s := s.setFlag p.1 (qBlk p.2) 0x180 1 false
        { s with staged := Sparse.put noStage s.staged (rkey p.1 (qBlk p.2) 0x180) none }) { s with job := none }

/-- JOB_UNLOAD: the run-time unloads the job's programs (R186). -/
def execJobUnload (s : State) : Out := .next s.unloadJob

end Sys2Proof.Machine
end

