-- ==== Sys2Proof/Machine/Power.lean ====
section
/-!
DEFINITION. The regulator alert, the Governors, the power exchange, trips and the input (chapter 11).
-/
namespace Sys2Proof.Machine

/-! ### The regulator alert -/

/-- Whether the alert is in force, `GOV.ALERT.ACTIVE`. -/
def State.alertOn (s : State) : Bool := s.flag 24 0 0x188 0

/-- The undervoltage source with its hysteresis, in mV (R278). -/
def vinLowNow (before : Bool) (vin : Nat) : Bool := decide (vin < 48500) || (before && decide (vin ≤ 49500))

/-- The sources of Table 11.5 that a sample shows, as a mask in the order of the table; the last is active from GOVERNOR_MISSING on
(R281). -/
def State.alertSources (s : State) (f : SupplySample) : Nat :=
  b2n f.carrierLow + b2n (vinLowNow s.gov.vinLow f.vin) * 2 + b2n (decide (f.ibc < 6000)) * 4 +
    b2n (decide (140000 < f.iin) || f.stageOver) * 8 + b2n f.stageHot * 16 + b2n (bitOf s.gov.srcNow 5) * 32

/-- A rising edge of the alert is counted and recorded with its sources (R295). -/
def State.alertEdge (s : State) (src : Nat) : State := (s.bump 24 0 0x190 1).event 24 0 0 1 0 0x7F src

/-- The alert rises with sources `src` (R268, R295). -/
def State.raiseAlert (s : State) (src : Nat) : State :=
  let s := (s.setFlag 24 0 0x188 0 true).setFld 24 0 0x188 1 6 (s.fld 24 0 0x188 1 6 ||| src)
  let s := s.alertEdge src
  let s := { s with gov := { s.gov with srcNow := src, clearAt := none } }
  (s.kAllOne).allToS0 true

/-- Whether `RESET_N` was sampled low for the second time in the present tick: events sampled in it are recorded, and their responses are not
carried out (R432). -/
def State.resetNow (s : State) : Bool := s.run == .pinReset && s.boot.stepAt == s.tick

/-- REGULATOR_ALERT: the first sample with a source active holds every k_d at 1 and carries every quarter to S0 (R295, R432). -/
def execRegulatorAlert (f : SupplySample) (s : State) : Out :=
  let src := s.alertSources f
  if s.resetNow && src != 0 then .next (s.event 24 0 0 1 0 0x7F src)
  else if s.powered && src != 0 && !s.alertOn then
    .next ({ s with gov := { s.gov with vinLow := vinLowNow s.gov.vinLow f.vin } }.raiseAlert src)
  else .next s

/-- ALERT_SOURCE_CHANGE: a sample while the alert is in force; the first with every source inactive starts the clear
interval, and a source active again ends it and is another rising edge (R295, R296). -/
def execAlertSourceChange (f : SupplySample) (s : State) : Out :=
  if s.powered && s.alertOn then
    let src := s.alertSources f
    let s := s.setFld 24 0 0x188 1 6 (s.fld 24 0 0x188 1 6 ||| src)
    let s := if s.gov.srcNow = 0 ∧ src ≠ 0 then s.alertEdge src else s
    let at_ := if src ≠ 0 then none else match s.gov.clearAt with | some t => some t | none => some s.tick
    let s := { s with gov := { s.gov with vinLow := vinLowNow s.gov.vinLow f.vin, srcNow := src, clearAt := at_ } }
    .next (if src ≠ 0 then s.setRg 24 0 0x18C 0 else s)
  else .next s

/-- Ticks of the alert-clear interval (R296). -/
def clearTicks : Nat := 100000

/-- Whether the alert-clear interval has ended (R296). -/
def State.clearDone (s : State) : Bool :=
  match s.gov.clearAt with
  | some t => s.alertOn && decide (t + clearTicks ≤ s.tick)
  | none => false

/-- ALERT_CLEAR_INTERVAL_END: the interval of 100,000 ticks ends (R296). -/
def execAlertClearIntervalEnd (s : State) : Out :=
  .next (if s.clearDone then s.setFld 24 0 0x18C 0 17 clearTicks else s)

/-- The alert is released: every quarter goes to its pending point, and the next boundary's k_d take effect, not those computed before
(R296). -/
def State.releaseAlert (s : State) : State :=
  let s := (s.setFlag 24 0 0x188 0 false).setRg 24 0 0x18C 0
  let s := { s with gov := { s.gov with clearAt := none, nextK := none } }
  allQuarters.foldl (fun s p =>
    let s := s.setFlag p.1 (qBlk p.2) 0x108 9 false
    if s.pendValid p.1 p.2 then s.requestPoint p.1 p.2 (s.pendPt p.1 p.2) else s) s

/-- A write of `GOV.ALERT` on HS0 (R296, R301). -/
def State.wAlert (s : State) (v : W32) : State :=
  let s := s.writeAcc 24 0 0x188 v
  if v.getLsbD 7 && s.alertOn then
    if s.clearDone then s.releaseAlert else s.setFld 24 0 0x188 8 8 (min 255 (s.fld 24 0 0x188 8 8 + 1))
  else s

/-- ALERT_RELEASE: writing `GOV.ALERT.RELEASE` after the clear interval releases the alert; an early write is counted and
ignored (R296). -/
def execAlertRelease (v : W32) (s : State) : Out := .next (if s.inReset then s else s.wAlert v)

/-! ### Sharing -/

/-- K divided by the shares (R292): one pass over dies above their ceilings, the excess going to the others. -/
def spreadExcess (u ceil : List Nat) : Nat → List Nat → List Nat → List Nat
  | 0, _, k => k
  | n + 1, capped, k =>
      let above := (List.range 8).filter fun d => decide (ceil.getD d 0 < k.getD d 0)
      if above = [] then k
      else
        let excess := above.foldl (fun a d => a + (k.getD d 0 - ceil.getD d 0)) 0
        let capped := capped ++ above
        let others := (List.range 8).filter fun d => !capped.contains d
        let tot := others.foldl (fun a d => a + u.getD d 0) 0
        spreadExcess u ceil n capped ((List.range 8).map fun d =>
          if above.contains d then ceil.getD d 0
          else if capped.contains d || tot == 0 then k.getD d 0
          else k.getD d 0 + excess * u.getD d 0 / tot)

/-- Dies in the order of the leftover pass: largest share first, ties to the lower die (R292). -/
def shareOrder (u : List Nat) : List Nat :=
  (List.range 8).mergeSort fun a b => decide (u.getD b 0 < u.getD a 0) || (u.getD a 0 == u.getD b 0 && decide (a ≤ b))

/-- One unit to each die in order that is below its ceiling, while units remain. -/
def leftoverPass (ceil : List Nat) : List Nat → Nat × List Nat → Nat × List Nat
  | [], a => a
  | d :: ds, (left, k) =>
      if 0 < left ∧ k.getD d 0 < ceil.getD d 0 then leftoverPass ceil ds (left - 1, k.set d (k.getD d 0 + 1))
      else leftoverPass ceil ds (left, k)

/-- The leftover pass repeated; `n` bounds the repetitions. -/
def leftovers (ceil order : List Nat) : Nat → Nat × List Nat → List Nat
  | 0, a => a.2
  | n + 1, a => if a.1 = 0 then a.2 else leftovers ceil order n (leftoverPass ceil order a)

/-- The k_d of an issue budget K under shares in proportion to `u` and thermal ceilings `h` (R292). -/
def divideK (K : Nat) (u h : List Nat) : List Nat :=
  let tot := u.foldl (· + ·) 0
  let ceil := h.map fun x => min 64 x
  let k := (List.range 8).map fun d => max 1 (K * u.getD d 0 / tot)
  let k := spreadExcess u ceil 8 [] k
  leftovers ceil (shareOrder u) 64 (K - k.foldl (· + ·) 0, k)

/-- The new issue budget from the mean power, a fraction, and the effective cap (R285); a mean below 1 W is taken as 1 W. -/
def updateK (k : Nat) (p : Nat × Nat) (c : Nat) : Nat :=
  let (p, n) := if p.1 < p.2 then (1, 1) else p
  if c * n < p then max 8 (k * (c * n) / p) else min 512 (k + max 1 (k * (c * n - p) / (4 * p)))

/-- The new thermal ceiling from the Tj of the window just ended (R299). -/
def updateCeil (h tj : Nat) : Nat :=
  if 95 ≤ tj then max 1 (h - 8) else if tj < 93 then min 64 (h + 4) else h

/-! ### The Governor period -/

/-- Whether a hint makes its quarter heavy at boundary `t` (R290). -/
def Hint.heavy (h : Hint) (t : Nat) : Bool :=
  !h.light && decide (h.start < h.stop) && decide (h.start < t + 30000) && decide (t + 2000 ≤ h.stop)

/-- The point requests of a period: each quarter in hinted mode whose choice differs from its pending or current point
(R290). -/
def State.pointRequests (s : State) : List (Nat × Nat) :=
  if s.job.isNone then []
  else
    allQuarters.filterMap fun p =>
      if s.counted p.1 p.2 then none
      else
        let heavy := (s.quarter p.1 p.2).hints.any fun c => match c.2 with | some h => h.heavy s.tick | none => false
        let want := if heavy then s.fld 24 0 0x1A0 0 3 else s.fld 24 0 0x1A0 3 3
        let now := if s.pendValid p.1 p.2 then s.pendPt p.1 p.2 else s.curPt p.1 p.2
        if want = now then none else some (4 * p.1 + p.2, want)

/-- `C_eff` from the set cap and Δ (R286). -/
def State.capEff (s : State) : Nat := ((s.fld 24 0 0x104 0 13 : Nat) + s.gov.delta).toNat

/-- Registers of the Governor page that take effect at a period boundary, and at an exchange interval (R301). -/
def State.commitGov (s : State) : State :=
  let s := [0x104, 0x10C, 0x1A0].foldl (fun s off => s.commit 24 0 off) s
  if s.tick % 1000000 = 0 then [0x1A8, 0x1AC, 0x1B0].foldl (fun s off => s.commit 24 0 off) s else s

/-- Mean input power of the measurement window just ended, as a fraction; the held sample's where the window holds no sample (R283). -/
def Gov.meanPower (g : Gov) : Nat × Nat := if g.powN = 0 then (g.sample, 1) else (g.powSum, g.powN)

/-- The measurements of the window just ended enter the Governor registers, and the next window starts (R283). -/
def State.measured (s : State) : State :=
  let g := s.gov
  let mean (sum : Nat) : Nat := min 65535 (sum / max 1 g.powN)
  let s := s.setRg 24 0 0x114 (BitVec.ofNat 32 (min 65535 (g.meanPower.1 / g.meanPower.2) + mean g.vinSum * 2 ^ 16))
  let s := s.setFld 24 0 0x118 0 16 (mean g.iinSum)
  { s with gov := { g with powSum := 0, vinSum := 0, iinSum := 0, powN := 0, hot := [] } }

/-- Whether the thermistor's resistance lies outside its limits, 1.45 kΩ and 28.7 kΩ: as of a short, of an open line, or with none fitted (R433). -/
def carrierBad (f : SensorSample) : Bool := decide (f.carrierOhms < 1450) || decide (28700 < f.carrierOhms)

/-- `GOV.COOL.CARRIER`: a thermistor outside its limits reads 0xFF (R433). -/
def carrierShown (f : SensorSample) : Nat := if carrierBad f then 255 else min 254 f.carrier

/-- The sensors of a tick: the registers show them, and the window keeps each Lathe die's highest Tj (R297 to R299, R301). -/
def State.senses (s : State) (f : SensorSample) : State :=
  let top (zs : List Nat) : Nat := min 255 (zs.foldl (fun m z => max m (hottest f z)) 0)
  let sw := min 255 (f.sapwood.foldl (fun m p => max m p.2) 0)
  let s := (List.range 8).foldl (fun s d => s.setFld 24 0 (0x160 + 4 * d) 0 8 (min 255 (dieTj f d))) s
  let s := s.setRg 24 0 0x180 (BitVec.ofNat 32 (top [24, 25] + top [26, 27] * 2 ^ 8 + top [28, 29, 30, 31] * 2 ^ 16 + sw * 2 ^ 24))
  let s := s.setRg 24 0 0x184 (BitVec.ofNat 32 (min 255 f.inlet + min 255 f.outlet * 2 ^ 8 + carrierShown f * 2 ^ 16 +
    b2n (f.leakLow || f.leakTwice || f.wet) * 2 ^ 24))
  let s := if 40 < f.inlet then s.setFlag 24 0 0x110 3 true else s
  let old := s.gov.hot
  { s with gov := { s.gov with
    sensors := f
    hot := if s.tick % 10000 < 500 then old else (List.range 8).map fun d => max (old.getD d 0) (dieTj f d) } }

/-- Δ set, with `GOV.XCHG_DELTA` and `GOV.CAP_EFF` (R286, R293). -/
def State.setDelta (s : State) (z : Int) : State :=
  let s := { s with gov := { s.gov with delta := z } }
  (s.setFld 24 0 0x1B4 0 16 (fromSigned 16 z)).setFld 24 0 0x108 0 13 s.capEff

/-- Whether the power exchange runs (R293, R301). -/
def State.exchanging (s : State) : Bool := s.flag 24 0 0x10C 2 && s.fld 24 0 0x1B0 0 4 != 0

/-- The thermal ceilings stepped from the Tj of the window (R299). -/
def State.stepCeilings (s : State) (tj : List Nat) : State :=
  let s := (List.range 8).foldl (fun s d =>
    s.setFld 24 0 (0x160 + 4 * d) 8 7 (updateCeil (s.fld 24 0 (0x160 + 4 * d) 8 7) (tj.getD d 0))) s
  if (List.range 8).any fun d => decide (s.fld 24 0 (0x160 + 4 * d) 8 7 < 64) then
    (s.setFlag 24 0 0x110 2 true).bump 24 0 0x198 1
  else s

/-- The results of a period boundary: K, the k_d and the point requests (R285, R287, R290, R292, R299). -/
def State.governorLoop (s : State) (p : Nat × Nat) (tj : List Nat) (capBefore : Nat) : State :=
  let k0 := s.fld 24 0 0x128 0 10
  let ones := (List.range 8).all fun d => s.kd d == 1
  let unmet := if !(ones && decide (capBefore * p.2 < p.1)) then 0 else if s.alertOn then s.gov.unmet else s.gov.unmet + 1
  let k := if s.alertOn then k0 else updateK k0 p (s.fld 24 0 0x108 0 13)
  let s := (s.setFld 24 0 0x128 0 10 k).stepCeilings tj
  let h := (List.range 8).map fun d => s.fld 24 0 (0x160 + 4 * d) 8 7
  let u := if s.flag 24 0 0x10C 1 then s.gov.shareU else List.replicate 8 1
  let tot := u.foldl (· + ·) 0
  let s := (List.range 8).foldl (fun s d => s.setFld 24 0 (0x140 + 4 * d) 16 16 (min 65535 (u.getD d 0 * 65536 / tot))) s
  { s with gov := { s.gov with
    unmet := unmet
    nextK := some (divideK k u h)
    nextAt := s.tick
    nextPts := s.pointRequests
    missed := 0 } }

/-- Ticks of a Governor period (R282). -/
def govPeriod : Nat := 10000

/-- GOVERNOR_PERIOD: at each period boundary the Governors update K, the k_d, the ceilings and the hinted points, and a
donor applies its cut (R281, R285 to R287, R290, R292, R293, R299). -/
def execGovernorPeriod (s : State) : Out :=
  if s.powered && s.tick % govPeriod == 0 then
    let capBefore := s.fld 24 0 0x108 0 13
    let p := s.gov.meanPower
    let tj := if s.gov.hot = [] then (List.range 8).map s.tjOf else s.gov.hot
    let s := (s.commitGov).measured
    let s := if s.exchanging then
        (match s.gov.pendingCut with
          -- a cut computed in this very tick waits for the boundary after it (R293)
          | some z => if s.tick = 1000000 * s.gov.targetsOf + 500000 then s.setDelta s.gov.delta
              else { s with gov := { s.gov with pendingCut := none } }.setDelta z
          | none => s.setDelta s.gov.delta)
      else { s with gov := { s.gov with pendingCut := none } }.setDelta 0
    let a0 := s.gov.alive0
    let a1 := s.gov.alive1
    let s := (s.setFld 24 0 0x100 1 2 (b2n a0 + b2n a1 * 2)).setFld 25 0 0x100 1 2 (b2n a1 + b2n a0 * 2)
    if a0 || a1 then .next (s.governorLoop p tj capBefore)
    else .next { s with gov := { s.gov with missed := s.gov.missed + 1, nextK := none, nextPts := [] } }
  else .next s

/-- GOVERNOR_RESULTS_EFFECT: the results take effect 500 ticks after the period start, unless an alert or the Quiesced state
holds every k_d at 1 (R282, R295, R407). -/
def execGovernorResultsEffect (s : State) : Out :=
  if s.powered && decide (s.gov.nextAt + 500 ≤ s.tick) then
    let g := s.gov
    let s := { s with gov := { g with nextK := none, nextPts := [] } }
    let s := match g.nextK with
      | some ks => if s.alertOn || s.run == .quiesced then s else (List.range 8).foldl (fun s d => s.setKd d (ks.getD d 1)) s
      | none => s
    .next (g.nextPts.foldl (fun s p => s.wOpReq (p.1 / 4) (p.1 % 4) (BitVec.ofNat 32 p.2)) s)
  else .next s

/-- SHARE_UPDATE: every 100,000 ticks each die's share follows from its wait share (R292). -/
def execShareUpdate (s : State) : Out :=
  if s.powered && s.tick % 100000 == 0 then
    let cyc (d : Nat) : Nat := Sparse.get nat0 s.gov.coreCyc d
    let wait (d : Nat) : Nat := min (cyc d) (Sparse.get nat0 s.gov.waitCyc d)
    let den (d : Nat) : Nat := if cyc d = 0 then 16 else 16 * cyc d
    let num (d : Nat) : Nat := if cyc d = 0 then 16 else max (cyc d) (16 * (cyc d - wait d))
    let prod := (List.range 8).foldl (fun a d => a * den d) 1
    let u := (List.range 8).map fun d => num d * (prod / den d)
    let w := (List.range 8).map fun d => if cyc d = 0 then 0 else wait d * 65536 / cyc d
    let share := if s.flag 24 0 0x10C 1 then u else List.replicate 8 1
    let tot := share.foldl (· + ·) 0
    let s := (List.range 8).foldl (fun s d =>
      s.setRg 24 0 (0x140 + 4 * d) (BitVec.ofNat 32 (min 65535 (w.getD d 0) + min 65535 (share.getD d 0 * 65536 / tot) * 2 ^ 16))) s
    let g := { s.gov with
      shareU := u, waitCyc := [], coreCyc := []
      waitSum := s.gov.waitSum + w.foldl (· + ·) 0
      waitN := s.gov.waitN + 8 }
    .next { s with gov :=
      if s.tick % 1000000 = 0 then { g with waitSum := 0, waitN := 0, lastWait := min 65535 (g.waitSum / g.waitN) } else g }
  else .next s

/-- CAP_UNMET: an unmet-cap interval that reaches 200 periods sets `CAP_UNMET` (R287). -/
def execCapUnmet (s : State) : Out := .next (if s.powered && decide (200 ≤ s.gov.unmet) then s.setFlag 24 0 0x110 1 true else s)

/-- A write of `GOV.CAP.WATTS`, clamped (R286). -/
def State.wCap (s : State) (v : W32) : State :=
  let w := v.toNat % 2 ^ 13
  let c := max 2000 (min 6000 w)
  let s := s.writeAcc 24 0 0x104 (BitVec.ofNat 32 c)
  if c = w then s else s.setFlag 24 0 0x110 0 true

/-- GOV_CAP_WRITE: a write of `GOV.CAP.WATTS` sets the cap from the next period (R286). -/
def execGovCapWrite (v : W32) (s : State) : Out := .next (if s.inReset then s else s.wCap v)

/-- GOV_FAIL: a lockstep mismatch stops a Governor pair as contained (R281). -/
def execGovFail (g : Fin 2) (s : State) : Out :=
  let alive := if g.val = 0 then s.gov.alive0 else s.gov.alive1
  if s.powered && alive then
    let s := { s with gov := if g.val = 0 then { s.gov with alive0 := false } else { s.gov with alive1 := false } }
    .next ((s.setFlag 24 0 0x110 5 true).event (24 + g) 0 1 0 0 0x7F 0)
  else .next s

/-- GOVERNOR_MISSING: no results for 3 periods raises the alert with source `GOV` and quiesces the module (R281). -/
def execGovernorMissing (s : State) : Out :=
  if s.powered && decide (3 ≤ s.gov.missed) && !bitOf s.gov.srcNow 5 then
    let s := if s.alertOn then
        (let t := if s.gov.srcNow = 0 then s.alertEdge 32 else s
         { (t.setFld 24 0 0x188 1 6 (t.fld 24 0 0x188 1 6 ||| 32)).setRg 24 0 0x18C 0 with
           gov := { t.gov with srcNow := t.gov.srcNow ||| 32, clearAt := none } })
      else s.raiseAlert 32
    .next (s.eventQuiesce 24 0 1 0x7F 32 2 0)
  else .next s

/-- POWER_SAMPLE: every 100 ticks the input power is sampled for `GOV.ENERGY` and, in the measurement window, for the means of the
Governor registers (R282, R283). -/
def execPowerSample (f : PowerFacts) (s : State) : Out :=
  if s.powered && s.tick % 100 == 0 then
    let g := { s.gov with sample := f.power }
    .next { s with gov :=
      if s.tick % govPeriod < 500 then g
      else { g with powSum := g.powSum + f.power, vinSum := g.vinSum + f.vin, iinSum := g.iinSum + f.iin, powN := g.powN + 1 } }
  else .next s

/-- One tick of energy: the sample's power times 10 ns (R283). -/
def State.energyTick (s : State) : State :=
  let f := s.gov.frac + s.gov.sample
  { s with gov := { s.gov with frac := f % 100000 } }.bump 24 0 0x120 (f / 100000)

/-! ### The exchange -/

/-- A CAP_STATUS payload (Table 11.4). -/
def CapStatus.bits (c : CapStatus) : Nat :=
  c.interval % 2 ^ 32 + c.rank * 2 ^ 32 + c.wait * 2 ^ 48 + c.capSet * 2 ^ 64 + fromSigned 16 c.delta * 2 ^ 80

/-- The exchange interval before tick `t`'s, modulo 2^32. -/
def lastInterval (t : Nat) : Nat := (t / 1000000 + 2 ^ 32 - 1) % 2 ^ 32

/-- A status sent to a member: CE0 reads its endpoint record in the exchange rank table, and the message goes there (R110, R293). -/
def State.sendStatus (s : State) (r me : Nat) (c : CapStatus) : State :=
  let (x, s) := s.ceRead 0 (s.pair 24 0 0x1A8 % 2 ^ 48 + 256 * r) 32
  s.addJob 0 [x] (.send r { tag := 0, step := 0, dest := 0, me := me, body := .ctrl 1 (BitVec.ofNat 256 c.bits) })

/-- CAP_STATUS_SEND: at tick 1,000,000m + 10,000 each member sends its status of interval m − 1 to every other (R293). -/
def execCapStatusSend (s : State) : Out :=
  if s.powered && s.exchanging && s.tick % 1000000 == 10000 then
    let me := s.fld 24 0 0x1B0 4 12
    let n := s.fld 24 0 0x1B0 0 4 + 1
    let c : CapStatus := ⟨lastInterval s.tick, me, s.gov.lastWait,
      s.fld 24 0 0x104 0 13, s.gov.delta⟩
    let s := ((List.range n).filter fun r => r != me).foldl (fun s r => s.sendStatus r me c) s
    .next { s with gov := { s.gov with statuses := (s.gov.statuses.filter fun x => x.rank != me) ++ [c] } }
  else .next s

/-- The status that a payload holds; none where R294 discards it. -/
def State.readStatus (s : State) (w : BitVec 256) : Option CapStatus :=
  let n := w.toNat
  let c : CapStatus := ⟨bitsOf n 0 32, bitsOf n 32 12, bitsOf n 48 16, bitsOf n 64 13, toSigned 16 (bitsOf n 80 16)⟩
  if bitsOf n 44 4 = 0 ∧ bitsOf n 77 3 = 0 ∧ n / 2 ^ 96 = 0 ∧ c.interval = lastInterval s.tick ∧
      c.rank ≤ s.fld 24 0 0x1B0 0 4 then some c else none

/-- CAP_STATUS: the oldest status that has reached CE0 is relayed to the Governors, or discarded if malformed (R293, R294). -/
def execCapStatus (s : State) : Out :=
  let n := s.net 0
  match n.ctrl with
  | [] => .next s
  | payload :: rest =>
      if s.powered then
        let s := s.setNet 0 { n with ctrl := rest }
        match s.exchanging, s.readStatus payload with
        | true, some c => .next { s with gov := { s.gov with statuses := (s.gov.statuses.filter fun x => x.rank != c.rank) ++ [c] } }
        | _, _ => .next s
      else .next s

/-- The exchange targets of `n` members from their statuses in rank order (R293). -/
def exchangeTargets (sts : List CapStatus) : List Int :=
  let n := sts.length
  let tot := sts.foldl (fun a c => a + c.wait) 0
  let cut (c : CapStatus) : Nat :=
    min (min (ceilDiv (3 * c.capSet) 20) (ceilDiv ((c.wait * n - tot) * c.capSet) (65536 * n))) (c.capSet - 2000)
  let weight (c : CapStatus) : Nat := (tot - c.wait * n) * c.capSet
  let d := sts.foldl (fun a c => if tot < c.wait * n then a + cut c else a) 0
  let v := sts.foldl (fun a c => a + weight c) 0
  sts.map fun c =>
    if tot < c.wait * n then -((cut c : Nat) : Int)
    else if c.wait * n < tot then ((min (min (3 * c.capSet / 20) (6000 - c.capSet)) (d * weight c / v) : Nat) : Int)
    else 0

/-- EXCHANGE_TARGETS: at tick 1,000,000m + 500,000 a receiver applies its rise of the interval before if every donor shows
its cut, and each member computes the targets of this interval (R293, R294). -/
def execExchangeTargets (s : State) : Out :=
  if s.powered && s.exchanging && s.tick % 1000000 == 500000 then
    let m := s.tick / 1000000
    let me := s.fld 24 0 0x1B0 4 12
    let n := s.fld 24 0 0x1B0 0 4 + 1
    let sts := (List.range n).filterMap fun r => s.gov.statuses.find? fun c => c.rank == r && c.interval == lastInterval s.tick
    if sts.length < n then
      let s := (s.setFlag 24 0 0x110 4 true).setDelta (min s.gov.delta 0)
      .next { s with gov := { s.gov with targets := [], targetsOf := m, statuses := [], pendingCut := none } }
    else
      let old := s.gov.targets
      let mine := old.getD me 0
      let s := if old ≠ [] ∧ s.gov.targetsOf + 1 = m ∧ 0 ≤ mine then
          let shown := (List.range n).all fun i => decide (0 ≤ old.getD i 0) ||
            (match sts[i]? with | some c => decide (c.delta ≤ old.getD i 0) | none => false)
          s.setDelta (if shown then mine else min s.gov.delta 0)
        else s
      let ts := exchangeTargets sts
      let t := ts.getD me 0
      .next { s with gov := { s.gov with
        targets := ts, targetsOf := m, statuses := []
        pendingCut := if t < 0 then some t else none } }
  else .next s

/-! ### The input and trips -/

/-- Conversion stops and the module is unpowered (R278, R279). -/
def State.powerOff (s : State) : State := s.enterHold .unpowered

/-- VIN_OVER: input above 60 V stops conversion (R278); millivolts. -/
def execVinOver (mv : Nat) (s : State) : Out := .next (if 60000 < mv then s.powerOff else s)

/-- POWER_LOSS: input below 44 V for 100 µs stops conversion (R278); millivolts and the ticks it has lasted. -/
def execPowerLoss (mv ticks : Nat) (s : State) : Out := .next (if mv < 44000 ∧ 10000 ≤ ticks then s.powerOff else s)

/-- OVERCURRENT_STOP: input above 155 A for 10 µs stops conversion (R279); milliamperes and the ticks it has lasted. -/
def execOvercurrentStop (ma ticks : Nat) (s : State) : Out := .next (if 155000 < ma ∧ 1000 ≤ ticks then s.powerOff else s)

/-- The causes of a trip that a sample shows: junction, coolant, leak (R300, `GOV.TRIP`). -/
def tripCauses (f : SensorSample) : Nat :=
  b2n ((f.junction ++ f.sapwood).any fun p => decide (105 ≤ p.2)) + b2n (decide (45 < f.inlet) || decide (45 < f.carrier) || carrierBad f) * 2 +
    b2n (f.leakTwice || f.wet) * 4

/-- Die and block that the record of a trip names (R411; DEDUCED, log entry 54): a junction trip lies on the hot die as a whole, another trip at the
Governor's page. -/
def tripPlace (f : SensorSample) : Nat × Nat :=
  match (f.junction ++ f.sapwood).find? fun p => decide (105 ≤ p.2) with
  | some p => (p.1, 0xFFF)
  | none => (24, 0)

/-- The module quiesces in the first tick in which a cause of a trip holds, and `GOV.TRIP` records that tick's causes (R300). -/
def State.tripNow (s : State) : State :=
  let f := s.gov.sensors
  if tripCauses f = 0 || s.fld 24 0 0x1B8 0 3 != 0 then s
  else
    let (die, block) := tripPlace f
    let s := s.setFld 24 0 0x1B8 0 3 (tripCauses f)
    (if block = 0 then s else s.setFld 24 0 0x1B8 3 5 die).eventQuiesce die block 2 0x7F (tripCauses f) 2 0

/-- TRIP: a tick's sample of the sensors; a junction, coolant or leak trip quiesces the module (R298, R300). In the tick in which `RESET_N` is sampled
low for the second time it is recorded alone (R432). -/
def execTrip (f : SensorSample) (s : State) : Out :=
  if s.powered then .next (s.senses f).tripNow
  else if s.run = .unpowered then .next s
  else
    let t := { s with gov := { s.gov with sensors := f } }
    let (die, block) := tripPlace f
    .next (if s.resetNow && tripCauses f != 0 && tripCauses s.gov.sensors == 0 then t.event die block 2 2 2 0x7F (tripCauses f) else t)

end Sys2Proof.Machine
end

