-- ==== Sys2Proof/Machine/RegCmds.lean ====
section
/-!
DEFINITION. The register bus: every register write with its effect, the views, and the accesses of harts outside their core
(R149, R358 to R369, R397, R400, R420).
-/
namespace Sys2Proof.Machine

/-! ### Register writes -/

/-- A write of `ROOT.JTAG_UNLOCK` (R397, R399). -/
def State.wJtag (s : State) (v : W32) : State :=
  if v.getLsbD 0 && s.debugOpen then s.setFlag 24 1 0x100 6 true else s

/-- A write of `MGMT.HRX_BASEn` or `HRX_SIZEn` sets the ring's head and tail to 0 (R400). -/
def State.wHrx (s : State) (off : Nat) (v : W32) : State :=
  let base := if off < 0x160 then 0x140 else 0x160
  let s := s.writeAcc 24 3 off v
  if off % 0x20 ≤ 8 then (s.setRg 24 3 (base + 12) 0).setRg 24 3 (base + 16) 0 else s

/-- A write of `ELOG.WDOG` (R420): `PERIOD` is kept once the watchdog is armed; arming or kicking it starts its period. -/
def State.wWdog (s : State) (v : W32) : State :=
  let armed := s.flag 24 5 0x18C 0
  let t := s.writeAcc 24 5 0x18C v
  let t := if armed then t.setFld 24 5 0x18C 1 8 (s.fld 24 5 0x18C 1 8) else t
  if (v.getLsbD 0 && !armed) || v.getLsbD 9 then { t with boot := { t.boot with kicked := t.tick } } else t

/-- A write of `QCLK.SCHED`: `DEBUG` keeps its value while no debug session is open (R389). -/
def State.wSched (s : State) (d q : Nat) (v : W32) : State :=
  if s.debugOpen then s.writeAcc d (qBlk q) 0x180 v
  else s.writeAcc d (qBlk q) 0x180 (BitVec.ofNat 32 (withBits v.toNat 1 1 (bitsOf (s.stagedOr d (qBlk q) 0x180).toNat 1 1)))

/-- A write of `FPP.MTU`, clamped (R330). -/
def State.wMtu (s : State) (z i : Nat) (v : W32) : State :=
  s.writeAcc z i 0x108 (BitVec.ofNat 32 (max 1500 (min 9216 (v.toNat % 2 ^ 14))))

/-- A write of `TICK.ADJ_FREQ` (R269, R270). -/
def State.wAdjFreq (s : State) (v : W32) : State :=
  { s.writeAcc 24 2 0x110 v with tickGen := { s.tickGen with sinceAdj := 0 } }

/-- A 4 B write that reaches the block of a page (R360, R364): registers whose write has an effect of its own, and by access code
the others. -/
def State.busWrite (s : State) (z i off : Nat) (v : W32) : State :=
  if s.inReset then s
  else if off = 0x010 then s.wBlkCtrl z i v
  else
    match pageType z i with
    | none => s
    | some .gouge => if off = 0x2C8 then s.wGougeChk z i v else s.writeAcc z i off v
    | some .skew => if off = 0x150 then s.wSkewChk z i v else s.writeAcc z i off v
    | some .part =>
        let q := i / 6
        if off = 0x104 then s.wHartCtrl z q v
        else if off = 0x180 then (s.writeAcc z i off v).logWindow z q
        else if off = 0x1B8 then (s.writeAcc z i off v).missWindow z q
        else s.writeAcc z i off v
    | some .bed =>
        if 0x180 ≤ off ∧ off ≤ 0x194 then s.wInject z i off v
        else if off = 0x134 then (if v.getLsbD 0 then s.setFld z i 0x130 0 8 0 else s)
        else s.writeAcc z i off v
    | some .qclk =>
        let q := i - 0x40
        if off = 0x104 then s.wOpReq z q v
        else if off = 0x144 then (if v.getLsbD 0 then s.setFld z i 0x140 0 16 0 else s)
        else if off = 0x180 then s.wSched z q v
        else s.writeAcc z i off v
    | some .ce => if off = 0x180 ∨ off = 0x184 then s.wFbBase z (off == 0x184) v else s.writeAcc z i off v
    | some .gov =>
        if z = 24 ∧ off = 0x104 then s.wCap v
        else if off = 0x188 then s.wAlert v
        else if off = 0x110 then s.writeAcc 24 i off v
        else s.writeAcc z i off v
    | some .tick =>
        if off = 0x108 then s.wTickCtrl v
        else if off = 0x110 then s.wAdjFreq v
        else if off = 0x114 then s.wAdjPhase v
        else if off = 0x144 then s.wSnapHi v
        else s.writeAcc z i off v
    | some .fpp =>
        let p := 26 * (z - 28) + i
        if off = 0x108 then s.wMtu z i v
        else if off = 0x188 then s.wSakSel p v
        else if 0x190 ≤ off ∧ off < 0x1C0 then s.wSak p off v
        else if 0x200 ≤ off ∧ off ≤ 0x214 then s.wInject z i off v
        else s.writeAcc z i off v
    | some .fpe =>
        if off = 0x150 then s.wTblSel (z - 28) v
        else if off = 0x19C then s.wTblData15 (z - 28) v
        else s.writeAcc z i off v
    | some .byp => if off = 0x104 then s.wBypCtrl (2 * (z - 28) + (i - 0x28)) v else s.writeAcc z i off v
    | some .root => if off = 0x188 then s.wJtag v else s.writeAcc z i off v
    | some .mgmt => if 0x140 ≤ off ∧ off < 0x180 then s.wHrx off v else s.writeAcc z i off v
    | some .apply => if off = 0x100 then s.wApply v.toNat else s.writeAcc z i off v
    | some .elog =>
        if off = 0x10C then (s.writeAcc z i off v).elogWindow
        else if off = 0x18C then s.wWdog v
        else s.writeAcc z i off v
    | some .hwc => s.writeAcc z i off v
    | some .swc => s.writeAcc z i off v
    | some .swcache => s.writeAcc z i off v

/-! ### Addresses and views -/

/-- Die, block index and offset of an offset in register space, and its view: 0 shadow, 1 snapshot, 2 through, 3 through snapshot
(R358, R359). Bit 29 set, or an index that Table 14.1 does not list, names no page. -/
def regDie (a : Nat) : Nat := bitsOf a 24 6
def regIndex (a : Nat) : Nat := bitsOf a 12 12
def regOff (a : Nat) : Nat := bitsOf a 0 12
def regView (a : Nat) : Nat := bitsOf a 30 2

/-- Whether a master has written a page since the last refresh of its shadow (R361). -/
def State.ownWrite (s : State) (master a : Nat) : Bool := !s.inReset && s.wrote.contains (master, rkey (regDie a) (regIndex a) 0)

/-- Whether a location is read from the shadow: in the shadow view, and outside the snapshot set in the snapshot view (R359, R370). -/
def readsShadow (a : Nat) : Bool :=
  match pageType (regDie a) (regIndex a) with
  | none => false
  | some p => regView a == 0 || (regView a == 1 && !inSnapSet p (regOff a))

/-- A 4 B read (R359, R361, R362, R370). -/
def State.busRead (s : State) (a : Nat) : W32 :=
  let z := regDie a
  let i := regIndex a
  let off := regOff a
  match pageType z i with
  | none => 0
  | some p =>
      let live := s.view.read s.inReset z i off
      if readsShadow a then s.shadow.read s.inReset z i off
      else if regView a ≠ 2 ∧ inSnapSet p off = true then s.readSnap z i off
      else live

/-- A 4 B write by a master: writes in the snapshot views are ignored (R359), and `SWC.CARVE` is written by an owner session alone, which
the management firmware, master 64, checks (R250). -/
def State.busStore (s : State) (master a : Nat) (v : W32) : State :=
  if regView a % 2 = 1 ∨ (master ≠ 64 ∧ pageType (regDie a) (regIndex a) = some .swc ∧ regOff a = 0x100) ∨ (pageType (regDie a) (regIndex a)).isNone = true ∨ s.inReset = true then s
  else
    let k := (master, rkey (regDie a) (regIndex a) 0)
    let t := s.busWrite (regDie a) (regIndex a) (regOff a) v
    { t with wrote := if t.wrote.contains k then t.wrote else t.wrote ++ [k] }

/-- An access of 4 B, or of 8 B as two of 4 B, low address first (R360). -/
def State.busLoad (s : State) (a : Nat) (wide : Bool) : Nat :=
  (s.busRead a).toNat + if wide then (s.busRead (a + 4)).toNat * 2 ^ 32 else 0
def State.busStores (s : State) (master a : Nat) (wide : Bool) (v : Nat) : State :=
  let s := s.busStore master a (BitVec.ofNat 32 v)
  if wide then s.busStore master (a + 4) (BitVec.ofNat 32 (v / 2 ^ 32)) else s

/-- Whether an access in a through view waits for a held quarter (R362). -/
def State.throughWaits (s : State) (a : Nat) : Bool :=
  decide (2 ≤ regView a) && (match quarterOf (regDie a) (regIndex a) with | some (d, q) => !s.qRuns d q | none => false)

/-- Whether a read waits: for a held quarter, or for the refresh that follows the master's own write (R361, R362). -/
def State.loadWaits (s : State) (master a : Nat) : Bool := s.throughWaits a || (readsShadow a && s.ownWrite master a)

/-- Whether a write waits (R362). -/
def State.storeWaits (s : State) (a : Nat) : Bool := s.throughWaits a && regView a == 2

/-- Whether a master is stalled by an access of its own; its next ones come after it (R362, R363). -/
def State.masterBusy (s : State) (master : Nat) : Bool := s.through.any fun x => x.master == master

/-- Masters: the Headstock cores 0 to 63, the management firmware, and the harts by 16 × die + 4 × quarter + hart (R360, R385). -/
def mgmtMaster : Nat := 64
def hartMaster (d q h : Nat) : Nat := 65 + 16 * d + 4 * q + h

/-- Whether an access may be carried out: naturally aligned (R360). -/
def regAligned (a : Nat) (wide : Bool) : Bool := a % (if wide then 8 else 4) == 0

/-- A write waits until it crosses (R362). -/
def State.holdThrough (s : State) (master a : Nat) (wide : Bool) (v : Nat) : State :=
  { s with through := s.through ++ [{ master := master, addr := a, wide := wide, value := v, since := s.tick }] }

/-- A write access by a master, after its earlier ones (R363). -/
def State.access (s : State) (master a : Nat) (wide : Bool) (v : Nat) : State :=
  if s.masterBusy master || s.storeWaits a then s.holdThrough master a wide v else s.busStores master a wide v

/-- A read access by a Headstock core, after its earlier accesses (R361 to R363). -/
def State.hsRead (s : State) (core a : Nat) (wide : Bool) : State :=
  if s.masterBusy core || s.loadWaits core a then
    { s with through := s.through ++ [{ master := core, addr := a, wide := wide, value := 0, since := s.tick, load := true }] }
  else { s with out := s.out ++ [Emit.hsDone core (regBase + a) false false (s.busLoad a wide) 0] }

/-- Whether a waiting access still waits. -/
def State.stillWaits (s : State) (x : ThroughAcc) : Bool := if x.load then s.loadWaits x.master x.addr else s.storeWaits x.addr

/-- A waiting access in its turn: carried out, or left to wait, and then its master's later ones wait too; the time of an access runs
from when it comes first (R362, R363). -/
def State.crossOne (acc : State × List Nat) (x : ThroughAcc) : State × List Nat :=
  let (s, blocked) := acc
  if blocked.contains x.master then ({ s with through := s.through ++ [{ x with since := s.tick }] }, blocked)
  else if s.stillWaits x then ({ s with through := s.through ++ [x] }, x.master :: blocked)
  else if x.load then (s.hsRead x.master x.addr x.wide, blocked)
  else (s.busStores x.master x.addr x.wide x.value, blocked)

/-- Waiting accesses reach their blocks in order as the quarters and shadows allow (R361 to R363). -/
def State.crossThrough (s : State) : State := (s.through.foldl State.crossOne ({ s with through := [] }, [])).1

/-- Ticks that an access of the through view waits at most (R362). -/
def throughLimit : Nat := 1000

/-- A Headstock core takes a precise access-fault exception (R380). -/
def State.hsFaults (s : State) (core : Nat) : State := { s with out := s.out ++ [Emit.hsFault core] }

/-- REGISTER_WRITE: a Headstock core writes a register; a misaligned access is not carried out and is a bus error (R360, R362, R364, R366,
R380). -/
def execRegisterWrite (core : Fin 64) (a : RegAccess) (s : State) : Out :=
  .next (if regAligned a.addr.toNat a.wide then s.access core a.addr.toNat a.wide a.value.toNat else s.hsFaults core)

/-- HRX_BASE_WRITE: a write of `HRX_BASEn` or `HRX_SIZEn` sets `HRX_HEADn` and `HRX_TAILn` to 0 (R400). -/
def execHrxBaseWrite (hs : Fin 2) (r : Fin 3) (v : W32) (s : State) : Out :=
  .next (if s.inReset then s else s.wHrx (0x140 + 0x20 * hs + 4 * r) v)

/-- WDOG_ARM: writing `ELOG.WDOG.EN` arms the watchdog with its period (R420). -/
def execWdogArm (period : BitVec 8) (s : State) : Out :=
  .next (if s.inReset then s else s.wWdog (BitVec.ofNat 32 (1 + period.toNat * 2)))

/-- WDOG_KICK: writing `ELOG.WDOG.KICK` restarts the period (R420). -/
def execWdogKick (s : State) : Out :=
  .next (if s.inReset then s else s.wWdog (BitVec.ofNat 32 (withBits (s.rg 24 5 0x18C).toNat 9 1 1)))

/-- Ticks of the watchdog's period: `PERIOD` × 100 ms, 0 as 1 (R420). -/
def State.wdogTicks (s : State) : Nat := max 1 (s.fld 24 5 0x18C 1 8) * 10000000

/-- Whether a period of the armed watchdog has ended without a kick (R420). -/
def State.watchdogOver (s : State) : Bool := s.flag 24 5 0x18C 0 && decide (s.boot.kicked + s.wdogTicks ≤ s.tick)

/-- WDOG_EXPIRE: a period without a kick puts the Headstock in doubt (R408, R420); the tick edge at which it ends does the same. -/
def execWdogExpire (s : State) : Out := .next (if !s.inReset && s.watchdogOver then s.holdInReset 24 0xFFF 0 0x7F 0 else s)

/-- JTAG_UNLOCK: writing `ROOT.JTAG_UNLOCK` opens internal test access while `DEBUG_OPEN` is set (R397). -/
def execJtagUnlock (v : W32) (s : State) : Out := .next (if s.inReset then s else s.wJtag v)

/-- Whether an access is one of R379: 1 to 8 B, or a 64 B-aligned block of whole 64 B within 4 KiB (DEDUCED from the requests of R228, log
entry 77). -/
def hsFormOk (a : HsAccess) : Bool :=
  (decide (1 ≤ a.bytes) && decide (a.bytes ≤ 8)) ||
    (decide (64 ≤ a.bytes) && a.bytes % 64 == 0 && a.addr.toNat % 64 == 0 && decide (a.addr.toNat % 4096 + a.bytes ≤ 4096))

/-- A Headstock core's access to register space (R360, R362). -/
def State.hsRegister (s : State) (core : Nat) (a : HsAccess) : State :=
  let r := a.addr.toNat - regBase
  let wide := a.bytes == 8
  if (a.bytes ≠ 4 ∧ a.bytes ≠ 8) ∨ regAligned r wide = false then s.hsFaults core
  else
    match a.store with
    | some v => s.access core r wide (v % 2 ^ (8 * a.bytes))
    | none => s.hsRead core r wide

/-- One request of a Headstock core to memory: through the Control station of the die that owns the Heartwood address, or to the Tailstock (R27,
R379). -/
def State.hsRequest (s : State) (core : Nat) (user : Bool) (addr bytes : Nat) (store : Option Nat) : State :=
  let small := decide (bytes ≤ 8)
  let units := if small then 1 else bytes / 64
  let data := store.getD 0 % 2 ^ (8 * bytes)
  let len := if small then bytes else 0
  match regionOf addr with
  | .heartwood e =>
      (s.issue { id := 0, die := e, requester := ctrlWho, lane := hsLane core user, addr := addr, units := units, write := store.isSome
                 data := data, poison := 0, bytes := len, left := 0 }).2
  | .sapwood t =>
      s.onTail t fun x => { x with queue := x.queue ++
        [{ write := store.isSome, addr := addr, units := units, na := false, data := data, poison := 0, die := 8, via := s.tick,
           req := none, tag := hsLane core user, bytes := len }] }
  | _ => s.hsFaults core

/-- A Headstock core's access: to register space, or to memory as one request; one that lies in two 8-byte words goes as one request for each
(R379, R380; log entry 77). -/
def State.hsAccess (s : State) (core : Nat) (a : HsAccess) : State :=
  let addr := a.addr.toNat
  let n := 8 - addr % 8
  match regionOf addr with
  | .unmapped => s.hsFaults core
  | .register => s.hsRegister core a
  | _ =>
      if a.bytes ≤ 8 ∧ n < a.bytes then
        (s.hsRequest core a.user addr n a.store).hsRequest core a.user (addr + n) (a.bytes - n) (a.store.map fun v => v / 2 ^ (8 * n))
      else s.hsRequest core a.user addr a.bytes a.store

/-- A double-bit error in a line of a Headstock cache, which holds the carve-out alone: a clean line is fetched again, a dirty one's block is
written to memory as poisoned, which is contained (R314, R379). -/
def State.hsCacheError (s : State) (core addr : Nat) (dirty : Bool) : State :=
  let a := addr / 64 * 64
  if !s.inCarve a 64 then s
  else if dirty then (s.event (24 + core / 32) 0xFFF 1 4 0 0x7F a).markBlock a 36
  else
    s.onTail 1 fun x => { x with queue := x.queue ++
      [{ write := false, addr := a, units := 1, na := false, data := 0, poison := 0, die := 8, via := s.tick, req := none, tag := cacheLane }] }

/-- Entries of a mailbox, and bytes of an entry (R391). -/
def mailDepth : Nat := 64
def mailBytes : Nat := 4096

/-- The image takes the oldest inbound entry, if one is held: by such entries jobs reach the loader (R381, R391). -/
def State.mailTake (s : State) : State :=
  match s.mgmt.inbox with
  | [] => s
  | e :: rest => { s with mgmt := { s.mgmt with inbox := rest, taken := s.mgmt.taken + 1 } }.emit (.mail e.session e.bytes)

/-- The image adds an outbound entry, if the mailbox has room for it (R391). -/
def State.mailPut (s : State) (session : Nat) (bytes : List Byte) : State :=
  if mailDepth ≤ s.mgmt.outbox.length ∨ mailBytes < bytes.length then s
  else { s with mgmt := { s.mgmt with outbox := s.mgmt.outbox ++ [⟨session, bytes⟩] } }

/-- HEADSTOCK_ACCESS_FAULT: an access of a Headstock core, with the access fault that it may take; a poisoned load in a user process is
contained, and one in the kernel, the firmware or on a Governor core puts the Headstock in doubt; the image's accesses to its mailboxes
(R314, R379, R380, R391, R408, R413). -/
def execHeadstockAccessFault (core : Fin 64) (k : HsLoad) (s : State) : Out :=
  if s.inReset then .next s
  else
    match k with
    | .access a => .next (if hsFormOk a then s.hsAccess core a else s)
    | .poisonUser a => .next (s.hsPoison core true a.toNat)
    | .poisonKernel a => .next (s.hsPoison core false a.toNat)
    | .cacheError a dirty => .next (s.hsCacheError core a.toNat dirty)
    | .mailTake => .next s.mailTake
    | .mailPut session bytes => .next (s.mailPut session bytes)

/-! ### Accesses of harts -/

/-- Bytes of the instruction at a hart's pc. -/
def State.hartLen (s : State) (d q h : Nat) : Nat := if (s.part d q).code (s.hart d q h).pc 2 % 4 = 3 then 4 else 2

/-- A hart's access completes with a value, or for a store without one: the hart goes on (R149). -/
def State.accessDone (s : State) (d q h : Nat) (a : HartAccess) (v : Nat) : State :=
  let x := s.hart d q h
  let x := { x with wait := none, pc := x.pc + s.hartLen d q h }
  s.setHart d q h (if a.store.isSome then x else x.setReg a.rd (extendLoad a.bytes a.signed v))

/-- The access fault of a hart's access (R148). -/
def State.accessFault (s : State) (d q h : Nat) (a : HartAccess) : State := s.hartFault d q h (if a.store.isSome then 7 else 5)

/-- Whether a stream, a queue or a hart of the core has a lane of its own: harts use lanes 12 to 15 (R230). -/
def hartLane (h : Nat) : Nat := 12 + h

/-- A hart's access that has not been issued (R149, R181, R225, R359, R360, R362). -/
def State.startAccess (s : State) (d q h : Nat) (a : HartAccess) : State :=
  let c := ptCore q
  match regionOf a.addr with
  | .unmapped => s.accessFault d q h a
  | .register =>
      let r := a.addr - regBase
      let wide := a.bytes == 8
      if a.bytes < 4 then s.accessFault d q h a
      else
        match a.store with
        | none => if s.loadWaits (hartMaster d q h) r then s else s.accessDone d q h a (s.busLoad r wide)
        | some v =>
            if regDie r ≠ d then s.accessFault d q h a
            else if s.storeWaits r then s
            else (s.busStores (hartMaster d q h) r wide v.toNat).accessDone d q h a 0
  | _ =>
      if inBounds (s.core d c).bounds a.addr a.bytes a.store.isSome then
        let (id, s) := s.issue { id := 0, die := d, requester := c, lane := hartLane h, addr := a.addr, units := 1,
                                 write := a.store.isSome, data := (a.store.getD 0).toNat, poison := 0, bytes := a.bytes, left := 0 }
        s.setHart d q h { s.hart d q h with wait := some (.access { a with req := some id }) }
      else (s.event d c 2 0 1 0x7F 0).accessFault d q h a

/-- A hart's access whose request is in the memory system (R149, R313). -/
def State.finishAccess (s : State) (d q h : Nat) (a : HartAccess) (id : Nat) : State :=
  match s.findReq id with
  | none => s.accessFault d q h a
  | some r =>
      if r.left ≠ 0 then s
      else
        let s := s.dropReq id
        if r.failed then s.accessFault d q h a
        else if a.store.isNone && r.poison != 0 then s.hartPoison d q h 5 a.addr
        else s.accessDone d q h a r.data

/-- HART_EXTERNAL_ACCESS: a hart's access outside its core's memories starts, or completes (R149). -/
def execHartExternalAccess (d : Fin 8) (q h : Fin 4) (s : State) : Out :=
  if s.run == .ready && s.qRuns d q && s.hartState d q h == 1 then
    match (s.hart d q h).wait with
    | some (.access a) =>
        match a.req with
        | none => .next (s.startAccess d q h a)
        | some id => .next (s.finishAccess d q h a id)
    | _ => .next s
  else .next s

end Sys2Proof.Machine
end

