-- ==== Sys2Proof/Machine/Mgmt.lean ====
section
/-!
DEFINITION. The status record, the management port, sessions and their commands, mailboxes, owner slots and attestation
(R383 to R394, R397 to R400, R437).
-/
namespace Sys2Proof.Machine

/-! ### The status record -/

/-- A record from its fields: first bit, bits, value. -/
def packFields (fs : List (Nat × Nat × Nat)) : Nat := fs.foldl (fun a f => a + f.2.2 % 2 ^ f.2.1 * 2 ^ f.1) 0

/-- Bits of a mask, from a predicate. -/
def bitMask (n : Nat) (p : Nat → Bool) : Nat := (List.range n).foldl (fun a i => a + b2n (p i) * 2 ^ i) 0

/-- Whether some page of die `z` shows `BLK_STAT.ERR` (R365). -/
def State.dieErr (s : State) (z : Nat) : Bool :=
  s.regs.any fun c => c.1 / 2 ^ 24 == z && c.1 % 2 ^ 12 == 0x018 && (c.2 &&& ~~~(s.rg z (c.1 / 2 ^ 12 % 2 ^ 12) 0x01C)) != 0

/-- `MAIN_STATE` of a Lathe die: 0 no program, 3 some core in fault, 2 every core done, 1 running (Table 15.4). -/
def State.mainState (s : State) (d : Nat) : Nat :=
  match s.job with
  | none => 0
  | some j =>
      if (Sparse.get noProg j.mains d).isNone then 0
      else
        let st := engineCores.map fun c => s.progState d c
        if st.contains 3 then 3 else if st.contains 1 then 1 else 2

/-- Whether a hart has been held at one QWAIT or TKWAIT for 2^27 ticks. -/
def State.hartStuck (s : State) (d q h : Nat) : Bool :=
  let x := s.hart d q h
  s.hartState d q h == 1 && decide (x.since + 2 ^ 27 ≤ s.tick) &&
    (match x.wait with
      | some (.queue ..) => true
      | some (.token ..) => true
      | _ => false)

/-- Whether a core of a die has been held at one TWAIT, QWAIT or landing wait for 2^27 ticks; of a Parting core, one of its harts. -/
def State.stuck (s : State) (d : Nat) : Bool :=
  ((List.range 16).any fun k => s.hartStuck d (k / 4) (k % 4)) || engineCores.any fun c =>
    let old (p : Prog) : Bool := decide (p.since + 2 ^ 27 ≤ s.tick) &&
      (match p.hold with
        | some (.token ..) => true
        | some (.phase _) => true
        | some (.landing _) => true
        | some (.queue ..) => true
        | _ => false)
    old ((s.core d c).progOf false) || old ((s.core d c).progOf true)

/-- The highest privilege open. -/
def State.topPriv (s : State) : Nat := s.mgmt.sessions.foldl (fun a x => max a (x.priv.getD 0)) 0

/-- Bytes 0 to 251 of the status record (Table 15.4), as a number. -/
def State.statusBody (s : State) : Nat :=
  let g (off lo len : Nat) : Nat := s.fld 24 0 off lo len
  packFields
    [(0, 64, s.tick), (64, 2, match s.run with | .ready => 1 | .quiesced => 2 | _ => 0), (66, 4, s.startStep),
      (72, 3, s.mgmt.sessions.length), (75, 2, s.topPriv), (80, 32, s.nextSeq), (112, 32, (s.rg 24 elogBlk 0x134).toNat),
      (144, 1, s.fld 24 elogBlk 0x130 1 1), (145, 1, g 0x188 0 1), (146, 1, g 0x110 1 1), (147, 1, g 0x110 0 1), (148, 1, g 0x110 2 1),
      (149, 1, g 0x110 3 1), (150, 1, g 0x110 5 1), (151, 1, g 0x110 4 1), (152, 3, g 0x1B8 0 3), (155, 1, s.fld 24 2 0x10C 0 1),
      (156, 1, s.fld 24 2 0x108 0 1), (160, 16, g 0x114 0 16), (176, 16, g 0x108 0 13), (192, 64, s.pair 24 0 0x120),
      (256, 32, bitMask 32 s.dieErr), (288, 16, (List.range 8).foldl (fun a d => a + s.mainState d * 4 ^ d) 0),
      (304, 8, bitMask 8 s.stuck), (312, 8, bitMask 8 fun d => s.flag d ceBlk 0x018 4),
      (320, 8, bitMask 8 fun d => (List.range 4).any fun q => s.rg d (ptCore q) 0x1D0 != 0),
      (336, 16, s.mgmt.outbox.length), (352, 16, s.mgmt.inbox.length), (368, 16, s.fld 24 4 0x104 0 16),
      (384, 104, bitMask 104 fun p => s.flag (portDie p) (portBlk p) 0x120 0),
      (488, 8, bitMask 8 fun n => s.flag (pairDie n) (pairBlk n) 0x108 0), (496, 8, bitMask 8 fun b => s.bayBit b 1),
      (504, 8, (List.range 8).foldl (fun a d => max a (g (0x160 + 4 * d) 0 8)) 0), (512, 8, g 0x184 0 8), (520, 8, g 0x184 8 8),
      (528, 32, (s.rg 24 mgmtBlk 0x108).toNat), (560, 9, s.fld 24 1 0x10C 0 9),
      (576, 512, packBits 32 ((List.range 16).map fun j => (s.rg 24 1 (0x140 + 4 * j)).toNat))]

/-- The 256 B status record (R390). -/
def State.statusRecord (s : State) : Nat :=
  let b := s.statusBody
  b + crc32c (bytesOf 252 b) * 2 ^ 2016

/-- Whether HS0 builds the record: from start-up step 2 on, and not while held in reset (R405, R409). -/
def State.hsUp (s : State) : Bool :=
  ((s.run == .startUp || s.run == .quiesced) && decide (2 ≤ s.startStep)) || s.run == .ready || (s.powered && s.boot.responder)

/-- `MGMT.STATUS_REC0–63` show a record (R390). -/
def State.showStatus (s : State) (n : Nat) : State :=
  (List.range 64).foldl (fun s j => s.setRg 24 mgmtBlk (0x800 + 4 * j) (BitVec.ofNat 32 (n / 2 ^ (32 * j)))) s

/-- HS0 builds the status record at a tick edge, from what the shadows refreshed at that edge show (R390). -/
def State.buildStatus (s : State) : State :=
  if s.hsUp then (let n := s.statusRecord; ({ s with mgmt := { s.mgmt with record := some n } }).showStatus n) else s

/-- STATUS_RECORD_BUILD: the record that HS0 has built at the last tick edge stands in `MGMT.STATUS_REC0–63`; later in the tick nothing enters it
(R390). -/
def execStatusRecordBuild (s : State) : Out :=
  match s.mgmt.record with
  | some n => .next (if s.hsUp then s.showStatus n else s)
  | none => .next s

/-- Byte `i` of the record last built. -/
def State.statusByte (s : State) (i : Nat) : Byte := BitVec.ofNat 8 ((s.rg 24 mgmtBlk (0x800 + i / 4 * 4)).toNat / 2 ^ (8 * (i % 4)))

/-! ### The port -/

/-- `MGMT.LINK` from what the cage holds (R437, R383). -/
def State.showCage (s : State) : State :=
  match s.pins.cage with
  | none => s.setRg 24 mgmtBlk 0x100 0
  | some m => s.setRg 24 mgmtBlk 0x100 (BitVec.ofNat 32 (b2n (m != 0) + 2 + m % 4 * 4))

/-- Whether the management port is up (R383, R396, R437). -/
def State.portIsUp (s : State) : Bool := s.hsUp && s.flag 24 mgmtBlk 0x100 0
/-- Whether the management firmware serves it: the recovery responder does otherwise (R396). -/
def State.mgmtUp (s : State) : Bool := s.portIsUp && !s.boot.responder

/-- The management port's MAC address (R383, R435): the FRU base plus 104, or where the FRU EEPROM could not be read the locally
administered 0x02 with the low 40 bits of the serial. -/
def State.mgmtMac (s : State) : Nat :=
  if s.boot.fruBad then 2 * 2 ^ 40 + Config.serial.toNat % 2 ^ 40 else Config.macHigh.toNat * 128 + 104

/-- TRANSCEIVER_INSERT: a transceiver or cable is fitted in the empty cage, and identified: SR 1, LR 2, CR 3, or 0 (R437). -/
def execTransceiverInsert (media : Fin 4) (s : State) : Out :=
  if s.pins.cage.isSome then .next s
  else
    let s := { s with pins := { s.pins with cage := some media.val } }
    .next (if s.hsUp then s.showCage else s)

/-- TRANSCEIVER_REMOVE: the cage is empty and the port goes down (R437). -/
def execTransceiverRemove (s : State) : Out :=
  let s := { s with pins := { s.pins with cage := none } }
  .next (if s.hsUp then s.showCage else s)

/-- Whether an address is the port's: one of the configuration block, or its IPv6 link-local address; a module without a configuration block, and the
recovery responder, have the link-local address alone (R383, R396). An IPv4 address stands in the low 32 bits of a number below 2^32. -/
def State.ownsV4 (s : State) (a : BitVec 128) : Bool :=
  !s.boot.responder && (match s.flash.config with | some b => b.v4.map (fun v => v.toNat) == some a.toNat | none => false)
def State.ownsV6 (s : State) (a : BitVec 128) : Bool :=
  a == Config.linkLocal s.mgmtMac || (!s.boot.responder && (match s.flash.config with | some b => b.v6.contains a | none => false))

/-- MGMT_FRAME_RECEIVE: ARP (0), neighbour solicitation (1) and ICMP echo (2) for an address of the port are answered, and no other frame
outside a connection is (R383, R396). -/
def execMgmtFrameReceive (kind : Fin 4) (target : BitVec 128) (s : State) : Out :=
  let mine :=
    match kind.val with
    | 0 => s.ownsV4 target
    | 1 => s.ownsV6 target
    | 2 => s.ownsV4 target || s.ownsV6 target
    | _ => false
  .next (if s.portIsUp && mine then s.emit (.answer s.mgmtMac kind target) else s)

/-! ### Sessions -/

def State.session (s : State) (conn : Nat) : Option Session := s.mgmt.sessions.find? fun x => x.conn == conn
def State.putSession (s : State) (x : Session) : State :=
  { s with mgmt := { s.mgmt with sessions := s.mgmt.sessions.map fun y => if y.conn = x.conn then x else y } }

/-- Every injection enable of the module cleared (R389). -/
def State.clearInjections (s : State) : State :=
  let s := (List.range 104).foldl (fun s p => s.setFlag (portDie p) (portBlk p) 0x200 0 false) s
  let s := (List.range 8).foldl (fun s d => linkStations.foldl (fun s t => s.setFlag d (stBlk t) 0x180 0 false) s) s
  { s with cores := Sparse.mapVals Core.initial (fun _ x => { x with inject := [] }) s.cores }

/-- `MGMT.SESSIONS` and `DEBUG_OPEN` follow the sessions: with the last debug session, internal test access and every injection close
(R389, R397, R400). -/
def State.showSessions (s : State) : State :=
  let s := s.setRg 24 mgmtBlk 0x104 (BitVec.ofNat 32 (s.mgmt.sessions.length + s.topPriv * 8))
  let dbg := s.mgmt.sessions.any fun x => x.priv == some 3
  if dbg then s.setFlag 24 1 0x100 3 true
  else if s.debugOpen then ((s.setFlag 24 1 0x100 3 false).setFlag 24 1 0x100 6 false).clearInjections
  else s

/-- A session ends: its keys are erased, and outbound entries addressed to it are discarded and counted (R385, R391). -/
def State.endSession (s : State) (conn : Nat) : State :=
  match s.session conn with
  | none => s
  | some x =>
      let gone := s.mgmt.outbox.filter fun e => x.id != 0 && e.session == x.id
      let s := { s with mgmt := { s.mgmt with
        sessions := s.mgmt.sessions.filter fun y => y.conn != conn
        outbox := s.mgmt.outbox.filter fun e => !(x.id != 0 && e.session == x.id) } }
      (s.bump 24 mgmtBlk 0x120 gone.length).showSessions

/-- A request discarded without reply; after 16 in succession the session is closed (R385). -/
def State.discard (s : State) (x : Session) : State :=
  let s := (s.bump 24 mgmtBlk 0x118 1).putSession { x with discards := x.discards + 1 }
  if 16 ≤ x.discards + 1 then (s.emit (.closed x.conn)).endSession x.conn else s

/-- MGMT_CONNECT: a connection opens a session, or is closed at once when four are open (R383); another connection on the same handle
changes nothing. -/
def execMgmtConnect (conn : Nat) (s : State) : Out :=
  if !s.mgmtUp || (s.session conn).isSome then .next s
  else if 4 ≤ s.mgmt.sessions.length then .next (s.emit (.closed conn))
  else .next ({ s with mgmt := { s.mgmt with sessions := s.mgmt.sessions ++ [{ conn := conn, lastAt := s.tick }] } } : State).showSessions

/-- MGMT_DISCONNECT: a TCP close ends the session (R385). -/
def execMgmtDisconnect (conn : Nat) (s : State) : Out := .next (s.endSession conn)

/-- Ticks of 300 s, of 60 s and of 10 s (R385, R387). -/
def sessionTicks : Nat := 300 * 10 ^ 8
def refusalTicks : Nat := 60 * 10 ^ 8
def blockTicks : Nat := 10 * 10 ^ 8

/-- SESSION_TIMEOUT: a session ends after 300 s without a valid request (R385). -/
def execSessionTimeout (conn : Nat) (s : State) : Out :=
  match s.session conn with
  | some x => .next (if s.mgmtUp && decide (x.lastAt + sessionTicks ≤ s.tick) then (s.emit (.closed conn)).endSession conn else s)
  | none => .next s

/-- A request that the recovery responder does not serve: its connection is closed unanswered (R396). -/
def State.unanswered (s : State) (conn : Nat) : State := if s.portIsUp then s.emit (.closed conn) else s

/-- Command codes of Tables 15.2 and 15.3. -/
def mgmtCodes : List Nat :=
  [0x01, 0x02, 0x03, 0x10, 0x11, 0x12, 0x13, 0x14, 0x20, 0x21, 0x30, 0x31, 0x32, 0x40, 0x41, 0x50, 0x51, 0x52, 0x53, 0x54, 0x60]

/-- Most bytes of a payload (Table 15.1). -/
def payloadMost : Nat := 16384

/-- Whether a request's header is one of Table 15.1: version 1, `STATUS` and the reserved bits zero, and a payload of at most 16,384 B. -/
def reqFormOk (r : MgmtReq) : Bool := r.ver == 1 && r.status == 0 && r.rsvd == 0 && decide (r.payload.length ≤ payloadMost)

/-- The 24 B header of a message (Table 15.1). -/
def mgmtHeader (ver cmd status session seq len rsvd : Nat) : List Byte :=
  bytesOf 24 (packFields [(0, 8, ver), (8, 8, cmd), (16, 16, status), (32, 32, session), (64, 64, seq), (128, 32, len), (160, 32, rsvd)])

/-- ASCII "HZ-SF tag". -/
def labelTag : List Byte := [0x48, 0x5A, 0x2D, 0x53, 0x46, 0x20, 0x74, 0x61, 0x67]

/-- The tag of a message under a session key: KMAC256 over header and payload (R384). -/
def mgmtTag (key : BitVec 256) (header payload : List Byte) : BitVec 256 := Config.kmac 256 (bytesOf 32 key.toNat) (header ++ payload) labelTag

/-- The tag that a request of command `cmd` has to carry (R384). -/
def Session.tagFor (x : Session) (r : MgmtReq) (cmd : Nat) : BitVec 256 :=
  mgmtTag x.kReq (mgmtHeader r.ver.toNat cmd r.status.toNat r.session.toNat r.seq r.payload.length r.rsvd.toNat) r.payload

/-- A tagged reply of a session (R384). -/
def Session.reply (x : Session) (cmd status seq : Nat) (payload : List Byte) : Emit :=
  .reply cmd status x.id seq payload (some (mgmtTag x.kRsp (mgmtHeader 1 cmd status x.id seq payload.length 0) payload))

/-- A request that is done answered, and the reply kept for a repetition (R385). -/
def State.respond (s : State) (x : Session) (cmd status seq : Nat) (payload : List Byte) : State :=
  (s.putSession { x with cached := some (x.reply cmd status seq payload) }).emit (x.reply cmd status seq payload)

/-- What becomes of a request: it is settled without being carried out, or its session takes it as its next one, which may be barred to its
privilege. -/
inductive Heard where
  | settled (t : State)
  | taken (x : Session) (barred : Bool)

/-- A request of an established session heard (R384, R385, R388, R393): it waits while the firmware carries out another's register accesses, or is
discarded, or answered from the cache, or taken. `i` is the command itself. -/
def State.hear (s : State) (i : Instr) (r : MgmtReq) (cmd least : Nat) : Heard :=
  if !s.mgmtUp then .settled (s.unanswered r.conn)
  else if s.mgmt.work.isSome then .settled { s with mgmt := { s.mgmt with waiting := s.mgmt.waiting ++ [i] } }
  else
    match s.session r.conn with
    | none => .settled s
    | some x =>
        if x.priv.isNone || r.session.toNat != x.id || r.tag != x.tagFor r cmd || !reqFormOk r then .settled (s.discard x)
        else if r.seq = x.seq ∧ x.cached.isSome then
          .settled ((match x.cached with | some e => s.emit e | none => s).putSession { x with discards := 0, lastAt := s.tick })
        else if r.seq ≠ x.seq + 1 then .settled (s.discard x)
        else
          .taken { x with seq := r.seq, discards := 0, lastAt := s.tick }
            (decide (x.priv.getD 0 < least) || (x.unclaimed && mgmtCodes.contains cmd && !([0x03, 0x10, 0x13, 0x52].contains cmd)))

/-- A request that touches no register is carried out whole and answered (R385). `act` gives the status, the payload and the state; `after` follows the
reply to a request that is done. -/
def State.request (s : State) (i : Instr) (r : MgmtReq) (cmd least : Nat) (act : Session → State → Nat × List Byte × State)
    (after : Session → State → State := fun _ s => s) : State :=
  match s.hear i r cmd least with
  | .settled t => t
  | .taken x barred =>
      let (status, payload, t) := if barred then (1, [], s) else act x s
      let t := t.respond x cmd status r.seq payload
      if status = 0 then after x t else t

/-! ### Register accesses of the firmware -/

/-- The register accesses of a request are done: it is answered, if its session is still open. -/
def State.workDone (s : State) (w : RegWork) : State :=
  let s := { s with mgmt := { s.mgmt with work := none } }
  match s.session w.conn with
  | some x => if x.id = w.session then s.respond x w.cmd w.status w.seq w.got else s
  | none => s

/-- What a read adds to the reply. -/
def readBytes (a : RegAccess) (v : Nat) : List Byte := bytesOf (if a.wide then 8 else 4) v

/-- The firmware carries out the accesses of its request in order, as far as none waits: for a held quarter, or for the refresh that follows its own
write (R361 to R363). -/
def State.workGo (s : State) : (fuel : Nat) → State
  | 0 => s
  | fuel + 1 =>
      match s.mgmt.work with
      | none => s
      | some w =>
          match w.left with
          | [] => s.workDone w
          | (store, a) :: rest =>
              let n := a.addr.toNat
              if (if store then s.storeWaits n else s.loadWaits mgmtMaster n) then s
              else
                let got := if store then w.got else w.got ++ readBytes a (s.busLoad n a.wide)
                let t := if store then s.busStores mgmtMaster n a.wide a.value.toNat else s
                State.workGo { t with mgmt := { t.mgmt with work := some { w with left := rest, got := got, since := s.tick } } } fuel

/-- The work under way taken up. -/
def State.workOn (s : State) : State := match s.mgmt.work with | some w => s.workGo (w.left.length + 1) | none => s

/-- An access of the firmware that has waited too long completes: a read with zero, a write without effect, and the firmware takes a bus error
(R362). -/
def State.workTimeout (s : State) : State :=
  match s.mgmt.work with
  | some w =>
      (match w.left with
      | (store, a) :: rest =>
          if s.throughWaits a.addr.toNat && decide (w.since + throughLimit ≤ s.tick) then
            let y := { w with left := rest, got := if store then w.got else w.got ++ readBytes a 0, since := s.tick }
            ({ s with mgmt := { s.mgmt with work := some y } }.hsFaults mgmtMaster).workOn
          else s
      | [] => s)
  | none => s

/-- The firmware at a tick edge: its accesses go on, and once they are done the requests that have arrived since are executed in their order, before
later commands (R385). -/
def State.workTick (s : State) : State :=
  let s := s.workOn
  if s.mgmt.work.isSome || s.mgmt.waiting.isEmpty then s
  else { s with pending := s.mgmt.waiting ++ s.pending, mgmt := { s.mgmt with waiting := [] } }

/-- A request that accesses registers: `plan` gives its status and the accesses, each with whether it is a write. -/
def State.requestRegs (s : State) (i : Instr) (r : MgmtReq) (cmd least : Nat) (plan : Session → Nat × List (Bool × RegAccess)) : State :=
  match s.hear i r cmd least with
  | .settled t => t
  | .taken x barred =>
      let (status, l) := if barred then (1, []) else plan x
      let w : RegWork := { conn := x.conn, session := x.id, cmd := cmd, seq := r.seq, status := status, left := l, since := s.tick }
      let t := s.putSession x
      ({ t with mgmt := { t.mgmt with work := some w } } : State).workOn

/-- A write of a register of HS0 in the shadow view. -/
def hsWrite (i off : Nat) (wide : Bool) (v : Nat) : Bool × RegAccess :=
  (true, { addr := BitVec.ofNat 32 (rkey 24 i off), wide := wide, value := BitVec.ofNat 64 v })

/-! ### Establishment -/

/-- 64 bytes of a digest. -/
def digestBytes (h : BitVec 512) : List Byte := bytesOf 64 h.toNat
/-- The bytes of a Falcon-1024 public key and of a signature in the padded form (R386). -/
def keyBytes (k : FalconKey) : List Byte := bytesOf 1793 k.toNat
def signatureBytes (x : FalconSig) : List Byte := bytesOf 1280 x.toNat

/-- HELLO starts establishment: the reply carries the nonce, the identifier, the serial, the identity key, the vendor certificate, the
encapsulation key and the identity signature (R386); it is refused for 10 s after too many refused ENCAPs (R387). -/
def execHello (r : MgmtReq) (nonce : BitVec 256) (want slot : Byte) (s : State) : Out :=
  if !s.mgmtUp then .next (s.unanswered r.conn)
  else
    match s.session r.conn with
    | none => .next s
    | some x =>
        if x.priv.isSome || r.session != 0 || !reqFormOk r then .next (s.discard x)
        else if s.tick < s.mgmt.helloFrom then
          .next (((s.emit (.reply 0x01 4 0 r.seq [] none)).emit (.closed x.conn)).endSession x.conn)
        else
          let (nm, s) := s.freeNat 256
          let id := s.mgmt.nextId
          let nc := bytesOf 32 nonce.toNat
          let nmb := bytesOf 32 nm
          let ek := bytesOf 1568 (Config.kemPublic s.mgmt.keyGen).toNat
          let sig := signatureBytes (Config.identitySign (digestBytes (Config.shake256 (nc ++ nmb ++ ek))))
          let p2 := nmb ++ bytesOf 4 id ++ bytesOf 8 Config.serial.toNat ++ keyBytes Config.identityKey ++ signatureBytes Config.vendorCert ++ ek ++ sig
          let s := { s with mgmt := { s.mgmt with nextId := id + 1 } }
          let s := s.putSession { x with id := id, want := want.toNat, slot := slot.toNat, lastAt := s.tick
                                         transcript := nc ++ [want, slot] ++ p2 }
          .next (s.emit (.reply 0x01 0 id r.seq p2 none))

def noSlot (_ : Nat) : Option OwnerSlot := none
def State.slotOf (s : State) (k : Nat) : Option OwnerSlot := Sparse.get noSlot s.fuses.slots k
/-- Whether some slot is filled (R393). -/
def State.claimed (s : State) : Bool := (List.range 8).any fun k => (s.slotOf k).isSome

/-- Labels of the session keys (R386): ASCII "HZ-SF req" and "HZ-SF rsp". -/
def labelReq : List Byte := [0x48, 0x5A, 0x2D, 0x53, 0x46, 0x20, 0x72, 0x65, 0x71]
def labelRsp : List Byte := [0x48, 0x5A, 0x2D, 0x53, 0x46, 0x20, 0x72, 0x73, 0x70]

/-- The checks of an ENCAP, in order (R387, R393): the privilege granted, and whether it is that of an unclaimed module. -/
def State.encapCheck (s : State) (x : Session) (h : BitVec 512) (signed : Option (FalconKey × FalconSig)) : Option (Nat × Bool) :=
  match signed with
  | none => if s.claimed then none else some (0, true)
  | some (key, sig) =>
      match (if x.slot < 8 then s.slotOf x.slot else none) with
      | none => none
      | some o =>
          if o.revoked || o.digest != Config.shake256 (keyBytes key) || !Config.sigValid key (digestBytes h) sig || decide (o.max < x.want) ||
              (x.want == 3 && s.flag 24 1 0x100 2) then none
          else some (x.want, false)

/-- ENCAP: on success the session keys are formed and the privilege is granted; a refusal closes the connection and is counted
(R386, R387, R393). `signed` holds the commander's public key and its signature over H. -/
def execEncap (r : MgmtReq) (ct : KemText) (signed : Option (FalconKey × FalconSig)) (s : State) : Out :=
  if !s.mgmtUp then .next (s.unanswered r.conn)
  else
    match s.session r.conn with
    | none => .next s
    | some x =>
        if x.priv.isSome || x.id == 0 || r.session.toNat != x.id || !reqFormOk r then .next (s.discard x)
        else
          let h := Config.shake256 (x.transcript ++ bytesOf 1568 ct.toNat ++ (match signed with | some p => keyBytes p.1 | none => []))
          match s.encapCheck x h signed with
          | none =>
              let ts := (s.mgmt.refusals.filter fun t => decide (s.tick < t + refusalTicks)) ++ [s.tick]
              let s := { s with mgmt := { s.mgmt with
                refusals := ts, helloFrom := if 8 ≤ ts.length then s.tick + blockTicks else s.mgmt.helloFrom } }
              .next ((((s.bump 24 mgmtBlk 0x110 1).emit (.reply 0x02 4 x.id r.seq [] none)).emit (.closed x.conn)).endSession x.conn)
          | some (p, un) =>
              let k := bytesOf 32 (Config.kemSecret s.mgmt.keyGen ct).toNat
              let y := { x with priv := some p, unclaimed := un, transcript := [], lastAt := s.tick, discards := 0
                                kReq := Config.kmac 256 k (digestBytes h) labelReq
                                kRsp := Config.kmac 256 k (digestBytes h) labelRsp }
              .next ((s.putSession y).showSessions.emit (y.reply 0x02 0 r.seq [BitVec.ofNat 8 p]))

/-! ### Commands -/

/-- CLOSE ends the session after the reply (R388). -/
def execCloseSession (r : MgmtReq) (s : State) : Out :=
  .next (s.request (.closeSession r) r 0x03 0 (fun _ s => (0, [], s)) fun x s => s.endSession x.conn)

/-- STATUS returns the status record (R390). -/
def execStatusCmd (r : MgmtReq) (s : State) : Out :=
  .next (s.request (.statusCmd r) r 0x10 0 fun _ s => (0, (List.range 256).map s.statusByte, s))

/-- REG_READ: up to 512 reads in order (R359, R361 to R363, R388). -/
def execRegRead (r : MgmtReq) (l : List RegAccess) (s : State) : Out :=
  .next (s.requestRegs (.regRead r l) r 0x11 0 fun _ =>
    if 512 < l.length ∨ (l.all fun a => regAligned a.addr.toNat a.wide) = false then (2, []) else (0, l.map fun a => (false, a)))

/-- Whether a 4 B write names a register that is refused at a privilege (R389). A write of `QCLK.SCHED` names its field `DEBUG` (DEDUCED, log entry
62). -/
def writeRefused (priv a : Nat) : Bool :=
  let off := regOff a
  match pageType (regDie a) (regIndex a) with
  | none => false
  | some .root => true
  | some p =>
      (off == 0x00C && decide (priv < 2)) || (p == .swc && off == 0x100 && decide (priv < 2)) ||
        (decide (priv < 3) &&
          ((p == .qclk && off == 0x180) || (p == .fpp && decide (0x200 ≤ off) && decide (off ≤ 0x214)) ||
            (p == .bed && decide (0x180 ≤ off) && decide (off ≤ 0x194)) || (p == .gouge && off == 0x2C8) || (p == .skew && off == 0x150)))

/-- The status of a REG_WRITE and the writes that it carries out, in order: a refused one ends it, and those before it stand (R389). -/
def regWrites (priv : Nat) : List RegAccess → Nat × List (Bool × RegAccess)
  | [] => (0, [])
  | a :: l =>
      let n := a.addr.toNat
      if !regAligned n a.wide then (2, [])
      else if writeRefused priv n || (a.wide && writeRefused priv (n + 4)) then (1, [])
      else (let (st, r) := regWrites priv l; (st, (true, a) :: r))

/-- REG_WRITE: up to 512 writes in order (R362, R363, R388, R389). -/
def execRegWrite (r : MgmtReq) (l : List RegAccess) (s : State) : Out :=
  .next (s.requestRegs (.regWrite r l) r 0x12 1 fun x => if 512 < l.length then (2, []) else regWrites (x.priv.getD 0) l)

/-- The measurement log's digest, count and state in attestation (Table 15.5). -/
def State.report (s : State) (nonce : BitVec 256) : Nat :=
  packFields
    [(0, 256, nonce.toNat), (256, 512, packBits 32 ((List.range 16).map fun j => (s.rg 24 1 (0x140 + 4 * j)).toNat)),
      (768, 9, s.fld 24 1 0x10C 0 9), (777, 1, b2n s.boot.logFull), (778, 1, s.fld 24 1 0x100 4 1), (779, 7, s.fld 24 1 0x108 0 7),
      (786, 32, (s.rg 24 1 0x104).toNat), (818, 8, s.fld 24 1 0x100 0 8), (832, 64, Config.serial.toNat),
      (896, 64, 0x412D383032334653), (960, 8, 0xB0), (1024, 64, s.tick)]

/-- ATTEST returns the report for a nonce of 32 B and the identity key's signature over its digest (R398). -/
def execAttest (r : MgmtReq) (s : State) : Out :=
  .next (s.request (.attest r) r 0x13 0 fun _ s =>
    if r.payload.length ≠ 32 then (2, [], s)
    else
      let rep := bytesOf 192 (s.report (BitVec.ofNat 256 (ofBytes r.payload)))
      (0, rep ++ signatureBytes (Config.identitySign (digestBytes (Config.shake256 rep))), s))

/-- ELOG_READ returns up to 128 held records from a sequence number on (R374, R388). -/
def execElogRead (r : MgmtReq) (seq n : Nat) (s : State) : Out :=
  .next (s.request (.elogRead r seq n) r 0x14 0 fun _ s =>
    if 128 < n then (2, [], s)
    else (0, (s.elog.filter fun x => decide (seq ≤ x.seq) && decide (x.seq < seq + n)).flatMap fun x => bytesOf 32 x.bits, s))

/-- MBOX_PUT adds its payload as one inbound entry, or answers busy (R391). -/
def execMboxPut (r : MgmtReq) (s : State) : Out :=
  .next (s.request (.mboxPut r) r 0x20 1 fun x s =>
    if mailBytes < r.payload.length then (2, [], s)
    else if mailDepth ≤ s.mgmt.inbox.length then (3, [], s)
    else (0, [], { s with mgmt := { s.mgmt with inbox := s.mgmt.inbox ++ [⟨x.id, r.payload⟩] } }))

/-- MBOX_GET removes and returns the oldest outbound entry for the session or for any (R391). -/
def execMboxGet (r : MgmtReq) (s : State) : Out :=
  .next (s.request (.mboxGet r) r 0x21 0 fun x s =>
    match s.mgmt.outbox.find? fun e => e.session == x.id || e.session == 0 with
    | none => (0, [], s)
    | some e => (0, e.bytes, { s with mgmt := { s.mgmt with outbox := s.mgmt.outbox.erase e } }))

/-- SNAPSHOT arms a snapshot for a tick (R370). -/
def execSnapshotCmd (r : MgmtReq) (t : W64) (s : State) : Out :=
  .next (s.requestRegs (.snapshotCmd r t) r 0x30 1 fun _ => (0, [hsWrite 2 0x140 true t.toNat]))

/-- APPLY writes `APPLY.MASK` (R367). -/
def execApplyCmd (r : MgmtReq) (v : W32) (s : State) : Out :=
  .next (s.requestRegs (.applyCmd r v) r 0x31 1 fun _ => (0, [hsWrite 4 0x100 false v.toNat]))

/-- CAP_SET writes `GOV.CAP.WATTS` (R286). -/
def execCapSet (r : MgmtReq) (v : W32) (s : State) : Out :=
  .next (s.requestRegs (.capSet r v) r 0x32 1 fun _ => (0, [hsWrite 0 0x104 false v.toNat]))

/-! ### Fuses and flash -/

/-- The Root block's registers show the fuses (R399). -/
def State.showFuses (s : State) : State :=
  let slot (k : Nat) : Nat := match s.slotOf k with | some o => 1 + b2n o.revoked * 2 + o.max % 4 * 4 | none => 0
  let s := ((s.setFlag 24 1 0x100 0 s.claimed).setFlag 24 1 0x100 1 s.fuses.ownerLock).setFlag 24 1 0x100 2 s.fuses.debugDisable
  let s := s.setFlag 24 1 0x100 5 s.fuses.ownerBoot.isSome
  (s.setRg 24 1 0x104 (BitVec.ofNat 32 ((List.range 8).foldl (fun a k => a + slot k * 16 ^ k) 0))).setFld 24 1 0x108 0 7 s.fuses.rollback

/-- The fuses changed. -/
def State.blow (s : State) (f : Fuses) : State := { s with fuses := f }.showFuses
def State.setSlot8 (s : State) (k : Nat) (o : OwnerSlot) : State :=
  s.blow { s.fuses with slots := Sparse.put noSlot s.fuses.slots k (some o) }

/-- SLOT_ENROL fills an empty slot while the owner-lock fuse is intact (R392). -/
def execSlotEnrol (r : MgmtReq) (k : Nat) (digest : BitVec 512) (max : Nat) (s : State) : Out :=
  .next (s.request (.slotEnrol r k digest max) r 0x50 2 fun _ s =>
    if 8 ≤ k ∨ max = 0 ∨ 3 < max then (2, [], s)
    else if (s.slotOf k).isSome || s.fuses.ownerLock then (4, [], s)
    else (0, [], s.setSlot8 k { digest := digest, max := max }))

/-- Whether an unrevoked slot of owner or debug maximum is left without slot `k` (R392). -/
def State.ownerLeft (s : State) (k : Nat) : Bool :=
  (List.range 8).any fun j => j != k && (match s.slotOf j with | some o => !o.revoked && decide (2 ≤ o.max) | none => false)

/-- SLOT_REVOKE blows a slot's revoked fuse (R392). -/
def execSlotRevoke (r : MgmtReq) (k : Nat) (s : State) : Out :=
  .next (s.request (.slotRevoke r k) r 0x51 2 fun _ s =>
    if 8 ≤ k ∨ s.ownerLeft k = false then (2, [], s)
    else
      match s.slotOf k with
      | none => (4, [], s)
      | some o => (0, [], s.setSlot8 k { o with revoked := true }))

/-- CLAIM fills slot 0 of an unclaimed module (R393). -/
def execClaim (r : MgmtReq) (digest : BitVec 512) (max : Nat) (s : State) : Out :=
  .next (s.request (.claim r digest max) r 0x52 0 fun _ s =>
    if s.claimed then (4, [], s)
    else if max < 2 ∨ 3 < max then (2, [], s)
    else (0, [], s.setSlot8 0 { digest := digest, max := max }))

/-- Places of boot flash: the configuration block and the two copies; the header of a copy, and the most bytes of one (R394). -/
def configAt : Nat := 0x00010000
def copyAAt : Nat := 0x00100000
def copyBAt : Nat := 0x02100000
def copyHeader : Nat := 4096
def copyMost : Nat := 2 ^ 25

/-- Which copy a place of boot flash is of, and the offset in it. -/
def copyPlace (a : Nat) : Option (Bool × Nat) :=
  if copyAAt ≤ a ∧ a < copyAAt + copyMost then some (false, a - copyAAt)
  else if copyBAt ≤ a ∧ a < copyBAt + copyMost then some (true, a - copyBAt)
  else none

def Flash.copy (f : Flash) (b : Bool) : Option StageCopy := if b then f.copyB else f.copyA
def Flash.setCopy (f : Flash) (b : Bool) (c : StageCopy) : Flash := if b then { f with copyB := some c } else { f with copyA := some c }

/-- Whether a configuration block is signed by the key of an owner slot that is filled and not revoked (R394). -/
def State.configSigned (s : State) (b : ConfigBlock) : Bool :=
  match (if b.slot < 8 then s.slotOf b.slot else none) with
  | some o => !o.revoked && o.digest == Config.shake256 (keyBytes b.key) && Config.sigValid b.key (digestBytes (Config.shake256 b.bytes)) b.sig
  | none => false

/-- FLASH_WRITE writes what its payload holds of a stage-2 copy, or the configuration block, and blows the fuses that it asks for (R394, R395, Table
15.6). -/
def execFlashWrite (r : MgmtReq) (m : FlashImage) (s : State) : Out :=
  .next (s.request (.flashWrite r m) r 0x53 2 fun _ s =>
    match m with
    | .config a b =>
        if a.toNat = configAt ∧ b.bytes.length = 4096 ∧ s.configSigned b = true then (0, [], { s with flash := { s.flash with config := some b } })
        else (2, [], s)
    | .more a bytes =>
        (match copyPlace a.toNat with
        | some (b, off) =>
            (match s.flash.copy b with
            | some c =>
                if off = copyHeader + c.image.length ∧ off + bytes.length ≤ copyMost then
                  (0, [], { s with flash := s.flash.setCopy b { c with image := c.image ++ bytes } })
                else (2, [], s)
            | none => (2, [], s))
        | none => (2, [], s))
    | .stage a copy blow own =>
        match copyPlace a.toNat with
        | some (b, 0) =>
            if copyMost < copy.length + copyHeader ∨ payloadMost < copyHeader + copy.image.length then (2, [], s)
            else if own.isSome && s.fuses.ownerBoot.isSome then (4, [], s)
            else
              let s := { s with flash := s.flash.setCopy b copy }
              let f := { s.fuses with ownerBoot := if own.isSome then own else s.fuses.ownerBoot }
              (0, [], s.blow (if blow then { f with rollback := max f.rollback s.boot.index } else f))
        | _ => (2, [], s))

/-- OWNER_LOCK blows the owner-lock fuse, and the debug-disable fuse if asked (R388, Table 15.6). -/
def execOwnerLock (r : MgmtReq) (noDebug : Bool) (s : State) : Out :=
  .next (s.request (.ownerLock r noDebug) r 0x54 2 fun _ s =>
    (0, [], s.blow { s.fuses with ownerLock := true, debugDisable := s.fuses.debugDisable || noDebug }))

/-- JTAG_OPEN opens internal test access in a debug session (R397). -/
def execJtagOpen (r : MgmtReq) (s : State) : Out := .next (s.request (.jtagOpen r) r 0x60 3 fun _ s => (0, [], s.wJtag 1#32))

/-- UNKNOWN_COMMAND: a request whose command Table 15.3 does not list is answered with `STATUS` 5 (R384). -/
def execUnknownCommand (r : MgmtReq) (cmd : Byte) (s : State) : Out :=
  .next (if mgmtCodes.contains cmd.toNat then s else s.request (.unknownCommand r cmd) r cmd.toNat 0 fun _ s => (5, [], s))

/-! ### Waiting too long -/

/-- THROUGH_ACCESS_TIMEOUT: accesses of the through view that have not crossed within 1,000 ticks complete: a write is ignored, a read
returns zero, and the master takes its fault (R362). -/
def execThroughAccessTimeout (s : State) : Out :=
  let timedOut (x : ThroughAcc) : Bool := s.throughWaits x.addr && decide (x.since + throughLimit ≤ s.tick)
  let late := s.through.filter timedOut
  let s := { s with through := s.through.filter fun x => !timedOut x }
  let s := (late.filter fun x => decide (x.master < 64)).foldl (fun s x => s.hsFaults x.master) s
  .next ((List.range 128).foldl (fun s n =>
    let d := n / 16
    let q := n / 4 % 4
    let h := n % 4
    if s.hartState d q h = 1 then
      match (s.hart d q h).wait with
      | some (.access a) =>
          if a.req.isNone && regionOf a.addr == .register && s.throughWaits (a.addr - regBase) && decide (a.since + throughLimit ≤ s.tick)
          then s.accessFault d q h a else s
      | _ => s
    else s) s.workTimeout)

end Sys2Proof.Machine
end

