-- ==== Sys2Proof/Machine/Reset.lean ====
section
/-!
DEFINITION. Resets, start-up and engine resets (R401 to R410, R420, R395 to R397, R256, R263, R320, R234, R326).
-/
namespace Sys2Proof.Machine

/-! ### Full resets -/

/-- The error log page's registers that a warm reset keeps (R374, Table 16.1): FIRST_UNC and UNC_SEEN. -/
def State.keepLog (s old : State) : State :=
  let s := { s with elog := old.elog, nextSeq := old.nextSeq, tickSeq := old.tickSeq }
  (s.setRg 24 elogBlk 0x134 (old.rg 24 elogBlk 0x134)).setFlag 24 elogBlk 0x130 1 (old.flag 24 elogBlk 0x130 1)

/-- `SWC.CARVE.SIZE` of a Sapwood half kept from before the reset: it takes effect with Sapwood training (Table 16.1, R238). A size outside 1 to 8 is taken
as written: the spec gives none a meaning (DESIGN CHOICE, log entry 106). -/
def State.keepCarve (s old : State) : State :=
  [26, 27].foldl (fun s z => s.setFld z 0 0x100 0 4 (bitsOf (old.stagedOr z 0 0x100).toNat 0 4)) s

/-- Elements that were not closed when the reset began, or that were moving, close (R346). -/
def State.keepElements (s old : State) : State :=
  (List.range 8).foldl (fun s n =>
    if old.flag (pairDie n) (pairBlk n) 0x108 0 then s
    else (s.setFlag (pairDie n) (pairBlk n) 0x108 0 false).setFlag (pairDie n) (pairBlk n) 0x108 1 true) s

/-- A cold or warm reset (R401, Table 16.1): everything at its reset value but what the table keeps. Start-up runs from step 1 or 2. -/
def State.restart (s : State) (cold pin cmd : Bool) : State :=
  let t : State := { State.reset with
    pending := s.pending
    fresh := s.fresh
    out := s.out
    tick := if cold then 0 else s.tick
    startStep := if cold then 0 else 1
    bays := s.bays
    latchOpen := s.latchOpen
    fuses := s.fuses
    flash := s.flash
    pins := if cold then { s.pins with dynamic := none, offset := 0 } else s.pins
    mgmt := { nextId := s.mgmt.nextId, keyGen := s.mgmt.keyGen + b2n cold }
    boot := { stepAt := if cold then 0 else s.tick }
    gov := if cold then {} else { frac := s.gov.frac, sample := s.gov.sample, sensors := s.gov.sensors } }
  let t := (t.keepCarve s).keepElements s
  let t := if cold then t else (t.keepLog s).setPair 24 0 0x120 (s.pair 24 0 0x120)
  let cause := b2n cold + b2n pin * 2 + b2n cmd * 4 + b2n s.boot.held * 8
  ((t.setRg 24 elogBlk 0x180 (BitVec.ofNat 32 cause)).showFuses).elogWindow

/-- COLD_RESET: an unpowered module's input rises above 48 V, and is not above 60 V, where it stays unpowered (R401, R278); millivolts. -/
def execColdReset (mv : Nat) (s : State) : Out :=
  .next (if s.run == .unpowered && decide (48000 < mv) && decide (mv ≤ 60000) then s.restart true false false else s)

/-- RESET_N_ASSERT: `RESET_N` low in two consecutive samples holds every die in reset; low in one only is ignored. In start-up step 1
of a cold reset the hold begins when the step completes (R402); a module that has held itself is reset by it (R408). -/
def execResetNAssert (twice : Bool) (s : State) : Out :=
  if !twice || s.run == .unpowered || (s.pins.resetLow && s.run != .held) then .next s
  else
    let s := { s with pins := { s.pins with resetLow := true } }
    if s.run == .startUp && s.startStep == 0 then .next s
    else .next ((s.restart false true false).enterHold .pinReset)

/-- RESET_N_RELEASE: at the first tick in which `RESET_N` is sampled high start-up runs from step 2 (R402). -/
def execResetNRelease (s : State) : Out :=
  if !s.pins.resetLow then .next s
  else
    let s := { s with pins := { s.pins with resetLow := false } }
    .next (if s.run == .pinReset then { s with run := .startUp, boot := { s.boot with stepAt := s.tick } } else s)

/-- RESET_WARM starts a warm reset after the reply (R388, R401). -/
def execResetWarm (r : MgmtReq) (s : State) : Out :=
  .next (s.request (.resetWarm r) r 0x41 2 (fun _ s => (0, [], s)) fun _ s => s.restart false false true)

/-! ### Boot -/

/-- An extension of the measurement log (R397). -/
def State.logExtend (s : State) (e : List Byte) : State :=
  let n := s.fld 24 1 0x10C 0 9
  if 256 ≤ n then { (s.errBit 24 1 2) with boot := { s.boot with logFull := true } }
  else
    let old := packBits 32 ((List.range 16).map fun j => (s.rg 24 1 (0x140 + 4 * j)).toNat)
    let new := (Config.shake256 (bytesOf 64 old ++ digestBytes (Config.shake256 e))).toNat
    ((List.range 16).foldl (fun s j => s.setRg 24 1 (0x140 + 4 * j) (BitVec.ofNat 32 (new / 2 ^ (32 * j)))) s).setFld
      24 1 0x10C 0 9 (n + 1)

/-- Boot ROM's checks of a copy (R394, R395): digest and rollback index where they hold. -/
def State.verifyCopy (s : State) (c : StageCopy) : Option (BitVec 512 × Nat) :=
  let d := Config.shake256 (c.image.take c.length)
  let vendor := Config.shake256 (keyBytes Config.vendorKey) == Config.vendorDigest && Config.sigValid Config.vendorKey (digestBytes d) c.vendorSig
  let owner := match s.fuses.ownerBoot with
    | none => true
    | some k => (match c.owner with
        | some p => Config.shake256 (keyBytes p.1) == k && Config.sigValid p.1 (digestBytes d) p.2
        | none => false)
  if c.magic = 0x48533253#32 ∧ d = c.digest ∧ vendor = true ∧ s.fuses.rollback ≤ c.rollback ∧ c.rollback ≤ 64 ∧ owner = true
  then some (d, c.rollback) else none

/-- What verifies in a place of boot flash: a copy that commands have written, or the copy as shipped. -/
def State.bootCopy (s : State) (written shipped : Option StageCopy) : Option (BitVec 512 × Nat) :=
  (match written with | some c => some c | none => shipped).bind s.verifyCopy

/-- What is measured after stage 2, in order: the fuse state by boot ROM, and by stage 2 the configuration block, the OS image, the Governor firmware, the
Faceplate engine firmware and the slot table (R395, R397). -/
def State.measuredItems (s : State) (f : StartFacts) : List (List Byte) :=
  let slots := (List.range 8).map fun k =>
    match s.slotOf k with
    | some o => 1 + b2n o.revoked * 2 + o.max % 4 * 4 + o.digest.toNat * 16
    | none => 0
  let own := match s.fuses.ownerBoot with | some k => k.toNat + 1 | none => 0
  [Config.measuredBytes 0 ([Config.vendorDigest.toNat, Config.serial.toNat, own, b2n s.fuses.ownerLock, b2n s.fuses.debugDisable, s.fuses.rollback] ++ slots),
    (match s.flash.config with | some b => b.bytes | none => []), f.osImage, f.govFirmware, f.fpeFirmware, Config.measuredBytes 1 slots]

/-- Stage 2 runs from a copy (R395, R397, R405, R420, R435): the log, the port, and the watchdog armed. -/
def State.runStage2 (s : State) (copyB : Bool) (d : BitVec 512) (index : Nat) (f : StartFacts) : State :=
  let s := (s.measuredItems f).foldl (fun s e => s.logExtend e) (s.logExtend (digestBytes d))
  let s := { (s.setFlag 24 1 0x100 4 copyB) with boot := { s.boot with index := index, fruBad := f.fruBad } }
  (s.wWdog (BitVec.ofNat 32 (withBits (s.rg 24 5 0x18C).toNat 0 1 1))).showCage

/-- RECOVERY_FLASH_WRITE: the recovery responder checks a copy as boot ROM does, writes it to copy A, replies and starts a warm reset;
a connection with a copy that fails is closed unanswered (R396). -/
def execRecoveryFlashWrite (r : MgmtReq) (c : StageCopy) (s : State) : Out :=
  .next (if !s.boot.responder || !s.portIsUp then s
    else if (s.verifyCopy c).isSome then
      (({ s with flash := { s.flash with copyA := some c } } : State).emit (.reply 0x53 0 0 r.seq [] none)).restart false false false
    else s.emit (.closed r.conn))

/-! ### The steps -/

/-- A failed step that ends start-up in the Quiesced state (R405): its record, with the step and the check's own source. -/
def State.startFail (s : State) (k die block cause src : Nat) : State :=
  let (seq, s) := s.logRec die block 2 0 2 cause (k + src * 2 ^ 16)
  s.quiesce seq 2 (dieMask die) k

/-- A loss at a step that start-up survives (R405). -/
def State.startLoss (s : State) (k die block ev cause src : Nat) : State := s.event die block 1 ev 0 cause (k + src * 2 ^ 16)

/-- What a start-up step comes to: the state, and whether the step completes. -/
abbrev StepEnd := Bool × State

/-- Stage 2 failure: neither copy verifies, and the recovery responder runs (R395, R396). -/
def State.stage2Fail (s : State) : State :=
  let s := s.event 24 1 2 0 0 0x7F 2
  ({ s with run := .recovery, boot := { s.boot with responder := true } } : State).showCage

/-- Step 2: boot ROM tries copy A and then copy B (R395). -/
def State.startBoot (s : State) (f : StartFacts) : StepEnd :=
  if f.failed then (false, s.stage2Fail)
  else
    match s.bootCopy s.flash.copyA (f.shipped.getD 0 none) with
    | some (d, n) => (true, s.runStage2 false d n f)
    | none =>
        let s := s.errBit 24 1 0
        match s.bootCopy s.flash.copyB (f.shipped.getD 1 none) with
        | some (d, n) => (true, s.runStage2 true d n f)
        | none => (false, (s.errBit 24 1 1).stage2Fail)

/-- The controller whose home range has a channel. -/
def coreOfChan (ch : Nat) : Nat :=
  ((List.range 24).find? fun c => decide (chanFirst c ≤ ch) && decide (ch < chanFirst c + chanCount c)).getD 0

/-- Spare lanes of a channel instance, and spare rows of a bank (R234). -/
def spareLanes : Nat := 2
def spareRows : Nat := 8

/-- A Heartwood die, channel and bank that have more failures than spares; of a channel instance its bank 0 (R234). -/
def unrepairable (f : StartFacts) : Option (Nat × Nat × Nat) :=
  match f.lanes.find? fun x => decide (spareLanes < x.2.2) with
  | some x => some (x.1, x.2.1, 0)
  | none => (f.rows.find? fun x => decide (spareRows < x.2.2.2)).map fun x => (x.1, x.2.1, x.2.2.1)

/-- `HWC.REPAIR` of core `c`'s controller on Lathe die `d`: spare lanes and rows in use in both layers of its channels (R234). -/
def repairWord (f : StartFacts) (d c : Nat) : W32 :=
  let own (hd ch : Nat) : Bool := decide (8 ≤ hd) && (hd - 8) / 2 == d && decide (chanFirst c ≤ ch) && decide (ch < chanFirst c + chanCount c)
  let lanes := ((f.lanes.filter fun x => own x.1 x.2.1).map fun x => x.2.2).sum
  let rows := ((f.rows.filter fun x => own x.1 x.2.1).map fun x => x.2.2.2).sum
  BitVec.ofNat 32 (lanes % 2 ^ 10 + rows % 2 ^ 16 * 2 ^ 10)

/-- Step 3: Heartwood training and repair (R234). A failure names the Heartwood die, the channel and the bank by the address of the
first block there. -/
def State.startHeartwood (s : State) (f : StartFacts) : StepEnd :=
  match unrepairable f with
  | some (hd, ch, bank) =>
      let c := coreOfChan ch
      let u := ((hd - 8) % 2 * 16 + bank) * chanCount c + (ch - chanFirst c)
      (false, s.startFail 3 hd (hwcBlk c) 0x7F (blockAddr ((hd - 8) / 2) c u))
  | none =>
      if f.failed then (false, s.startFail 3 8 0xFFF 0x7F 0)
      else (true, (List.range 192).foldl (fun s n => s.setRg (n / 24) (hwcBlk (n % 24)) 0x108 (repairWord f (n / 24) (n % 24))) s)

/-- The pad of a hop class at a point (Tables 7.1 and 7.2, R259). -/
def padOf (cls p : Nat) : Nat := if cls < 30 then tau cls p else whittleTau (if cls = 30 then 1 else if cls = 31 then 10 else 15) p

/-- The budgets of a quarter's crossings at a point, τ − 4, beside what calibration measured: (budget, transit) (R263). -/
def measuredAt (f : StartFacts) (n p : Nat) : List (Nat × Nat) :=
  (f.transits.filter fun x => x.1 == n && x.2.1 == p).map fun x => (padOf x.2.2.1 p - 4, x.2.2.2)

/-- The points that a quarter loses, as a mask: at which some crossing exceeds its budget (R263). -/
def lostPoints (f : StartFacts) (n : Nat) : Nat :=
  (List.range 8).foldl (fun a p => a + b2n ((measuredAt f n p).any fun x => decide (x.1 < x.2)) * 2 ^ p) 0

/-- `QCLK.CAL_MARGIN` of a quarter: the least spare at each point, saturating at 15 (R263, Table 10.7). -/
def marginOf (f : StartFacts) (n : Nat) : W32 :=
  BitVec.ofNat 32 (packBits 4 ((List.range 8).map fun p => (measuredAt f n p).foldl (fun m x => min m (x.1 - x.2)) 15))

/-- Step 4: crossing calibration and the spare wires of the links (R263, R351). -/
def State.startCalibrate (s : State) (f : StartFacts) : StepEnd :=
  let lost (p : Nat × Nat) : Nat := lostPoints f (4 * p.1 + p.2)
  let s := allQuarters.foldl (fun s p =>
    let s := s.setRg p.1 (qBlk p.2) 0x148 (marginOf f (4 * p.1 + p.2))
    let s := s.setFld p.1 (qBlk p.2) 0x10C 0 8 (255 - lost p)
    if lost p = 0 ∨ lost p = 2 ^ 6 then s else (s.errBit p.1 (qBlk p.2) 2).startLoss 4 p.1 (qBlk p.2) 0 2 p.2) s
  match allQuarters.find? fun p => bitOf (lost p) 6 with
  | some p => (false, s.startFail 4 p.1 (qBlk p.2) 0x7F p.2)
  | none =>
      match f.linkBad with
      | some (d, st) => (false, s.startFail 4 d (stBlk st) 0x7F 0)
      | none => if f.failed then (false, s.startFail 4 0 0xFFF 0x7F 0) else (true, s)

/-- Step 5: Sapwood training; the size of the carve-out takes effect (R238). -/
def State.startSapwood (s : State) (f : StartFacts) : StepEnd :=
  if f.failed then (false, s.startFail 5 26 0xFFF 0x7F 0)
  else (true, [26, 27].foldl (fun s z => s.setFld z 0 0x100 4 4 (s.fld z 0 0x100 0 4)) s)

/-- The address of a port, first octet most significant: the MAC base with its low 7 bits replaced (R330, R435). -/
def macOf (p : Nat) : Nat := Config.macHigh.toNat * 128 + p

/-- A port taken out at bring-up (R326, R328, R352). -/
def State.portOut (s : State) (p : Nat) : State := s.onPort p fun x => { x with disabled := true }

/-- Step 6: the ports' addresses and delays, lanes, lasers and rings (R326 to R328, R435). -/
def State.startPorts (s : State) (f : StartFacts) : State :=
  if s.boot.fruBad then (List.range 104).foldl (fun s p => s.portOut p) (s.startLoss 6 24 0xFFF 0 0x7F 0)
  else
    let s := if f.failed then s.startLoss 6 28 0xFFF 0 0x7F 0 else s
    let s := (List.range 104).foldl (fun s p =>
      let (dly, s) := s.freeNat 32
      (s.setPair (portDie p) (portBlk p) 0x110 (macOf p)).setRg (portDie p) (portBlk p) 0x128 (BitVec.ofNat 32 dly)) s
    let s := (List.range 8).foldl (fun s d => s.enableBay d) s
    let s := f.tune.foldl (fun s p => s.setRg (portDie p.1) (portBlk p.1) 0x124 p.2) s
    (List.range 104).foldl (fun s p =>
      let s := if f.disabled.contains p then (s.portOut p).startLoss 6 (portDie p) (portBlk p) 6 0x7F (p * 2 ^ 25) else s
      if f.unlocked.contains p then
        (s.setFlag (portDie p) (portBlk p) 0x120 5 true).startLoss 6 (portDie p) (portBlk p) 6 0x7F (p * 2 ^ 25)
      else s) s

/-- `GOUGE.AMAP` after self-test: logical array n is physical array n, and the spare A4 takes the number of a fenced one (R31, R320). -/
def amapOf (bad : Nat) : W32 :=
  BitVec.ofNat 32 (packBits 3 ((List.range 4).map fun n => if bitOf bad n then 4 else n) + bad % 32 * 2 ^ 12 +
    b2n (decide (bad % 32 = 0)) * 2 ^ 17)

/-- Step 7: the self-test of arrays and slices (R31, R320). -/
def State.startSelfTest (s : State) (f : StartFacts) : StepEnd :=
  let few := f.badArrays.find? fun p => decide (((List.range 5).filter fun a => !bitOf p.2 a).length < 4)
  match few with
  | some (n, bad) =>
      (false, s.startFail 7 (n / 24) (n % 24) 0x7F (((List.range 5).find? fun a => bitOf bad a).getD 0))
  | none =>
      match f.badSlice with
      | some (d, c, k) => (false, s.startFail 7 d c 0x7F k)
      | none =>
          if f.failed then (false, s.startFail 7 0 0xFFF 0x7F 0)
          else (true, f.badArrays.foldl (fun s p => s.setRg (p.1 / 24) (p.1 % 24) 0x2B0 (amapOf p.2)) s)

/-- A quarter has gone from S0 to S6 by a ramp and a region hold (R256, R257, R404): its hold is counted, and how long it took is free.
While an alert lasts the point stays pending (R268). -/
def State.readyS6 (s : State) (d q : Nat) : State :=
  if s.alertOn then
    let s := s.setQuarter d q { s.quarter d q with pendTick := s.tick, reqTick := s.tick }
    ((s.setFld d (qBlk q) 0x108 3 3 6).setFlag d (qBlk q) 0x108 6 true).setFlag d (qBlk q) 0x108 9 true
  else
    let (len, s) := s.freeNat 16
    let s := s.setQuarter d q { s.quarter d q with rampLeft := 0, rampTo := railOf 6, unstretched := 0, recent := [] }
    let s := ((s.setFld d (qBlk q) 0x108 0 3 6).setFlag d (qBlk q) 0x108 6 false).setFlag d (qBlk q) 0x108 8 false
    ((s.setFld d (qBlk q) 0x110 16 16 (railOf 6)).setFld d (qBlk q) 0x114 0 16 (1 + len % 300)).bump d (qBlk q) 0x128 1

/-- Step 8: every quarter at S6, and every page ready (R256, R405). -/
def State.startReady (s : State) (f : StartFacts) : StepEnd :=
  if f.failed then (false, s.startFail 8 24 0xFFF 0x7F 0)
  else
    let s := allQuarters.foldl (fun s p => s.readyS6 p.1 p.2) s
    (true, { s with run := .ready, ready := 2 ^ 32 - 1 })

/-- The step in progress done, or failed (Table 16.2). -/
def State.startWork (s : State) (f : StartFacts) : StepEnd :=
  match s.startStep + 1 with
  | 1 => if f.failed then (false, s.holdInReset 24 0xFFF 0 0x7F 1) else (true, s)
  | 2 => s.startBoot f
  | 3 => s.startHeartwood f
  | 4 => s.startCalibrate f
  | 5 => s.startSapwood f
  | 6 => (true, s.startPorts f)
  | 7 => s.startSelfTest f
  | _ => s.startReady f

/-- A completed step: the next begins; after step 1 a low `RESET_N` holds the module, and a cause of a trip that has not
cleared quiesces it again (R300, R402, R405). -/
def State.startNext (s : State) : State :=
  let s := { s with startStep := s.startStep + 1, boot := { s.boot with stepAt := s.tick } }
  if s.startStep = 1 ∧ s.pins.resetLow = true then s.enterHold .pinReset else (s.senses s.gov.sensors).tripNow

/-- Maximum of a step in ticks (Table 16.2). -/
def stepTicks (k : Nat) : Nat :=
  match k with
  | 1 => 20000000
  | 2 => 1000000000
  | 3 => 1200000000
  | 4 => 600000000
  | 5 => 800000000
  | 6 => 1500000000
  | 7 => 200000000
  | _ => 20000000

/-- Whether the start-up step in progress has passed its maximum (R405). -/
def State.stepLate (s : State) : Bool := decide (s.boot.stepAt + stepTicks (s.startStep + 1) < s.tick)

/-- STARTUP_STEP_COMPLETE: the step in progress ends with what it finds; past its maximum it fails (R405). -/
def execStartupStepComplete (f : StartFacts) (s : State) : Out :=
  if s.run != .startUp then .next s
  else
    let (ok, s) := s.startWork { f with failed := f.failed || s.stepLate }
    .next (if ok then s.startNext else s)

/-- STARTUP_STEP_TIMEOUT: a step past its maximum time fails with its row's outcome (R405). -/
def execStartupStepTimeout (f : StartFacts) (s : State) : Out :=
  if s.run == .startUp && s.stepLate then
    let (ok, s) := s.startWork { f with failed := true }
    .next (if ok then s.startNext else s)
  else .next s

/-! ### Engine resets -/

/-- Buckets whose engines include a masked die closed on every engine, without a result (R404). -/
def State.closeMasked (s : State) (mask : Nat) : State :=
  ((List.range 8).flatMap fun d => (s.engine d).buckets.filter fun b => b.dies.any fun z => bitOf mask z).foldl
    (fun s b => s.closeBucket b.tag b.step) s

/-- Dispatch stops in every core of the masked dies, whether or not a job is loaded (R404). -/
def State.stopDies (s : State) (mask : Nat) : State :=
  (List.range 192).foldl (fun s n =>
    let d := n / 24
    let c := n % 24
    if !bitOf mask d then s
    else if isParting c then (List.range 4).foldl (fun s h => if s.hartState d (c / 6) h = 1 then s.stopHart d (c / 6) h else s) s
    else
      let s := s.onCore d c Core.unload
      if s.progState d c = 1 then s.setProgState d c 0 else s) s

/-- An engine reset begins (R403, R404): the job is unloaded, dispatch stops on the masked dies, parts not admitted are dropped, and buckets close. -/
def State.beginEngineReset (s : State) (mask : Nat) (keep : Bool) : State :=
  let s := s.unloadJob.stopDies mask
  let stays (p : Part) : Bool := !(bitOf mask p.die || bitOf mask p.fromDie)
  let s := { s with held := s.held.filter stays, flight := s.flight.filter stays, waiting := s.waiting.filter stays }
  let s := s.closeMasked mask
  let s := (s.setFld 24 elogBlk 0x180 8 8 mask).setFlag 24 elogBlk 0x180 16 keep
  let s := (List.range 8).foldl (fun s d => if bitOf mask d then
      (List.range 4).foldl (fun s q => (s.toS0 false d q)) s else s) s
  { s with ready := s.ready &&& (2 ^ 32 - 1 - mask), engineReset := some ⟨mask, keep, s.tick⟩ }

/-- RESET_ENGINE runs an engine reset of a mask of Lathe dies; it is refused for an empty mask, and until start-up has completed
(R388, R403, R404, R406). -/
def execResetEngine (r : MgmtReq) (mask : BitVec 8) (keep : Bool) (s : State) : Out :=
  .next (s.request (.resetEngine r mask keep) r 0x40 1 fun _ s =>
    if mask = 0#8 then (2, [], s)
    else if s.startStep < 8 ∨ s.engineReset.isSome = true then (3, [], s)
    else (0, [], s.beginEngineReset mask.toNat keep))

/-- Registers of a masked die that an engine reset keeps (Table 16.1): locks, array maps, repairs, permitted points and their margins,
and the poison tables. -/
def keptByEngine (i off : Nat) : Bool :=
  off == 0x00C || (off == 0x2B0 && decide (i < 24)) || (off == 0x108 && decide (0x50 ≤ i) && decide (i ≤ 0x67)) ||
    ((off == 0x10C || off == 0x148) && decide (0x40 ≤ i) && decide (i ≤ 0x43)) ||
    (off == 0x150 && decide (0x50 ≤ i) && decide (i ≤ 0x67))

/-- The die of register key `k`, masked. -/
def maskedKey (mask k : Nat) : Bool := decide (k / 2 ^ 24 < 8) && bitOf mask (k / 2 ^ 24)

/-- Registers of the masked dies at their reset values, and their staged copies dropped (Table 16.1). -/
def State.clearPages (s : State) (mask : Nat) : State :=
  { s with
    regs := s.regs.filter fun (c : Nat × W32) => !maskedKey mask c.1 || keptByEngine (c.1 / 2 ^ 12 % 2 ^ 12) (c.1 % 2 ^ 12)
    staged := s.staged.filter fun (c : Nat × Option W32) => !maskedKey mask c.1
    covered := s.covered.filter fun (c : Nat × Option W32) => !maskedKey mask c.1
    strobed := s.strobed.filter fun x => !maskedKey mask x.1
    cntClr := s.cntClr.filter fun k => !maskedKey mask k }

/-- What an engine reset leaves of a controller: its lanes are not trained again, so their counts of the scrub pass stand (R319, Table
16.1). -/
def Ctl.cleared (x : Ctl) : Ctl := { scrub := x.scrub, passAt := x.passAt, hits := x.hits, suspects := x.suspects }

/-- Cores, boards, memories of the Parting cores, stations and engines of the masked dies cleared (R404, Table 16.1). -/
def State.clearUnits (s : State) (mask : Nat) : State :=
  let keep (n : Nat) {α : Type} (m : Sparse α) : Sparse α := m.filter fun c => !bitOf mask (c.1 / n)
  { s with
    cores := keep 24 s.cores
    parts := keep 4 s.parts
    stations := keep 30 s.stations
    engines := keep 1 s.engines
    ctls := Sparse.mapVals Ctl.initial (fun k x => if bitOf mask (k / 24) then x.cleared else x) s.ctls
    quarters := keep 4 s.quarters
    reqs := s.reqs.filter fun r => !(decide (r.die < 8) && bitOf mask r.die)
    remotes := s.remotes.filter fun r => !bitOf mask r.die
    forwards := s.forwards.filter fun v => !(bitOf mask v.dst || bitOf mask v.origin) }

/-- Heartwood of the masked dies written with zero, which removes the poison of its blocks (R404, Table 16.1). -/
def State.clearHeartwood (s : State) (mask : Nat) : State :=
  let s := { s with
    mem := s.mem.filter fun (c : Nat × Byte) => !(decide (c.1 < 2 ^ 39) && bitOf mask (c.1 / 2 ^ 36))
    memPoison := s.memPoison.filter fun (c : Nat × Bool) => !(decide (64 * c.1 < 2 ^ 39) && bitOf mask (64 * c.1 / 2 ^ 36)) }
  (List.range 192).foldl (fun s n => if bitOf mask (n / 24) then s.setFld (n / 24) (hwcBlk (n % 24)) 0x150 0 13 0 else s) s

/-- The Quiesced state left by an engine reset (R410): quarters outside the mask go back to their pending points. -/
def State.leaveQuiesced (s : State) : State :=
  let s := { (s.setRg 24 elogBlk 0x184 0) with run := .ready }
  allQuarters.foldl (fun s p => if s.pendValid p.1 p.2 then s.requestPoint p.1 p.2 (s.pendPt p.1 p.2) else s) s

/-- Whether an engine reset of `mask` ends the Quiesced state (R410). -/
def State.endsQuiesced (s : State) (mask : Nat) : Bool :=
  s.run == .quiesced && s.fld 24 elogBlk 0x184 1 2 == 1 && (s.fld 24 elogBlk 0x184 3 8 &&& mask) == s.fld 24 elogBlk 0x184 3 8

/-- Whether memory parts of masked dies, or of their requesters, are admitted and not served: they complete first (R404). -/
def State.partsLeft (s : State) (mask : Nat) : Bool := s.admitted.any fun p => bitOf mask p.die || bitOf mask p.fromDie

/-- Ticks that an engine reset may take: 100 ms, and 10 ms for a zero-fill of Heartwood (R404). -/
def engineTicks (keep : Bool) : Nat := if keep then 10000000 else 11000000

/-- Whether an engine reset has passed its maximum (R404). -/
def State.engineLate (s : State) (r : EngineReset) : Bool := decide (r.tick + engineTicks r.keep < s.tick)

/-- An engine reset past its maximum ends in the Quiesced state (R404, Table 16.6). -/
def State.engineFail (s : State) (r : EngineReset) : State := { (s.eventQuiesce 24 0xFFF 0 0x7F 0 2 r.mask) with engineReset := none }

/-- `BYP.CTRL.OPEN` of the masked dies' bypass pairs set to 0, after the clears (R404). -/
def State.closeMaskedPairs (s : State) (mask : Nat) : State :=
  (List.range 8).foldl (fun s n =>
    if bitOf mask (pairLathe n) then (s.setFlag (pairDie n) (pairBlk n) 0x104 0 false).closePair n else s) s

/-- ENGINE_RESET_COMPLETE: once the admitted parts have completed, the sequence finishes its clears, its bypass pairs and its way to S6, and the
pages of the masked dies are ready; past its maximum it fails (R404, R410). -/
def execEngineResetComplete (s : State) : Out :=
  match s.engineReset with
  | none => .next s
  | some r =>
      if (s.run != .ready && s.run != .quiesced) || s.partsLeft r.mask then .next s
      else if s.engineLate r then .next (s.engineFail r)
      else
        let s := (s.clearUnits r.mask).clearPages r.mask
        let s := (if r.keep then s else s.clearHeartwood r.mask).closeMaskedPairs r.mask
        let s := allQuarters.foldl (fun s p =>
          if bitOf r.mask p.1 then s.setQuarter p.1 p.2 { s.quarter p.1 p.2 with k := s.kd p.1, kNext := s.kd p.1 } else s) s
        let s := if s.endsQuiesced r.mask then s.leaveQuiesced else s
        let s := if s.run == .ready then allQuarters.foldl (fun s p => if bitOf r.mask p.1 then s.readyS6 p.1 p.2 else s) s else s
        .next { s with ready := s.ready ||| r.mask, engineReset := none }

/-- ENGINE_RESET_TIMEOUT: an engine reset past its maximum quiesces the module (R404, Table 16.6). -/
def execEngineResetTimeout (s : State) : Out :=
  match s.engineReset with
  | none => .next s
  | some r => .next (if s.engineLate r && !s.inReset then s.engineFail r else s)

end Sys2Proof.Machine
end

