-- ==== Sys2Proof/Machine/Pins.lean ====
section
/-!
DEFINITION. The latch handle, the carrier bus, the FRU EEPROM and the service lamp (R425, R434 to R436, R441).
-/
namespace Sys2Proof.Machine

/-! ### The fibre connectors -/

/-- Connector and slot of a port (Table 13.2). -/
def portSlot (p : Nat) : Nat × Nat := (4 * (p / 26) + p % 26 / 8, p % 26 % 8)

/-- Fibre positions on which a slot transmits and receives (R329). -/
def slotFibres (k : Nat) : Nat × Nat := (k + 1, 16 - k)

/-! ### The latch handle -/

/-- LATCH_OPEN: the cam of each fibre block drives both elements closed, powered or not; the ports see the light change (R425, R346). -/
def execLatchOpen (s : State) : Out :=
  let s := { s with latchOpen := true }
  .next ((List.range 8).foldl (fun s n =>
    let z := pairDie n
    let i := pairBlk n
    let was := s.flag z i 0x108 0
    let s := (s.setFlag z i 0x108 0 true).setFlag z i 0x108 1 false
    if was then s
    else (pairPorts n).foldl (fun s p => s.portDown p true) (if s.run == .unpowered then s else s.bump z i 0x110 1)) s)

/-- LATCH_CLOSE: closing the handle releases the cam (R425). -/
def execLatchClose (s : State) : Out := .next { s with latchOpen := false }

/-! ### The status target -/

/-- Static addresses of the status target and of the FRU EEPROM (R434). -/
def statusAddr : BitVec 7 := 0x3C
def fruAddr : BitVec 7 := 0x50

/-- Whether the status target answers an address: while the module is powered, its static one in I2C mode, and in I3C mode the one that SETDASA has
assigned (R434). -/
def State.targetAnswers (s : State) (bus : BusAddr) : Bool :=
  s.run != .unpowered && match bus with
    | .i2c a => a == statusAddr
    | .i3c a => s.pins.dynamic == some a

/-- SETDASA: the carrier assigns the target of a static address a dynamic address; the status target is present while the module is powered
(R434). -/
def execSetdasa (bus a : BitVec 7) (s : State) : Out :=
  .next (if s.targetAnswers (.i2c bus) then { s with pins := { s.pins with dynamic := some a } }.emit (.bus []) else s.emit .busNack)

/-- STATUS_TARGET_OFFSET: a write of one byte sets the offset; a longer one, and one to another address, is not acknowledged (R434). -/
def execStatusTargetOffset (bus : BusAddr) (bytes : List Byte) (s : State) : Out :=
  match s.targetAnswers bus, bytes with
  | true, [b] => .next ({ s with pins := { s.pins with offset := b.toNat } }.emit (.bus []))
  | _, _ => .next (s.emit .busNack)

/-- STATUS_TARGET_READ: `n` bytes of the status record from the offset, wrapping at 256 (R434). -/
def execStatusTargetRead (bus : BusAddr) (n : Nat) (s : State) : Out :=
  .next (if s.targetAnswers bus then s.emit (.bus ((List.range n).map fun i => s.statusByte ((s.pins.offset + i) % 256))) else s.emit .busNack)

/-! ### The FRU EEPROM -/

/-- ASCII "HZFR", "SF3208-A" and "SF3208-A-B0-L". -/
def fruMagic : List Byte := [0x48, 0x5A, 0x46, 0x52]
def partNumber : List Byte := [0x53, 0x46, 0x33, 0x32, 0x30, 0x38, 0x2D, 0x41]
def orderingCode : List Byte := partNumber ++ [0x2D, 0x42, 0x30, 0x2D, 0x4C, if Config.shippedL8 then 0x38 else 0x30]

/-- Bytes padded with zeros to `n`. -/
def padTo (n : Nat) (bs : List Byte) : List Byte := bs ++ List.replicate (n - bs.length) 0

/-- Bytes 0x000 to 0x0FB of the FRU EEPROM (Table 17.8). -/
def fruBody : List Byte :=
  padTo 8 (fruMagic ++ [0x01]) ++ padTo 16 partNumber ++ padTo 8 [0xB0] ++ bytesOf 8 Config.serial.toNat ++
    padTo 8 (bytesOf 6 (macOf 0)).reverse ++ padTo 16 (bytesOf 4 Config.madeOn.toNat) ++ padTo 32 orderingCode ++
    padTo 156 (bytesOf 2 6000 ++ bytesOf 2 6200 ++ bytesOf 2 160 ++ bytesOf 2 100 ++ [40])

/-- Byte `i` of the FRU EEPROM (R435). -/
def fruByte (i : Nat) : Byte :=
  if i < 0xFC then fruBody.getD i 0
  else if i < 0x100 then BitVec.ofNat 8 (crc32c fruBody / 2 ^ (8 * (i - 0xFC)))
  else 0xFF

/-- FRU_READ: bytes of the EEPROM's 8 KiB from an offset, whether or not the module is powered (R434, R435). -/
def execFruRead (bus : BusAddr) (off : BitVec 13) (n : Nat) (s : State) : Out :=
  .next (s.emit (if bus = .i2c fruAddr then .bus ((List.range n).map fun i => fruByte ((off.toNat + i) % 8192)) else .busNack))

/-! ### The service lamp -/

/-- Whether `FAULT_LED` sinks current (R436). -/
def State.faultLed (s : State) : Bool := s.run == .quiesced || s.run == .held || s.run == .recovery

end Sys2Proof.Machine
end

