-- ==== Sys2Proof/Machine/Skew.lean ====
section
/-!
DEFINITION. The Skew instructions (chapters 6 and 8); their forms are in Vector and Sfu, their start in Sched.
-/
namespace Sys2Proof.Machine

/-- VFP is dispatched into its unit's queue: an FP32 arithmetic form (R140). -/
def execVfp (d : Fin 8) (c : Fin 24) (f : EngFacts) (s : State) : Out := .next (s.toUnit d c .vfp f)

/-- VBF is dispatched into its unit's queue: a packed BF16 arithmetic form (R140). -/
def execVbf (d : Fin 8) (c : Fin 24) (f : EngFacts) (s : State) : Out := .next (s.toUnit d c .vbf f)

/-- VINT is dispatched into its unit's queue: an INT32 form (R140). -/
def execVint (d : Fin 8) (c : Fin 24) (f : EngFacts) (s : State) : Out := .next (s.toUnit d c .vint f)

/-- VSFU is dispatched into its unit's queue: a special function (R141). -/
def execVsfu (d : Fin 8) (c : Fin 24) (f : EngFacts) (s : State) : Out := .next (s.toUnit d c .vsfu f)

/-- VRED is dispatched into its unit's queue: reduces one register in a fixed pairwise tree (R142). -/
def execVred (d : Fin 8) (c : Fin 24) (f : EngFacts) (s : State) : Out := .next (s.toUnit d c .vred f)

/-- VPERM is dispatched into its unit's queue: gathers, broadcasts or transposes (R143). -/
def execVperm (d : Fin 8) (c : Fin 24) (f : EngFacts) (s : State) : Out := .next (s.toUnit d c .vperm f)

/-- VCVT is dispatched into its unit's queue: converts between formats (R144). -/
def execVcvt (d : Fin 8) (c : Fin 24) (f : EngFacts) (s : State) : Out := .next (s.toUnit d c .vcvt f)

/-- SLD is dispatched into its unit's queue: loads a register from scratch (R145, R220). -/
def execSld (d : Fin 8) (c : Fin 24) (f : EngFacts) (s : State) : Out := .next (s.toUnit d c .sld f)

/-- SST is dispatched into its unit's queue: stores a register to scratch (R145, R220). -/
def execSst (d : Fin 8) (c : Fin 24) (f : EngFacts) (s : State) : Out := .next (s.toUnit d c .sst f)

/-- SPUSH is dispatched into its unit's queue: sends one push tile from scratch (R146, R220). -/
def execSpush (d : Fin 8) (c : Fin 24) (f : EngFacts) (s : State) : Out := .next (s.toUnit d c .spush f)

/-- VIMM is dispatched into its unit's queue: writes a 32-bit immediate (R217). -/
def execVimm (d : Fin 8) (c : Fin 24) (f : EngFacts) (s : State) : Out := .next (s.toUnit d c .vimm f)

end Sys2Proof.Machine
end

