-- ==== Sys2Proof/Machine/Dispatch.lean ====
section
/-!
DEFINITION. The effect of each command on everything but the queue: one arm for each command, one call of its meaning.
-/
namespace Sys2Proof.Machine

/-- The effect of a command. -/
def exec (i : Instr) (s : State) : Host.Outcome State Fault Refusal :=
  match i with
  | .transferHop d path st f => Sys2Proof.Machine.execTransferHop d path st f s
  | .starveAssert d dir st => Sys2Proof.Machine.execStarveAssert d dir st s
  | .portTileArrive d st => Sys2Proof.Machine.execPortTileArrive d st s
  | .creditReturn d st => Sys2Proof.Machine.execCreditReturn d st s
  | .transferRelease d path st same f => Sys2Proof.Machine.execTransferRelease d path st same f s
  | .slipHold d q => Sys2Proof.Machine.execSlipHold d q s
  | .countedTileWaitEnd d path st => Sys2Proof.Machine.execCountedTileWaitEnd d path st s
  | .starveMaxClr d st v => Sys2Proof.Machine.execStarveMaxClr d st v s
  | .endProgram d c corrected => Sys2Proof.Machine.execEndProgram d c corrected s
  | .loop d c corrected => Sys2Proof.Machine.execLoop d c corrected s
  | .delay d c corrected => Sys2Proof.Machine.execDelay d c corrected s
  | .delayExpire d c => Sys2Proof.Machine.execDelayExpire d c s
  | .tsig d c corrected => Sys2Proof.Machine.execTsig d c corrected s
  | .tsigDrainDepart d c => Sys2Proof.Machine.execTsigDrainDepart d c s
  | .twait d c corrected => Sys2Proof.Machine.execTwait d c corrected s
  | .waitSatisfied d q slot => Sys2Proof.Machine.execWaitSatisfied d q slot s
  | .phaseStart d q => Sys2Proof.Machine.execPhaseStart d q s
  | .qreq d c f => Sys2Proof.Machine.execQreq d c f s
  | .qwait d c corrected => Sys2Proof.Machine.execQwait d c corrected s
  | .queueRequestComplete d c k same => Sys2Proof.Machine.execQueueRequestComplete d c k same s
  | .bubble d c corrected => Sys2Proof.Machine.execBubble d c corrected s
  | .backfillSuspend d c => Sys2Proof.Machine.execBackfillSuspend d c s
  | .bubbleWindowEnd d c => Sys2Proof.Machine.execBubbleWindowEnd d c s
  | .hint d c corrected => Sys2Proof.Machine.execHint d c corrected s
  | .setop d c same corrected => Sys2Proof.Machine.execSetop d c same corrected s
  | .send d c f => Sys2Proof.Machine.execSend d c f s
  | .axset d c corrected => Sys2Proof.Machine.execAxset d c corrected s
  | .cexp d c corrected => Sys2Proof.Machine.execCexp d c corrected s
  | .wld d c f => Sys2Proof.Machine.execWld d c f s
  | .wswap d c f => Sys2Proof.Machine.execWswap d c f s
  | .rs d c f => Sys2Proof.Machine.execRs d c f s
  | .rowReissue d c f => Sys2Proof.Machine.execRowReissue d c f s
  | .weightReloadDone d c f => Sys2Proof.Machine.execWeightReloadDone d c f s
  | .epi d c f => Sys2Proof.Machine.execEpi d c f s
  | .pushTileSend d c corrected => Sys2Proof.Machine.execPushTileSend d c corrected s
  | .tbld d c f => Sys2Proof.Machine.execTbld d c f s
  | .chout d c f => Sys2Proof.Machine.execChout d c f s
  | .chin d c f => Sys2Proof.Machine.execChin d c f s
  | .chainInStart d c => Sys2Proof.Machine.execChainInStart d c s
  | .vfp d c f => Sys2Proof.Machine.execVfp d c f s
  | .vbf d c f => Sys2Proof.Machine.execVbf d c f s
  | .vint d c f => Sys2Proof.Machine.execVint d c f s
  | .vsfu d c f => Sys2Proof.Machine.execVsfu d c f s
  | .vred d c f => Sys2Proof.Machine.execVred d c f s
  | .vperm d c f => Sys2Proof.Machine.execVperm d c f s
  | .vcvt d c f => Sys2Proof.Machine.execVcvt d c f s
  | .sld d c f => Sys2Proof.Machine.execSld d c f s
  | .sst d c f => Sys2Proof.Machine.execSst d c f s
  | .spush d c f => Sys2Proof.Machine.execSpush d c f s
  | .vimm d c f => Sys2Proof.Machine.execVimm d c f s
  | .hartStart d q h => Sys2Proof.Machine.execHartStart d q h s
  | .hartStop d q h => Sys2Proof.Machine.execHartStop d q h s
  | .hartInstruction d q h f => Sys2Proof.Machine.execHartInstruction d q h f s
  | .hartExternalAccess d q h => Sys2Proof.Machine.execHartExternalAccess d q h s
  | .qpush d q h => Sys2Proof.Machine.execQpush d q h s
  | .hartQwait d q h => Sys2Proof.Machine.execHartQwait d q h s
  | .tksig d q h => Sys2Proof.Machine.execTksig d q h s
  | .tkwait d q h => Sys2Proof.Machine.execTkwait d q h s
  | .cbTake d q h => Sys2Proof.Machine.execCbTake d q h s
  | .cbRead d q h => Sys2Proof.Machine.execCbRead d q h s
  | .cbSet d q h => Sys2Proof.Machine.execCbSet d q h s
  | .cbMask d q h => Sys2Proof.Machine.execCbMask d q h s
  | .cbLog d q h => Sys2Proof.Machine.execCbLog d q h s
  | .seStart d q h => Sys2Proof.Machine.execSeStart d q h s
  | .seStat d q h => Sys2Proof.Machine.execSeStat d q h s
  | .wsend d q h => Sys2Proof.Machine.execWsend d q h s
  | .wsendTimeout d q h => Sys2Proof.Machine.execWsendTimeout d q h s
  | .wrecv d q h bad => Sys2Proof.Machine.execWrecv d q h bad s
  | .tick d q h => Sys2Proof.Machine.execTick d q h s
  | .streamRequestGrant d q e => Sys2Proof.Machine.execStreamRequestGrant d q e s
  | .streamEntryComplete d q t => Sys2Proof.Machine.execStreamEntryComplete d q t s
  | .partingReceive d q path => Sys2Proof.Machine.execPartingReceive d q path s
  | .epochRetry d q t => Sys2Proof.Machine.execEpochRetry d q t s
  | .deadlineMiss d q t => Sys2Proof.Machine.execDeadlineMiss d q t s
  | .boardArrival d q err => Sys2Proof.Machine.execBoardArrival d q err s
  | .mail src dst f => Sys2Proof.Machine.execMail src dst f s
  | .slotAdd src dst f => Sys2Proof.Machine.execSlotAdd src dst f s
  | .whittleWrite src dst f => Sys2Proof.Machine.execWhittleWrite src dst f s
  | .refuse src dst f => Sys2Proof.Machine.execRefuse src dst f s
  | .ceOpen src dst f => Sys2Proof.Machine.execCeOpen src dst f s
  | .pushTileArrive d => Sys2Proof.Machine.execPushTileArrive d s
  | .parkedTileProceed d => Sys2Proof.Machine.execParkedTileProceed d s
  | .forwardedValuesArrive d => Sys2Proof.Machine.execForwardedValuesArrive d s
  | .chunkConvert d slot k => Sys2Proof.Machine.execChunkConvert d slot k s
  | .grainChunk d => Sys2Proof.Machine.execGrainChunk d s
  | .overflow d => Sys2Proof.Machine.execOverflow d s
  | .prepass d => Sys2Proof.Machine.execPrepass d s
  | .grainResult d => Sys2Proof.Machine.execGrainResult d s
  | .redo d => Sys2Proof.Machine.execRedo d s
  | .bf16Chunk d => Sys2Proof.Machine.execBf16Chunk d s
  | .bf16Result d => Sys2Proof.Machine.execBf16Result d s
  | .scaleBytes d => Sys2Proof.Machine.execScaleBytes d s
  | .gatherChunk d => Sys2Proof.Machine.execGatherChunk d s
  | .bucketStalled d slot => Sys2Proof.Machine.execBucketStalled d slot s
  | .fbLogBaseWrite d hi v => Sys2Proof.Machine.execFbLogBaseWrite d hi v s
  | .loadImage job d rank layout points bytes => Sys2Proof.Machine.execLoadImage job d rank layout points bytes s
  | .jobUnload => Sys2Proof.Machine.execJobUnload s
  | .partAdmit d c same => Sys2Proof.Machine.execPartAdmit d c same s
  | .partServe d c bank errs => Sys2Proof.Machine.execPartServe d c bank errs s
  | .refresh d c bank => Sys2Proof.Machine.execRefresh d c bank s
  | .scrubRead d c lanes => Sys2Proof.Machine.execScrubRead d c lanes s
  | .readAheadFill d c requester errs => Sys2Proof.Machine.execReadAheadFill d c requester errs s
  | .readAheadLand d c => Sys2Proof.Machine.execReadAheadLand d c s
  | .sapwoodRequest t src f => Sys2Proof.Machine.execSapwoodRequest t src f s
  | .sapwoodMissFill t f => Sys2Proof.Machine.execSapwoodMissFill t f s
  | .sapwoodPrefetch t j => Sys2Proof.Machine.execSapwoodPrefetch t j s
  | .prefetchLand t f => Sys2Proof.Machine.execPrefetchLand t f s
  | .sramWriteback d c => Sys2Proof.Machine.execSramWriteback d c s
  | .cacheLineRefetch t line f => Sys2Proof.Machine.execCacheLineRefetch t line f s
  | .opReqWrite d q v => Sys2Proof.Machine.execOpReqWrite d q v s
  | .railRampComplete d q => Sys2Proof.Machine.execRailRampComplete d q s
  | .regionHoldBegin d q => Sys2Proof.Machine.execRegionHoldBegin d q s
  | .generatorLock d q => Sys2Proof.Machine.execGeneratorLock d q s
  | .regionHoldResume d q => Sys2Proof.Machine.execRegionHoldResume d q s
  | .holdOverrun d q => Sys2Proof.Machine.execHoldOverrun d q s
  | .opChangeStalled d q => Sys2Proof.Machine.execOpChangeStalled d q s
  | .periodStretch d q eighths => Sys2Proof.Machine.execPeriodStretch d q eighths s
  | .droopFlagClear d q => Sys2Proof.Machine.execDroopFlagClear d q s
  | .droopLimitRelease d q => Sys2Proof.Machine.execDroopLimitRelease d q s
  | .regionClockFault d q c => Sys2Proof.Machine.execRegionClockFault d q c s
  | .regulatorAlert f => Sys2Proof.Machine.execRegulatorAlert f s
  | .alertClearIntervalEnd => Sys2Proof.Machine.execAlertClearIntervalEnd s
  | .alertRelease v => Sys2Proof.Machine.execAlertRelease v s
  | .tickSet v => Sys2Proof.Machine.execTickSet v s
  | .adjPhase v => Sys2Proof.Machine.execAdjPhase v s
  | .holdover => Sys2Proof.Machine.execHoldover s
  | .slipMaxClr d q v => Sys2Proof.Machine.execSlipMaxClr d q v s
  | .governorPeriod => Sys2Proof.Machine.execGovernorPeriod s
  | .governorResultsEffect => Sys2Proof.Machine.execGovernorResultsEffect s
  | .shareUpdate => Sys2Proof.Machine.execShareUpdate s
  | .capUnmet => Sys2Proof.Machine.execCapUnmet s
  | .govCapWrite v => Sys2Proof.Machine.execGovCapWrite v s
  | .govFail g => Sys2Proof.Machine.execGovFail g s
  | .governorMissing => Sys2Proof.Machine.execGovernorMissing s
  | .powerSample f => Sys2Proof.Machine.execPowerSample f s
  | .capStatusSend => Sys2Proof.Machine.execCapStatusSend s
  | .capStatus => Sys2Proof.Machine.execCapStatus s
  | .exchangeTargets => Sys2Proof.Machine.execExchangeTargets s
  | .vinOver mv => Sys2Proof.Machine.execVinOver mv s
  | .powerLoss mv ticks => Sys2Proof.Machine.execPowerLoss mv ticks s
  | .overcurrentStop ma ticks => Sys2Proof.Machine.execOvercurrentStop ma ticks s
  | .trip f => Sys2Proof.Machine.execTrip f s
  | .frameReceive p f g => Sys2Proof.Machine.execFrameReceive p f g s
  | .pfcFrame p => Sys2Proof.Machine.execPfcFrame p s
  | .hostFrame d hs frac => Sys2Proof.Machine.execHostFrame d hs frac s
  | .remoteRequest d => Sys2Proof.Machine.execRemoteRequest d s
  | .ringNativeSend d => Sys2Proof.Machine.execRingNativeSend d s
  | .ringNativeBlock p b g => Sys2Proof.Machine.execRingNativeBlock p b g s
  | .hctAck d => Sys2Proof.Machine.execHctAck d s
  | .hctAckSend d rank ce => Sys2Proof.Machine.execHctAckSend d rank ce s
  | .hctRetransmitTimeout d rank ce => Sys2Proof.Machine.execHctRetransmitTimeout d rank ce s
  | .flowFatal d rank ce => Sys2Proof.Machine.execFlowFatal d rank ce s
  | .flowEvict d rank ce => Sys2Proof.Machine.execFlowEvict d rank ce s
  | .ccIncrease d rank ce => Sys2Proof.Machine.execCcIncrease d rank ce s
  | .roceReadRequest d => Sys2Proof.Machine.execRoceReadRequest d s
  | .roceWriteRequest d => Sys2Proof.Machine.execRoceWriteRequest d s
  | .roceSendRequest d => Sys2Proof.Machine.execRoceSendRequest d s
  | .roceResponse d => Sys2Proof.Machine.execRoceResponse d s
  | .roceAckTimeout d q => Sys2Proof.Machine.execRoceAckTimeout d q s
  | .sakLoad p v => Sys2Proof.Machine.execSakLoad p v s
  | .tblStore e v => Sys2Proof.Machine.execTblStore e v s
  | .laserInsert d grid lowPower => Sys2Proof.Machine.execLaserInsert d grid lowPower s
  | .laserRemove d => Sys2Proof.Machine.execLaserRemove d s
  | .laserFault d lowPower => Sys2Proof.Machine.execLaserFault d lowPower s
  | .ringDither p margin relocked => Sys2Proof.Machine.execRingDither p margin relocked s
  | .linkTrainComplete p f => Sys2Proof.Machine.execLinkTrainComplete p f s
  | .linkDown p k => Sys2Proof.Machine.execLinkDown p k s
  | .bypassOpen n => Sys2Proof.Machine.execBypassOpen n s
  | .bypassClose n => Sys2Proof.Machine.execBypassClose n s
  | .packageLinkRefuse d st => Sys2Proof.Machine.execPackageLinkRefuse d st s
  | .fppInj p v => Sys2Proof.Machine.execFppInj p v s
  | .bedInj d st v => Sys2Proof.Machine.execBedInj d st v s
  | .gougeChkInj d c v => Sys2Proof.Machine.execGougeChkInj d c v s
  | .skewChkInj d c v => Sys2Proof.Machine.execSkewChkInj d c v s
  | .registerWrite core a => Sys2Proof.Machine.execRegisterWrite core a s
  | .throughAccessTimeout => Sys2Proof.Machine.execThroughAccessTimeout s
  | .shadowRefresh => Sys2Proof.Machine.execShadowRefresh s
  | .applyMask v => Sys2Proof.Machine.execApplyMask v s
  | .applyStrobe => Sys2Proof.Machine.execApplyStrobe s
  | .cntClr z idx v => Sys2Proof.Machine.execCntClr z idx v s
  | .lock z idx => Sys2Proof.Machine.execLock z idx s
  | .grpLock z idx => Sys2Proof.Machine.execGrpLock z idx s
  | .snapAtTick v => Sys2Proof.Machine.execSnapAtTick v s
  | .snapshotLatch => Sys2Proof.Machine.execSnapshotLatch s
  | .statusRecordBuild => Sys2Proof.Machine.execStatusRecordBuild s
  | .mgmtConnect conn => Sys2Proof.Machine.execMgmtConnect conn s
  | .mgmtDisconnect conn => Sys2Proof.Machine.execMgmtDisconnect conn s
  | .sessionTimeout conn => Sys2Proof.Machine.execSessionTimeout conn s
  | .hello r nonce want slot => Sys2Proof.Machine.execHello r nonce want slot s
  | .encap r ct signed => Sys2Proof.Machine.execEncap r ct signed s
  | .closeSession r => Sys2Proof.Machine.execCloseSession r s
  | .statusCmd r => Sys2Proof.Machine.execStatusCmd r s
  | .regRead r l => Sys2Proof.Machine.execRegRead r l s
  | .regWrite r l => Sys2Proof.Machine.execRegWrite r l s
  | .attest r => Sys2Proof.Machine.execAttest r s
  | .elogRead r seq n => Sys2Proof.Machine.execElogRead r seq n s
  | .mboxPut r => Sys2Proof.Machine.execMboxPut r s
  | .mboxGet r => Sys2Proof.Machine.execMboxGet r s
  | .snapshotCmd r t => Sys2Proof.Machine.execSnapshotCmd r t s
  | .applyCmd r v => Sys2Proof.Machine.execApplyCmd r v s
  | .capSet r v => Sys2Proof.Machine.execCapSet r v s
  | .resetEngine r mask keep => Sys2Proof.Machine.execResetEngine r mask keep s
  | .engineResetTimeout => Sys2Proof.Machine.execEngineResetTimeout s
  | .resetWarm r => Sys2Proof.Machine.execResetWarm r s
  | .slotEnrol r k digest max => Sys2Proof.Machine.execSlotEnrol r k digest max s
  | .slotRevoke r k => Sys2Proof.Machine.execSlotRevoke r k s
  | .claim r digest max => Sys2Proof.Machine.execClaim r digest max s
  | .flashWrite r m => Sys2Proof.Machine.execFlashWrite r m s
  | .ownerLock r noDebug => Sys2Proof.Machine.execOwnerLock r noDebug s
  | .jtagOpen r => Sys2Proof.Machine.execJtagOpen r s
  | .jtagUnlock v => Sys2Proof.Machine.execJtagUnlock v s
  | .recoveryFlashWrite r copy => Sys2Proof.Machine.execRecoveryFlashWrite r copy s
  | .hrxBaseWrite hs r v => Sys2Proof.Machine.execHrxBaseWrite hs r v s
  | .wdogArm period => Sys2Proof.Machine.execWdogArm period s
  | .wdogKick => Sys2Proof.Machine.execWdogKick s
  | .wdogExpire => Sys2Proof.Machine.execWdogExpire s
  | .coldReset mv => Sys2Proof.Machine.execColdReset mv s
  | .resetNAssert twice => Sys2Proof.Machine.execResetNAssert twice s
  | .resetNRelease => Sys2Proof.Machine.execResetNRelease s
  | .startupStepComplete f => Sys2Proof.Machine.execStartupStepComplete f s
  | .startupStepTimeout f => Sys2Proof.Machine.execStartupStepTimeout f s
  | .latchOpen => Sys2Proof.Machine.execLatchOpen s
  | .latchClose => Sys2Proof.Machine.execLatchClose s
  | .setdasa bus a => Sys2Proof.Machine.execSetdasa bus a s
  | .statusTargetOffset bus bytes => Sys2Proof.Machine.execStatusTargetOffset bus bytes s
  | .statusTargetRead bus n => Sys2Proof.Machine.execStatusTargetRead bus n s
  | .fruRead bus off n => Sys2Proof.Machine.execFruRead bus off n s
  | .alertSourceChange f => Sys2Proof.Machine.execAlertSourceChange f s
  | .engineResetComplete => Sys2Proof.Machine.execEngineResetComplete s
  | .bypassElementSwitched n => Sys2Proof.Machine.execBypassElementSwitched n s
  | .transceiverInsert media => Sys2Proof.Machine.execTransceiverInsert media s
  | .transceiverRemove => Sys2Proof.Machine.execTransceiverRemove s
  | .mgmtFrameReceive kind target => Sys2Proof.Machine.execMgmtFrameReceive kind target s
  | .unknownCommand r cmd => Sys2Proof.Machine.execUnknownCommand r cmd s
  | .headstockAccessFault core k => Sys2Proof.Machine.execHeadstockAccessFault core k s
  | .illegalEncoding d c f => Sys2Proof.Machine.execIllegalEncoding d c f s

end Sys2Proof.Machine
end

