-- ==== Sys2Proof/Machine/Tick.lean ====
section
/-!
DEFINITION. The tick edge: what time alone does (log entry 2).
-/
namespace Sys2Proof.Machine

/-! ### Cycles of the tick -/

/-- Cycles that a quarter has executed since the waiting cycles were last counted (R252, R261, R264). -/
def State.cyclesNow (s : State) (d q : Nat) : Nat := (s.quarter d q).cycle - (s.quarter d q).counted

/-- Whether a core's dispatch is held at a TWAIT, a QWAIT or a landing wait; a bubble window is no wait (R292). -/
def State.waitsNow (s : State) (d c : Nat) : Bool :=
  let x := s.core d c
  s.progState d c == 1 && x.window.isNone &&
    (match x.prog.hold with
      | some (.token ..) => true
      | some (.phase _) => true
      | some (.landing _) => true
      | some (.queue ..) => true
      | _ => false)

/-- Whether a reduction push of the core waits for credit (R106, R146). -/
def State.pushWaits (s : State) (d c : Nat) : Bool :=
  match (s.core d c).nextPush with
  | some o => !s.mayStart d 14 o.total
  | none => false

/-- Whether an instruction of the core waits for accumulator words: the first of a unit, or the next row of one under way (R48). -/
def State.ilockWaits (s : State) (d c : Nat) : Bool :=
  let x := s.core d c
  let head := ([0, 2, 3] ++ (if x.bfActive then [4, 6, 7] else [])).any fun u =>
    match x.unit u with
    | e :: _ => !e.started && (s.rowWaits d c e 0 || s.accFull d c e)
    | [] => false
  let row (e : UEntry) (next : Nat) : Bool := (!e.backfill || x.bfActive) && s.rowWaits d c e next
  head || ([x.stream, x.streamB].any fun y => match y with | some y => row y.entry y.next | none => false) ||
    x.works.any fun w => row w.entry w.next

/-- Whether a row stream of the core waits for the array limit (R183). -/
def State.arrayWaits (s : State) (d c : Nat) : Bool := (s.arrayWaiters d (c / 6)).any fun w => w.1 == c

/-- A core's counters of waiting cycles, for `n` cycles (R48, R59, R106, R139, R146, R180). -/
def State.coreWaits (s : State) (d c n : Nat) : State :=
  let x := s.core d c
  let s := s.bump d c 0x1F0 (if x.stalled || x.epiStalled then n else 0)
  let s := if isGouge c then s.bump d c 0x118 (if s.ilockWaits d c then n else 0) else s
  let s := s.bump d c (if isGouge c then 0x1D8 else 0x130) (if s.pushWaits d c then n else 0)
  s.bump d c 0x128 (if (if isGouge c then chinWaits (x.unit 3) || (x.bfActive && chinWaits (x.unit 7)) else x.rawWait) then n else 0)

/-- Counters of cycles in which a part waited: by requester for its own limit of 8, and by controller for a bank's 64 places (R230,
R249, R251). -/
def State.partWaits (s : State) (n : Nat → Nat → Nat) : State :=
  let full := s.waiting.filter fun p => decide (64 ≤ (s.inBank p.die p.core p.bank).length) && !s.raHit p
  let cores := ((s.held.filter fun p => decide (p.fromIdx < 24) && !isParting p.fromIdx).map fun p => (p.fromDie, p.fromIdx)).eraseDups
  let engines := ((s.held.filter fun p => decide (24 ≤ p.fromIdx) && decide (p.fromIdx < 32)).map
    fun p => (p.fromDie, (p.fromIdx - 24) / 2)).eraseDups
  let ctls := (full.map fun p => (p.die, p.core)).eraseDups
  let s := cores.foldl (fun s k => s.bump k.1 k.2 0x2A8 (n k.1 (k.2 / 6))) s
  let s := engines.foldl (fun s k => s.bump k.1 (ptCore k.2) 0x1A0 (n k.1 k.2)) s
  ctls.foldl (fun s k => s.bump k.1 (hwcBlk k.2) 0x120 (n k.1 (k.2 / 6))) s

/-- Cores that hold anything. -/
def State.busyCores (s : State) : List (Nat × Nat) := (s.cores.map fun c => (c.1 / 24, c.1 % 24)).filter fun p => !isParting p.2

/-- What waits in the tick that ends is counted (R59, R106, R146, R180, R183, R230, R292). -/
def State.tallies (s : State) : State :=
  let ns := allQuarters.map fun p => s.cyclesNow p.1 p.2
  let n (d q : Nat) : Nat := ns.getD (4 * d + q) 0
  let ran := (List.range 8).map fun d => (d, 3 * (n d 0 + n d 1 + n d 2 + n d 3))
  let held := (s.busyCores.filter fun p => isGouge p.2 && s.waitsNow p.1 p.2).map fun p => (p.1, n p.1 (p.2 / 6))
  let add (m : Sparse Nat) (l : List (Nat × Nat)) : Sparse Nat :=
    l.foldl (fun m p => Sparse.put nat0 m p.1 (Sparse.get nat0 m p.1 + p.2)) m
  let s := { s with gov := { s.gov with coreCyc := add s.gov.coreCyc ran, waitCyc := add s.gov.waitCyc held } }
  let lim := ((s.busyCores.filter fun p => s.arrayWaits p.1 p.2).map fun p => (p.1, p.2 / 6)).eraseDups
  let s := s.busyCores.foldl (fun s p => s.coreWaits p.1 p.2 (n p.1 (p.2 / 6))) s
  let s := lim.foldl (fun s p => s.bump p.1 (qBlk p.2) 0x190 (n p.1 p.2)) s
  let s := s.partWaits n
  allQuarters.foldl (fun s p => s.setQuarter p.1 p.2 { s.quarter p.1 p.2 with counted := (s.quarter p.1 p.2).cycle }) s

/-! ### The edge -/

/-- `BED.RATE` over the last 1,024 ticks: free values from 1,600 to 2,400 M transfers/s (R18, R34). -/
def State.bedRates (s : State) : State :=
  if s.tick % 1024 ≠ 0 then s
  else
    (List.range 240).foldl (fun s n =>
      let (w, s) := s.freeNat 16
      let (a, s) := s.freeNat 16
      s.setRg (n / 30) (stBlk (n % 30)) 0x104 (BitVec.ofNat 32 (1600 + w % 801 + (1600 + a % 801) * 2 ^ 16))) s

/-- `GOV.ALERT_CLEAR.TICKS`: ticks of the alert-clear interval so far (R296, R301). -/
def State.clearTick (s : State) : State :=
  match s.gov.clearAt with
  | some t => s.setFld 24 0 0x18C 0 17 (min clearTicks (s.tick - t))
  | none => s

/-- Pauses of the ports that end at this tick (R333). -/
def State.endPauses (s : State) : State :=
  (s.ports.filter fun c => match c.2.pausedTo with | some t => decide (t ≤ s.tick) | none => false).foldl (fun s c => s.unpause c.1) s

/-- Registers of the ports that wait for a frame boundary: frames are whole steps of the model, so every tick edge is one (R354). -/
def State.portBoundaries (s : State) : State :=
  ((s.staged.filter fun (c : Nat × Option W32) => pageType (c.1 / 2 ^ 24) (c.1 / 2 ^ 12 % 2 ^ 12) == some .fpp && isNatural .fpp (c.1 % 2 ^ 12)).map
    fun c => c.1).foldl (fun s k => s.commit (k / 2 ^ 24) (k / 2 ^ 12 % 2 ^ 12) (k % 2 ^ 12)) s

/-- The tick generator at an edge: what was written to it, the slew, and the ticks without an adjustment (R269, R270, R276). -/
def State.generatorTick (s : State) : State :=
  let s := s.takeTickWrites.slewTick
  { s with tickGen := { s.tickGen with sinceAdj := s.tickGen.sinceAdj + 1 } }

/-- HS0 builds the status record and every block refreshes its shadow, from what stands at the edge (R361, R390). -/
def State.edgeViews (s : State) : State := s.buildStatus.refreshShadow

/-- A period of the watchdog that ends without a kick puts the Headstock in doubt (R408, R420). -/
def State.watchdogTick (s : State) : State := if s.watchdogOver then s.holdInReset 24 0xFFF 0 0x7F 0 else s

/-- A tick edge of a module whose dies are not held in reset. -/
def State.runTick (s : State) : State :=
  let s := s.latchSnapshot.deliverDue.energyTick
  let s := allQuarters.foldl (fun s p => s.quarterTick p.1 p.2) { s with tick := s.tick + 1, tickSeq := s.nextSeq }
  let s := allQuarters.foldl (fun s p => (s.quarterReleases p.1 p.2).takeAccepts p.1 p.2) s.tallies
  let s := s.generatorTick.clearTick.edgeViews.edgeClears.edgeSamples
  let s := allQuarters.foldl (fun s p => s.sampleFault p.1 p.2) s
  let s := s.crossThrough.workTick.bedRates.endPauses.portBoundaries.pumpTick.replayTick.ceTick.peerTick.loaderTick
  (s.busyCores.foldl (fun s p => s.settle p.1 p.2) s).watchdogTick

/-- A tick edge (log entry 2): without power there is none; held in reset, only the counter goes on (R408). -/
def State.tickEdge (s : State) : State :=
  if s.run = .unpowered then s
  else if s.inReset then
    let s := { s.latchSnapshot with tick := s.tick + 1, tickSeq := s.nextSeq }.snapAtEdge
    -- `RESET_N` low since before the module held itself: in two samples after it (R402, R408)
    if s.run == .held && s.pins.resetLow && decide (s.boot.stepAt + 2 ≤ s.tick) then (s.restart false true false).enterHold .pinReset else s
  else s.runTick

end Sys2Proof.Machine
end

