-- ==== Sys2Proof/Machine/Step.lean ====
section
/-!
DEFINITION. One step: the command at the front of the queue, or a tick edge.
-/
namespace Sys2Proof.Machine

/-- One step of the block: on an empty queue the block idles to the next tick edge (log entry 2). -/
def step (s : State) : Host.Outcome State Fault Refusal :=
  match s.pending with
  | [] => .next s.tickEdge
  | c :: rest => exec c { s with pending := rest }

/-- The state with the command that a word spells put in front of its queue: no row has bits, so no word spells one. -/
def State.withFetchWord (s : State) (nbits w : Nat) : State :=
  match decodeTableWord nbits w with
  | some c => { s with pending := c :: s.pending }
  | none => s

end Sys2Proof.Machine
end

