-- ==== Sys2Proof/Safety.lean ====
section
/-!
DEFINITION. The terms in which claims speak of states: the canonical form of the stores, and what a command leaves unchanged.
-/
namespace Sys2Proof.Machine

/-- The canonical form of a memory: addresses rise and no listed byte is what an unlisted address reads as, 0 (log entry 6). -/
def Memory.wf (m : Sparse Byte) : Bool := Sparse.wf byte0 m

/-- The stores of the module that its buses reach are canonical: the register file's live, staged and covered copies, the memories and their
poison tables. Equal contents are then equal data. -/
structure State.Canonical (s : State) : Prop where
  regs : Sparse.wf resetReg s.regs = true
  staged : Sparse.wf noStage s.staged = true
  covered : Sparse.wf noStage s.covered = true
  mem : Memory.wf s.mem = true
  memPoison : Sparse.wf false0 s.memPoison = true

/-- Nothing but live register values differs. -/
def onlyRegs (s t : State) : Prop := t = { s with regs := t.regs }

/-- Every register but those with the listed keys reads as before. -/
def regsBut (ks : List Nat) (s t : State) : Prop := ∀ z i off, rkey z i off ∉ ks → t.rg z i off = s.rg z i off

/-- What the module holds for its programs and its owner is as before: memories with their poison, cores, Parting cores, collective
engines, tables of the network engines, fuses and boot flash. -/
structure keepsData (s t : State) : Prop where
  mem : t.mem = s.mem
  memPoison : t.memPoison = s.memPoison
  cores : t.cores = s.cores
  parts : t.parts = s.parts
  engines : t.engines = s.engines
  tables : t.tables = s.tables
  fuses : t.fuses = s.fuses
  flash : t.flash = s.flash

/-- Every station of the module but those listed of die `d` is as before. -/
def stationsBut (d : Nat) (ts : List Nat) (s t : State) : Prop :=
  ∀ d' st, st < 30 → (d' ≠ d ∨ st ∉ ts) → t.station d' st = s.station d' st

/-- No part of a Gouge or Skew core waits at its bank's limit without its hazard reported (R230). -/
def State.WaitsTold (s : State) : Prop := ∀ p ∈ s.held, p.told = true ∨ 24 ≤ p.fromIdx ∨ isParting p.fromIdx = true

/-- The error log holds a record of this tick with these fields (Table 16.4). -/
def State.logged (s : State) (die block cls event response cause syndrome : Nat) : Prop :=
  ∃ seq, (⟨s.tick, seq, die, block, cls, event, response, cause, syndrome⟩ : ErrRec) ∈ s.elog

/-- The command that dispatches an instruction which enters a unit's queue (Table 8.1). -/
def unitCommand (d : Fin 8) (c : Fin 24) (f : EngFacts) : EngOp → Option Instr
  | .send => some (.send d c f)
  | .wld => some (.wld d c f)
  | .wswap => some (.wswap d c f)
  | .rs => some (.rs d c f)
  | .epi => some (.epi d c f)
  | .tbld => some (.tbld d c f)
  | .chout => some (.chout d c f)
  | .chin => some (.chin d c f)
  | .vfp => some (.vfp d c f)
  | .vbf => some (.vbf d c f)
  | .vint => some (.vint d c f)
  | .vsfu => some (.vsfu d c f)
  | .vred => some (.vred d c f)
  | .vperm => some (.vperm d c f)
  | .vcvt => some (.vcvt d c f)
  | .sld => some (.sld d c f)
  | .sst => some (.sst d c f)
  | .spush => some (.spush d c f)
  | .vimm => some (.vimm d c f)
  | .endProg | .loop | .delay | .tsig | .twait | .qreq | .qwait | .bubble | .hint | .setop | .axset | .cexp => none

/-- The nine messages of Table 5.6 and their commands. -/
def chunkCommand (d : Fin 8) : ChunkKind → Instr
  | .grain => .grainChunk d
  | .overflow => .overflow d
  | .prepass => .prepass d
  | .grainResult => .grainResult d
  | .redo => .redo d
  | .bf16 => .bf16Chunk d
  | .bf16Result => .bf16Result d
  | .scales => .scaleBytes d
  | .gather => .gatherChunk d

/-- A port takes frames from its link as they come: it is up in Ethernet framing, its die is not in an engine reset, no deliberate fault
is armed, nothing is staged on its page and MACsec is off (R330, R344, R353, R354). -/
structure PortReceives (s : State) (p : Nat) : Prop where
  ready : s.run = .ready
  up : s.linkUp p = true
  ethernet : (s.port p).ringNative = false
  running : s.resetting (portLathe p) = false
  clean : s.flag (portDie p) (portBlk p) 0x200 0 = false
  nothingHeld : (s.port p).heldRx = []
  nothingHeldBack : (s.port p).heldTx = []
  nothingStaged : ∀ off ∈ [0x104, 0x108, 0x118, 0x11C, 0x180], Sparse.get noStage s.staged (rkey (portDie p) (portBlk p) off) = none
  open_ : s.flag (portDie p) (portBlk p) 0x180 0 = false

/-- The management firmware executes a request of an established session next: the port is up, no other request's register accesses are under way, the
header is one of Table 15.1 and names the session, the tag verifies, `SEQ` follows the last one, and the privilege is at least `least` (R384, R385, R388,
R393). -/
structure Serves (s : State) (r : MgmtReq) (x : Session) (cmd least : Nat) : Prop where
  up : s.mgmtUp = true
  open_ : s.session r.conn = some x
  privilege : ∃ p, x.priv = some p ∧ least ≤ p
  unclaimed : x.unclaimed = true → cmd = 0x03 ∨ cmd = 0x10 ∨ cmd = 0x13 ∨ cmd = 0x52 ∨ cmd ∉ mgmtCodes
  idle : s.mgmt.work = none
  session : r.session.toNat = x.id
  tag : r.tag = x.tagFor r cmd
  form : reqFormOk r = true
  next : r.seq = x.seq + 1

/-- A request is answered once, with this status and payload, and the session keeps the reply for a repetition (R385). -/
def replied (s t : State) (r : MgmtReq) (x : Session) (cmd status : Nat) (payload : List Byte) : Prop :=
  t.out = s.out ++ [x.reply cmd status r.seq payload] ∧
    t.session r.conn = some { x with seq := r.seq, cached := some (x.reply cmd status r.seq payload), discards := 0, lastAt := s.tick }

/-- Nothing but the management firmware's own state and what it sends differs. -/
def onlyMgmt (s t : State) : Prop := t = { s with mgmt := t.mgmt, out := t.out }

/-- What a core meets at dispatch is instruction `i` of its program (`bf`: the back-fill one) at word `pc`, with legal operands
(R190, R201, R202). -/
structure Meets (s : State) (d c : Nat) (bf : Bool) (pc : Nat) (i : EngInstr) : Prop where
  fetched : ∃ first, s.fetch d c = .ok bf pc first i
  legal : s.dispatchBad d c bf i = false

/-- A hart executes now and meets operation `op` of the queue extension, of `len` bytes, with its operands (R148, R221). -/
structure HartMeets (s : State) (d q h : Nat) (op : QOp) (len : Nat) (x : QArgs) : Prop where
  ready : s.hartReady d q h = true
  meets : ∃ one f3 rs1 rs2, (s.part d q).fetch (s.hart d q h).pc = .instr (.custom one f3 x.f7 x.rd rs1 rs2) len ∧
    queueOp one f3 x.f7 = some op ∧ x.a = (s.hart d q h).reg rs1 ∧ x.b = (s.hart d q h).reg rs2

/-- The state with a hart past an instruction of `len` bytes. -/
def State.hartPast (s : State) (d q h len : Nat) : State := s.setHart d q h { s.hart d q h with pc := (s.hart d q h).pc + len }

/-- The state with a program past the instruction at `pc` (R200). -/
def State.past (s : State) (d c : Nat) (bf : Bool) (pc : Nat) (i : EngInstr) : State := s.setPc d c bf (pc + engLength i)

end Sys2Proof.Machine
end

