-- ==== Sys2Proof/Certificates/Slice0/Obligations.lean ====
section
/-!
DEFINITION. Statements about the model, each a Prop for the provers.
-/
open Sys2Proof Sys2Proof.Machine

/-! ## The machine as a whole -/

/-- A step takes the command at the front of the queue and carries it out on the state with the queue's rest (what a block's step is);
on an empty queue the block idles to the next tick edge (the model's choice, log entry 2). -/
def Obligations.StepRunsCommand : Prop :=
  (∀ (c : Instr) (rest : List Instr) (s : State), s.pending = c :: rest → step s = exec c { s with pending := rest }) ∧
  (∀ s : State, s.pending = [] → step s = .next s.tickEdge)

/-- No command ends in a fault or a refusal, in any state: the spec's faults are recorded events, and an event that is not due leaves
the state as it is (log entry 1). -/
def Obligations.EveryCommandAnswers : Prop := ∀ (c : Instr) (s : State), ∃ t, exec c s = .next t

/-- No command puts a command into the queue or takes one out: a step removes exactly the front one, and resets keep those that
wait. On an empty queue the only commands that a tick edge puts there are the requests that have waited for the management firmware, in their
order (the model's choice, log entry 61). -/
def Obligations.QueueIsFifo : Prop :=
  (∀ (c : Instr) rest (s t : State), s.pending = c :: rest → step s = .next t → t.pending = rest) ∧
  (∀ s t : State, s.pending = [] → step s = .next t → t.pending = [] ∨ t.pending = s.mgmt.waiting) ∧
  (∀ s t : State, s.pending = [] → s.mgmt.work = none → s.run = .ready → step s = .next t → t.run = .ready →
    t.pending = s.mgmt.waiting ∧ t.mgmt.waiting = [])

/-- The module right after reset holds canonical stores. -/
def Obligations.ResetIsCanonical : Prop := State.reset.Canonical

/-- Every step keeps the register file, its staged and covered copies, the memories and their poison tables canonical. -/
def Obligations.StepKeepsCanonical : Prop := ∀ (s t : State), s.Canonical → step s = .next t → t.Canonical

/-- What reset leaves in registers of every kind of page: version, identity and apply group, the Lathe die's and a station's identities, credit of a
port station, the clock's array limit and reset point, read-ahead and scrub, the fences of a Gouge core, MTU, watchdog and tick. That the machine
begins in start-up is how the model takes reset (log entry 27), and registers without a stated value are 0 (log entry 6). -/
def Obligations.ResetRegisters : Prop :=
  (∀ z i : Nat, (pageType z i).isSome → (State.reset.rg z i 0x004).toNat = 0x00B00100 ∧ State.reset.flag z i 0x00C 0 = false ∧
    State.reset.flag z i 0x00C 1 = false ∧ State.reset.rg z i 0x018 = 0 ∧ State.reset.rg z i 0x01C = 0 ∧
    State.reset.fld z i 0x020 0 4 = if z < 8 then z else if z < 26 then 10 else if z < 28 then 8 else 9) ∧
  (∀ z i p, pageType z i = some p → State.reset.fld z i 0x000 16 16 = typeCode p) ∧
  (∀ (d : Fin 8) (st : Fin 30), State.reset.fld d (stBlk st) 0x100 0 5 = st ∧ State.reset.fld d (stBlk st) 0x100 5 3 = stationKind st) ∧
  (∀ (d : Fin 8) (c : Fin 24), isGouge c = true → State.reset.flag d c 0x100 0 = isBGouge c) ∧
  (∀ d : Fin 8, ∀ st ∈ [0, 7, 14, 15, 22, 29], State.reset.fld d (stBlk st) 0x108 0 9 = 0x100) ∧
  (∀ (d : Fin 8) (q : Fin 4), State.reset.fld d (qBlk q) 0x180 2 4 = 12 ∧ State.reset.curPt d q = 0 ∧ State.reset.counted d q = true) ∧
  (∀ (d : Fin 8) (c : Fin 24), State.reset.flag d (hwcBlk c) 0x104 0 = true ∧ State.reset.fld d (hwcBlk c) 0x104 1 8 = 8) ∧
  (∀ p : Fin 104, State.reset.fld (portDie p) (portBlk p) 0x108 0 14 = 9216) ∧
  State.reset.flag 24 elogBlk 0x18C 0 = false ∧ State.reset.fld 24 elogBlk 0x18C 1 8 = 20 ∧
  (∀ (d : Fin 8) (c : Fin 24), isGouge c = true →
    (∀ a : Fin 4, State.reset.fld d c 0x2B0 (3 * a) 3 = a) ∧ State.reset.fld d c 0x2B0 12 5 = 0 ∧ State.reset.flag d c 0x2B0 17 = true) ∧
  State.reset.tick = 0 ∧ State.reset.run = .startUp ∧ State.reset.elog = [] ∧ State.reset.pending = []

/-! ## Instructions of the Gouge and Skew cores as words -/

/-- Decoding the words of a well-formed instruction gives it back, whatever stands in the store after them (R199, R201). That a reserved code or an
operand which the tables exclude is no instruction is the model's reading (log entry 46). -/
def Obligations.EngineDecodeEncode : Prop :=
  ∀ (gouge : Bool) (pc : Nat) (i : EngInstr) (w0 w1 w2 : Nat), i.wf gouge pc = true →
    takeWords (engLength i) w0 w1 w2 = encodeEng i → decodeEng gouge pc w0 w1 w2 = some i

/-- What decodes is well formed, and its words are those of its encoding, of 64 bits each: no reserved bit is set and no extension word is missing
(R199, R201). That a reserved code or an operand which the tables exclude is no instruction is the model's reading (log entry 46). -/
def Obligations.EngineDecodeSound : Prop :=
  ∀ (gouge : Bool) (pc : Nat) (i : EngInstr) (w0 w1 w2 : Nat), decodeEng gouge pc w0 w1 w2 = some i →
    i.wf gouge pc = true ∧ takeWords (engLength i) w0 w1 w2 = encodeEng i ∧ (∀ w ∈ encodeEng i, w < 2 ^ 64) ∧
    i.op.onCore gouge = true ∧ bitsOf w0 56 8 = i.op.code

/-! ## Dispatch and the instructions of the cores -/

/-- An instruction of a unit enters its unit's queue in program order as its last entry, at once, if the queue holds fewer than four that wait and no
queued instruction of the program uses its registers; the program goes on after it, and units start what they can; where the queue is full or a
register is in use, dispatch waits and the command changes nothing, but that a wait for a register is noted for its counter (R36, R139, R146,
R200). That a back-fill program's instructions wait in queues of their own, those of unit number + 4, is the model's choice (log entry 45). The
nineteen commands of `unitCommand`. So is that a command runs the instruction at its program's counter (log entry 4). -/
def Obligations.UnitInstructionsDispatch : Prop :=
  (∀ (d : Fin 8) (c : Fin 24) (f : EngFacts) (s : State) (bf : Bool) (pc first : Nat) (i : EngInstr) (cmd : Instr),
      s.fetch d c = .ok bf pc first i → s.dispatchBad d c bf i = false → unitCommand d c f i.op = some cmd →
      let t := s.past d c bf pc i
      let x := t.core d c
      let u := opUnit i.op + if bf then 4 else 0
      ((x.unit u).filter fun e => !e.started).length < 4 → x.registersFree bf i = true →
        let e : UEntry := { seq := x.seq, instr := i, facts := f, backfill := bf, word := pc, first := first
                            since := (s.quarter d (c.val / 6)).cycle }
        exec cmd s = .next ((t.setCore d c { x.setUnit u (x.unit u ++ [e]) with seq := x.seq + 1, rawWait := false }).settle d c)) ∧
  (∀ (d : Fin 8) (c : Fin 24) (f : EngFacts) (s : State) (bf : Bool) (pc : Nat) (i : EngInstr) (cmd : Instr),
      Meets s d c bf pc i → unitCommand d c f i.op = some cmd →
      let x := (s.past d c bf pc i).core d c
      let u := opUnit i.op + if bf then 4 else 0
      (x.registersFree bf i = true → 4 ≤ ((x.unit u).filter fun e => !e.started).length → exec cmd s = .next s) ∧
      (x.registersFree bf i = false → exec cmd s = .next (s.onCore d c fun y => { y with rawWait := true })))

/-- Control instructions that change their program's own state: END and DELAY hold dispatch, LOOP steps its counter and jumps or clears it and falls
through, AXSET sets or adds modulo 2^48, QWAIT, BUBBLE and TWAIT hold, each past its words, the words that its fetch corrects counted (R176, R179,
R190, R205, R208, R312). The order of the two takers of a landed tile, and what END and BUBBLE hold for, are the model's readings (log entries 30,
45, 82 and 90). -/
def Obligations.ControlOfOwnProgram : Prop :=
  ∀ (d : Fin 8) (c : Fin 24) (s : State) (bf : Bool) (pc corrected : Nat),
    let at_ := (s.sramCorrected d c corrected).past d c bf pc
    let p (i : EngInstr) : Prog := ((at_ i).core d c).progOf bf
    let put (i : EngInstr) (q : Prog) : State := (at_ i).onCore d c fun x => x.setProgOf bf q
    (Meets s d c bf pc .endProg → exec (.endProgram d c corrected) s = .next (((at_ .endProg).holdProg d c bf .finish).settle d c)) ∧
    (∀ n, Meets s d c bf pc (.delay n) →
      exec (.delay d c corrected) s = .next (((at_ (.delay n)).holdProg d c bf (.delay ((s.quarter d (c.val / 6)).cycle + n))).settle d c)) ∧
    (∀ level target count, let i : EngInstr := .loop level target count
      Meets s d c bf pc i → (p i).loops.getD level 0 < count - 1 →
      exec (.loop d c corrected) s = .next (((put i { p i with loops := (p i).loops.set level ((p i).loops.getD level 0 + 1) }).setPc d c bf target).settle d c)) ∧
    (∀ level target count, let i : EngInstr := .loop level target count
      Meets s d c bf pc i → count - 1 ≤ (p i).loops.getD level 0 →
      exec (.loop d c corrected) s = .next ((put i { p i with loops := (p i).loops.set level 0 }).settle d c)) ∧
    (∀ add reg value, let i : EngInstr := .axset add reg value
      Meets s d c bf pc i →
      exec (.axset d c corrected) s = .next ((put i { p i with
        ax := (p i).ax.set reg (((if add then (p i).ax.getD reg 0 else 0) + value) % 2 ^ 48) }).settle d c)) ∧
    (∀ k n, let i : EngInstr := .qwait k n
      Meets s d c bf pc i →
      exec (.qwait d c corrected) s = .next (((at_ i).holdProg d c bf (.queue k ((((at_ i).core d c).queue k).target n))).settle d c)) ∧
    (∀ w n, let i : EngInstr := .bubble w n
      Meets s d c bf pc i → exec (.bubble d c corrected) s = .next (((at_ i).holdProg d c bf (.bubble n w)).settle d c)) ∧
    (∀ tile x, let i : EngInstr := .twaitLand tile
      Meets s d c bf pc i → ((at_ i).core d c).claim tile = some x →
      exec (.twait d c corrected) s = .next (((at_ i).setCore d c x).settle d c)) ∧
    (∀ slot tick, let i : EngInstr := .twaitTick slot 0 tick
      Meets s d c bf pc i →
      exec (.twait d c corrected) s = .next (((at_ i).holdProg d c bf (.phase (phaseTickOf s.tick tick))).settle d c))

/-- Control instructions that reach beyond their program: TSIG signals its slot at once, or holds under DRAIN; QREQ pushes a load or a store with the
number that its queue gives, at an address with its address register added; HINT leaves a hint in uncounted mode and nothing in counted mode;
SETOP requests a point in counted mode, over a request of its cycle by a core of lower number, and nothing in hinted mode; CEXP declares a tile;
the words that the fetch corrects are counted (R155, R167, R174, R178, R207, R209, R255, R443). That a store's data is read at its dispatch and
that SETOP reports the transfers which a phase barrier leaves outstanding are the model's choices (log entries 17 and 80). So is which cycle a
`DUE` names (log entry 103). -/
def Obligations.ControlBeyondProgram : Prop :=
  ∀ (d : Fin 8) (c : Fin 24) (s : State) (bf : Bool) (pc corrected : Nat),
    let at_ := (s.sramCorrected d c corrected).past d c bf pc
    (∀ cn die slot count, let i : EngInstr := .tsig cn false die slot count
      Meets s d c bf pc i → exec (.tsig d c corrected) s = .next (((at_ i).signal d (c.val / 6) c die slot count cn).settle d c)) ∧
    (∀ cn die slot count, let i : EngInstr := .tsig cn true die slot count
      Meets s d c bf pc i → exec (.tsig d c corrected) s = .next (((at_ i).holdProg d c bf (.drain i)).settle d c)) ∧
    (∀ (f : EngFacts) k loc lenM1 addr axen ax, let i : EngInstr := .qreq k loc lenM1 addr axen ax
      Meets s d c bf pc i → ((s.past d c bf pc i).core d c).mayPush bf k = true →
      let u := ((s.past d c bf pc i).onCore d c fun x => { x with stalled := false }).sramErrors d c f
      let t := if 8 ≤ k then u.readHazards d c false [(loc, lenM1 + 1)] else u
      let b := if 8 ≤ k then t.localBlock d c loc (lenM1 + 1) else (0, 0)
      exec (.qreq d c f) s = .next ((t.push d c k bf loc (lenM1 + 1)
        (qreqAddr (((s.past d c bf pc i).core d c).progOf bf).ax addr axen ax) b.1 b.2).2.settle d c)) ∧
    (∀ arrays lead length vec, let i : EngInstr := .hint arrays lead length vec
      Meets s d c bf pc i → (at_ i).counted d (c.val / 6) = true → exec (.hint d c corrected) s = .next ((at_ i).settle d c)) ∧
    (∀ arrays lead length vec, let i : EngInstr := .hint arrays lead length vec
      Meets s d c bf pc i → (at_ i).counted d (c.val / 6) = false →
      let per := cyclesPerTick ((at_ i).curPt d (c.val / 6))
      let h : Hint := ⟨s.tick + ceilDiv lead per, s.tick + ceilDiv lead per + ceilDiv (256 * length) per, arrays == 0 && !vec⟩
      let x := (at_ i).quarter d (c.val / 6)
      exec (.hint d c corrected) s = .next (((at_ i).setQuarter d (c.val / 6) { x with
        hints := Sparse.put noHint x.hints (c.val % 6) (some h) }).settle d c)) ∧
    (∀ (same : Bool) point, let i : EngInstr := .setop point
      Meets s d c bf pc i →
      (s.counted d (c.val / 6) = true → (same = true → (s.quarter d (c.val / 6)).reqBy ≤ c.val) →
        exec (.setop d c same corrected) s = .next ((((at_ i).barrierHazards d c).requestBy d (c.val / 6) point c).settle d c)) ∧
      ((s.counted d (c.val / 6) = false ∨ same = true ∧ c.val < (s.quarter d (c.val / 6)).reqBy) →
        exec (.setop d c same corrected) s = .next ((at_ i).settle d c))) ∧
    (∀ path tile due es, let i : EngInstr := .cexp path tile due
      Meets s d c bf pc i →
      declareTile (((at_ i).core d c).entries path) tile (dueCycle ((at_ i).phaseNow d (c.val / 6)) due) = some es →
      exec (.cexp d c corrected) s = .next (((at_ i).setCore d c (((at_ i).core d c).setEntries path es)).settle d c))

/-- An illegal encoding, and an illegal operand found at dispatch, do nothing but stop their program: the first one is latched with its place and
first word, the bit of the page is set, and the program's state shows it (R201, R202, R203, R223); so does a poisoned word at the program counter,
whose consumption is an uncontained memory event (R313, R322). What the record of a poisoned word says, and which operands are found bad at
dispatch, are the model's readings (log entries 37 and 46). -/
def Obligations.IllegalInstructionsStop : Prop :=
  (∀ (d : Fin 8) (c : Fin 24) (f : EngFacts) (s : State) (pc first : Nat), s.fetch d c ≠ .idle →
      let r := (s.sramCorrected d c f.corrected).storeErrors d c f
      r.fetch d c = .bad false pc first → r.elog.length < 4096 → pc < 16384 → first < 2 ^ 64 → r.flag d c 0x018 0 = false →
      ∃ t, exec (.illegalEncoding d c f) s = .next t ∧ t.progState d c = 3 ∧ t.flag d c 0x018 0 = true ∧
        t.fld d c 0x290 0 14 = pc ∧ t.fld d c 0x290 14 2 = 0 ∧ t.pair d c 0x294 = first ∧
        t.logged d c 2 0 1 0 (pc + first * 2 ^ 16) ∧ keepsData r t ∧ t.stations = s.stations ∧ (f.codeErr = [] → r = s.sramCorrected d c f.corrected)) ∧
  (∀ (d : Fin 8) (c : Fin 24) (f : EngFacts) (s : State) (pc : Nat), s.fetch d c ≠ .idle →
      let r := (s.sramCorrected d c f.corrected).storeErrors d c f
      r.fetch d c = .poison false pc → r.elog.length < 4096 →
      ∃ t, exec (.illegalEncoding d c f) s = .next t ∧ t.progState d c = 3 ∧ t.flag d c 0x018 (poisonBit c) = true ∧
        t.logged d c 2 4 1 (poisonBit c) ((8 * pc + c * 2 ^ 48) % 2 ^ 128) ∧ keepsData r t) ∧
  (∀ (d : Fin 8) (c : Fin 24) (f : EngFacts) (s : State) (pc first : Nat) (i : EngInstr) (cmd : Instr),
      s.fetch d c = .ok false pc first i → s.operandsBad d c false i = true → unitCommand d c f i.op = some cmd →
      exec cmd s = .next ((s.illegal d c false pc first 1).settle d c) ∧
      (badOperand c ((s.core d c).progOf false).ax i = true → s.operandsBad d c false i = true))

/-- What ends a hold or a window of a core: a delay that has run out, a drained signal, a phase start, a served request at the head of a queue, the
suspension and the end of a bubble window (R168, R178, R190, R192, R205, R207). A row issued again on its array whose residues agree is written
and counted; a parity error's row is written from the reloaded tile; a push tile starts under credit; a landed chain-in begins to join its rows
(R57, R59, R60, R61, R106). That every re-issue is checked in full, what a drain waits for, and how a phase begins are the model's readings (log
entries 37, 42 and 45). -/
def Obligations.HeldWorkGoesOn : Prop :=
  (∀ (d : Fin 8) (c : Fin 24) (s : State),
      let q : Nat := c.val / 6
      let x := s.core d c
      s.run = .ready → s.qRuns d q = true →
      (∀ n, x.prog.hold = some (.delay n) → n ≤ (s.quarter d q).cycle →
        exec (.delayExpire d c) s = .next (s.setCore d c { x with prog := { x.prog with hold := none } })) ∧
      (∀ i, x.prog.hold = some (.drain i) → x.unitsIdle false = true → x.queuesIdle false = true → x.backfill = none →
        exec (.tsigDrainDepart d c) s = .next ((s.setCore d c { x with prog := { x.prog with hold := none } }).sendSignal d c i)) ∧
      (∀ (p : Fin 4) n, p.val = q → s.phaseWaits d q = [(c.val, false, n)] → n ≤ s.tick → s.pendValid d q = false →
        exec (.phaseStart d p) s = .next (((s.startPhase d q n).onCore d c fun x => { x with prog := { x.prog with hold := none } }).settle d c)) ∧
      (∀ (k : Fin 12) r rest id m, isParting c = false → (x.queue k).reqs = r :: rest → r.id = some id → s.findReq id = some m → m.left = 0 →
        ∀ same : Bool, exec (.queueRequestComplete d c k same) s = .next ((s.retireHead d c k same).settle d c) ∧
          (x.queue k).retired < (((s.retireHead d c k same).core d c).queue k).retired ∧ (s.retireHead d c k same).findReq id = none) ∧
      (∀ w, x.window = some w → w.n ≤ s.windowPos d c w + 16 →
        exec (.backfillSuspend d c) s = .next (s.setCore d c { x with suspended := true })) ∧
      (∀ w, x.window = some w → w.n ≤ s.windowPos d c w →
        exec (.bubbleWindowEnd d c) s = .next ((s.setCore d c { x with window := none, suspended := false }).settle d c))) ∧
  (∀ (d : Fin 8) (c : Fin 24) (s : State),
      (∀ r e w (f : ReissueFacts), s.heldStream d c .mismatch = some (r, e, w) → w.phys = s.physOf d c w.array → w.again = false → w.missed = true →
        f.again = false → f.parity = false →
        let t := (s.bump d c 0x130 1).onCore d c fun x => x.delayRun w.bf (s.quarter d (c.val / 6)).cycle (rowCycles r.fmt)
        let tile := t.activeTile d c w.array
        let cs := rowColumns r.fmt w.xs w.scales tile
        let special := rowSpecial r.fmt w.xs w.scales tile
        (special = true ∨ predicted r.fmt w.xs w.scales tile = actual cs) →
        exec (.rowReissue d c f) s = .next
          ((((if special then t.bump d c 0x2B8 1 else t).commitRow d c w.array w.row r w.bf cs w.gen (wordBads tile w.bad)).onCore d c
            fun x => x.dropWithheld w).streamDone d c w)) ∧
      (∀ r e w (f : ReissueFacts), s.heldStream d c .mismatch = some (r, e, w) → w.phys = s.physOf d c w.array → w.missed = true →
        f.again = true → f.parity = false → s.flag d c 0x2B0 17 = false →
        let t := ((s.bump d c 0x130 1).onCore d c fun x => x.delayRun w.bf (s.quarter d (c.val / 6)).cycle (rowCycles r.fmt)).fence d c w.array r.tile
        exec (.rowReissue d c f) s = .next
          (((t.2.poisonRow d c w.array w.row (t.2.activeTile d c w.array).n r w.bf).onCore d c fun x => x.dropWithheld w).streamDone d c w)) ∧
      (∀ r e w (f : ReissueFacts), s.heldStream d c .parity = some (r, e, w) → w.again = false → f.again = false → f.parity = false →
        let t := ((s.bump d c 0x2C0 f.corrected).reload d c w.array).onCore d c fun x =>
          x.delayRun w.bf (s.quarter d (c.val / 6)).cycle (rowCycles r.fmt)
        let tile := t.activeTile d c w.array
        let cs := rowColumns r.fmt w.xs w.scales tile
        let special := rowSpecial r.fmt w.xs w.scales tile
        (special = true ∨ predicted r.fmt w.xs w.scales tile = actual cs) →
        exec (.weightReloadDone d c f) s = .next
          ((((if special then t.bump d c 0x2B8 1 else t).commitRow d c w.array w.row r w.bf cs w.gen (wordBads tile w.bad)).onCore d c
            fun x => x.dropWithheld w).streamDone d c w)) ∧
      (∀ o corrected, (s.core d c).nextPush = some o → s.run = .ready → s.qRuns d (c.val / 6) = true → o.total ≤ s.credit d 14 →
        let t := ((s.onCore d c fun x => { x with outQ := x.outQ.erase o }).launch d (stationOfCore c) o.total o.xfers).sramCorrected d c corrected
        exec (.pushTileSend d c corrected) s = .next ((if isGouge c then t.bump d c 0x1E0 1 else t).settle d c) ∧
        ((∀ x ∈ o.xfers, x.tag.retire = 14) → o.xfers ≠ [] → t.credit d 14 + o.total = s.credit d 14)) ∧
      (∀ e rest int a wbase m ncode bufLine tile, (s.core d c).unit 3 = e :: rest → e.started = true → e.landed = true →
        e.backfill = false → e.instr = .chin int a wbase m ncode bufLine tile → s.run = .ready → s.qRuns d (c.val / 6) = true →
        exec (.chainInStart d c) s = .next ((((((((s.onCore d c fun x => x.setUnit 3 rest).reseedGouge d c a 1 tile false).sramErrors d c
          e.facts).readHazards d c true (bufUses 0 e.instr)).beginWork d c 3 e none)).settle d c))))

/-- A slot whose counter has reached a waiting hart's count: the count is taken, the hart goes on with 0 in its destination, and no other register or
hart changes (R156). That waits take their counts in the board's order is the model's reading (log entry 42). -/
def Obligations.WaitTakesItsCount : Prop :=
  ∀ (d : Fin 8) (q h : Fin 4) (slot : Fin 512) (s : State) (n rd : Nat),
    s.powered = true → s.qRuns d q = true → (s.hart d q h).wait = some (.token slot n rd) → s.hartState d q h = 1 →
    n ≤ s.slot d q slot → (∀ j < 5, ∀ bf, ((s.core d (6 * q + j)).progOf bf).hold = none) →
    (∀ k < 4, k ≠ h.val → (s.hart d q k).wait = none) →
    ∃ t, exec (.waitSatisfied d q slot) s = .next t ∧ t.slot d q slot = s.slot d q slot - n ∧ (t.hart d q h).wait = none ∧
      (0 < rd → (t.hart d q h).reg rd = 0) ∧ (∀ r, r ≠ rd → (t.hart d q h).reg r = (s.hart d q h).reg r) ∧
      (∀ k < 4, k ≠ h.val → t.hart d q k = s.hart d q k) ∧ regsBut [rkey d (ptCore q) (0x800 + 4 * slot)] s t ∧ t.cores = s.cores ∧
      t.mem = s.mem

/-- A swap exchanges the buffers of each masked array and of no other (R40); VIMM writes its immediate to the first VL elements of its register,
clears the poison of each 64 B unit that it writes whole and leaves every other element, register and memory of the module as it was (R217, R313);
the integer forms of Table 8.7 wrap modulo 2^32 without SAT and clamp to the ends of the range with it (R140, R218). That poison goes by whole
units is the model's reading (log entry 37). -/
def Obligations.UnitResults : Prop :=
  (∀ (d : Fin 8) (c : Fin 24) (s : State) (mask : Nat), mask < 16 →
      (∀ a b : Nat, a < 4 → b < 4 → s.physOf d c a = s.physOf d c b → a = b) →
      let t := s.swapTiles d c mask
      (∀ a < 4, bitOf mask a = true → t.activeTile d c a = s.shadowTile d c a ∧ t.shadowTile d c a = s.activeTile d c a) ∧
      (∀ a < 4, bitOf mask a = false → t.activeTile d c a = s.activeTile d c a ∧ t.shadowTile d c a = s.shadowTile d c a) ∧
      t = { s with cores := t.cores } ∧
      t.core d c = { s.core d c with active := (t.core d c).active, shadow := (t.core d c).shadow }) ∧
  (∀ (d : Fin 8) (c : Fin 24) (s : State) (vd imm n : Nat), vd < 64 → n ≤ 2048 →
      let t := s.runImm d c vd imm n
      (∀ i < n, (t.core d c).lane vd i = BitVec.ofNat 32 imm) ∧ (∀ i < n / 16 * 16, (t.core d c).elemBad vd 32 i = false) ∧
      (∀ r i, i < 2048 → (r ≠ vd ∨ n ≤ i) → (t.core d c).lane r i = (s.core d c).lane r i) ∧
      (∀ r i, i < 2048 → (r ≠ vd ∨ n / 16 * 16 ≤ i) → (t.core d c).elemBad r 32 i = (s.core d c).elemBad r 32 i) ∧
      t = { s with cores := t.cores } ∧
      t.core d c = { s.core d c with vregs := (t.core d c).vregs, vpoison := (t.core d c).vpoison, vNew := (t.core d c).vNew }) ∧
  (∀ a b : W32,
      intForm false 0 a b = a + b ∧ intForm false 1 a b = a - b ∧
      (intForm true 0 a b).toInt = max (-2 ^ 31) (min (2 ^ 31 - 1) (a.toInt + b.toInt)) ∧
      (intForm true 1 a b).toInt = max (-2 ^ 31) (min (2 ^ 31 - 1) (a.toInt - b.toInt)) ∧
      (intForm false 9 a b = if a.toInt < b.toInt then 0xFFFFFFFF#32 else 0#32))

/-- The work of any unit leaves the memories, the Parting cores, every core of other numbers, the ports, the sessions and the fuses as
they were: an instruction of a core acts on its own core, its die's ring and its own page. -/
def Obligations.UnitsKeepTheRest : Prop :=
  ∀ (d : Fin 8) (c : Fin 24) (s : State) (e : UEntry),
    let t := s.runUnit d c e
    t.mem = s.mem ∧ t.memPoison = s.memPoison ∧ t.parts = s.parts ∧ t.ports = s.ports ∧ t.mgmt = s.mgmt ∧ t.fuses = s.fuses ∧
    t.pending = s.pending ∧ t.tick = s.tick ∧
    (∀ d' c' : Nat, c' < 24 → (d' ≠ d.val ∨ c' ≠ c.val) → t.core d' c' = s.core d' c')

/-! ## Harts and the queue extension -/

/-- Writing a hart's bit of `PART.HART_CTRL.RUN` starts it at its entry with its registers as they are, or stops it where it stands; the other harts
go on as they were (R148, Table 6.12). A hart's access outside its core's memories is issued if its program's bounds hold the address, completes
with the bytes that the memory system gave, and is a fault at an unmapped address (R149, R181, R225). That a start keeps the registers is the
model's choice (log entry 26). So is what a hart's access outside its bounds records (log entry 49). -/
def Obligations.HartsStartStopAndReach : Prop :=
  (∀ (d : Fin 8) (q h : Fin 4) (s : State),
      (∀ k : Fin 4, k ≠ h → (s.rg d (ptCore q) 0x104).getLsbD k = (s.hartState d q k == 1)) →
      (s.run = .ready → s.hartState d q h ≠ 1 →
        ∃ t, exec (.hartStart d q h) s = .next t ∧ t.hartState d q h = 1 ∧ (t.rg d (ptCore q) 0x104).getLsbD h = true ∧
          t.hart d q h = { s.hart d q h with pc := s.fld d (ptCore q) (0x110 + 4 * h) 0 17, wait := none, resv := none } ∧
          (∀ k : Fin 4, k ≠ h → t.hartState d q k = s.hartState d q k ∧ t.hart d q k = s.hart d q k) ∧ t.cores = s.cores ∧ t.mem = s.mem) ∧
      (s.inReset = false → s.hartState d q h = 1 →
        ∃ t, exec (.hartStop d q h) s = .next t ∧ t.hartState d q h = 0 ∧ (t.rg d (ptCore q) 0x104).getLsbD h = false ∧
          t.hart d q h = { s.hart d q h with wait := none } ∧
          (∀ k : Fin 4, k ≠ h → t.hartState d q k = s.hartState d q k ∧ t.hart d q k = s.hart d q k) ∧ t.cores = s.cores ∧ t.mem = s.mem)) ∧
  (∀ (d : Fin 8) (q h : Fin 4) (s : State) (a : HartAccess),
      s.run = .ready → s.qRuns d q = true → s.hartState d q h = 1 → (s.hart d q h).wait = some (.access a) →
      (∀ z, a.req = none → regionOf a.addr = .heartwood z → inBounds (s.core d (ptCore q)).bounds a.addr a.bytes a.store.isSome = true →
        ∃ t, exec (.hartExternalAccess d q h) s = .next t ∧ s.nextReq < t.nextReq ∧
          (∃ r ∈ t.reqs, r.id = s.nextReq ∧ r.die = d ∧ r.requester = ptCore q ∧ r.addr = a.addr ∧ r.bytes = a.bytes ∧
            r.write = a.store.isSome ∧ r.data = (a.store.getD 0).toNat ∧ 0 < r.left) ∧
          (t.hart d q h).wait = some (.access { a with req := some s.nextReq }) ∧ t.mem = s.mem ∧
          (s.WaitsTold →
            t.cores = s.cores ∧ ∀ z i off, pageType z i ≠ some .bed → t.rg z i off = s.rg z i off)) ∧
      (a.req = none → regionOf a.addr = .unmapped →
        exec (.hartExternalAccess d q h) s = .next (s.hartFault d q h (if a.store.isSome then 7 else 5))) ∧
      (∀ id r, a.req = some id → a.store = none → s.findReq id = some r → r.left = 0 → r.failed = false → r.poison = 0 →
        ∃ t, exec (.hartExternalAccess d q h) s = .next t ∧ (t.hart d q h).wait = none ∧
          (t.hart d q h).pc = (s.hart d q h).pc + s.hartLen d q h ∧
          (0 < a.rd → (t.hart d q h).reg a.rd = extendLoad a.bytes a.signed r.data) ∧
          (∀ k, k ≠ a.rd → (t.hart d q h).reg k = (s.hart d q h).reg k) ∧ t.findReq id = none ∧ t.mem = s.mem ∧ t.regs = s.regs))

/-- A ready hart executes the instruction at its pc: register forms, branches, loads and stores of data memory; ECALL stops it as done and an
instruction that the core does not have stops it with its cause and place latched; register x0 reads zero whatever was written to it (R148;
results as the RISC-V specification gives them, log entry 11). Where a hart sees its own memories is the model's choice (log entry 18). -/
def Obligations.HartExecutes : Prop :=
  (∀ (d : Fin 8) (q h : Fin 4) (s : State) (len : Nat),
      let x := s.hart d q h
      let next := { x with pc := x.pc + len }
      let at_ (i : Rv) : Prop := s.hartReady d q h = true ∧ (s.part d q).fetch x.pc = .instr i len
      (∀ w f3 alt rd rs1 rs2, at_ (.alu w f3 alt rd rs1 rs2) → exec (.hartInstruction d q h {}) s = .next (s.setHart d q h
        (next.setReg rd (if w then aluOp32 f3 alt (x.reg rs1) (x.reg rs2) else aluOp f3 alt (x.reg rs1) (x.reg rs2))))) ∧
      (∀ w f3 alt rd rs1 imm, at_ (.alui w f3 alt rd rs1 imm) → exec (.hartInstruction d q h {}) s = .next (s.setHart d q h
        (next.setReg rd (if w then aluOp32 f3 alt (x.reg rs1) imm else aluOp f3 alt (x.reg rs1) imm)))) ∧
      (∀ f3 rs1 rs2 off, at_ (.branch f3 rs1 rs2 off) → exec (.hartInstruction d q h {}) s = .next (s.setHart d q h
        (if branchTaken f3 (x.reg rs1) (x.reg rs2) then { x with pc := (BitVec.ofNat 64 x.pc + off).toNat } else next))) ∧
      (∀ f3 rd rs1 off o, at_ (.load f3 rd rs1 off) → (x.reg rs1 + off).toNat % accessBytes f3 = 0 →
        dataOffset (x.reg rs1 + off).toNat (accessBytes f3) = some o → (s.part d q).dataBad o (accessBytes f3) = false →
        exec (.hartInstruction d q h {}) s = .next (s.setHart d q h
          (next.setReg rd (extendLoad (accessBytes f3) (accessSigned f3) ((s.part d q).data o (accessBytes f3)))))) ∧
      (∀ f3 rs1 rs2 off o, at_ (.store f3 rs1 rs2 off) → (x.reg rs1 + off).toNat % accessBytes f3 = 0 →
        dataOffset (x.reg rs1 + off).toNat (accessBytes f3) = some o →
        ∃ t, exec (.hartInstruction d q h {}) s = .next t ∧
          (t.part d q).dmem = Sparse.putRange byte0 (s.part d q).dmem o (bytesOf (accessBytes f3) (x.reg rs2).toNat) ∧
          (t.hart d q h).pc = x.pc + len ∧ (t.hart d q h).regs = x.regs ∧ t.mem = s.mem ∧ t.regs = s.regs) ∧
      (at_ .ecall → ∃ t, exec (.hartInstruction d q h {}) s = .next t ∧ t.hartState d q h = 2 ∧ (t.hart d q h).pc = x.pc + len) ∧
      (∀ cause, s.hartReady d q h = true → (s.part d q).fetch x.pc = .fault cause → cause < 64 →
        ∃ t, exec (.hartInstruction d q h {}) s = .next t ∧ t.hartState d q h = 3 ∧
          t.fld d (ptCore q) (0x120 + 4 * h) 0 17 = x.pc % 2 ^ 17 ∧ t.fld d (ptCore q) (0x120 + 4 * h) 17 6 = cause ∧
          t.flag d (ptCore q) 0x018 0 = true ∧ t.mem = s.mem)) ∧
  (∀ (x : Hart) (v : W64) (r : Nat), x.reg 0 = 0 ∧ x.setReg 0 v = x ∧ (0 < r → (x.setReg r v).reg r = v) ∧
      (∀ k, k ≠ r → (x.setReg r v).reg k = x.reg k))

/-- The operations that read or write queues and completion slots give the results of Table 6.5: QPUSH the request's number or all ones, TKSIG and
CB.SET 0, CB.TAKE whether it took in its turn among the waits on its slot, CB.READ the value, CB.MASK the mask; the waiting ones leave the hart
waiting (R150, R156, R157, R179, R222). That a slot number counts modulo 512, that waits on a slot go first, and when a store's data are read are
the model's choices (log entries 17, 42 and 102). -/
def Obligations.QueueAndBoardOperations : Prop :=
  ∀ (d : Fin 8) (q h : Fin 4) (s : State) (len : Nat) (x : QArgs),
    let t := s.hartPast d q h len
    let slot := x.a.toNat % 512
    let n := x.b.toNat % 65536
    (∀ o, HartMeets s d q h .qpush len x → dataOffset x.a.toNat 16 = some o → (s.part d q).dataBad o 16 = false →
      let w := (s.part d q).data o 16
      let units := bitsOf w 48 6 + 1
      let loc := bitsOf w 64 12
      bitsOf w 0 6 = 0 → bitsOf w 54 10 = 0 → bitsOf w 76 52 = 0 → loc + units ≤ 4096 → (t.core d (ptCore q)).mayPush false x.f7 = true →
      let b := if 8 ≤ x.f7 then t.localBlock d (ptCore q) loc units else (0, 0)
      let r := t.push d (ptCore q) x.f7 false loc units (bitsOf w 0 48) b.1 b.2
      exec (.qpush d q h) s = .next (r.2.giveHart d q h x.rd (BitVec.ofNat 64 r.1))) ∧
    (HartMeets s d q h .qpush len x → dataOffset x.a.toNat 16 = none →
      exec (.qpush d q h) s = .next (t.giveHart d q h x.rd (BitVec.ofInt 64 (-1)))) ∧
    (HartMeets s d q h .qwait len x → x.a.toNat < 12 →
      exec (.hartQwait d q h) s = .next ((t.setHart d q h { t.hart d q h with
        wait := some (.queue x.a.toNat (((t.core d (ptCore q)).queue x.a.toNat).target n) x.rd), since := s.tick }).serveQueueWaits d q x.a.toNat)) ∧
    (HartMeets s d q h .tksig len x → n ≠ 0 →
      exec (.tksig d q h) s = .next ((t.signal d q (ptCore q) (bitsOf x.a.toNat 16 3) (x.a.toNat % 65536) n).giveHart d q h x.rd 0)) ∧
    (HartMeets s d q h .tkwait len x →
      exec (.tkwait d q h) s = .next ((t.setHart d q h { t.hart d q h with wait := some (.token slot n x.rd), since := s.tick }).serveSlot d q slot)) ∧
    (HartMeets s d q h .cbTake len x → let u := t.serveBefore d q slot h
      n ≤ u.slot d q slot → exec (.cbTake d q h) s = .next ((u.setSlot d q slot (u.slot d q slot - n)).giveHart d q h x.rd 1)) ∧
    (HartMeets s d q h .cbTake len x → let u := t.serveBefore d q slot h
      u.slot d q slot < n → exec (.cbTake d q h) s = .next (u.giveHart d q h x.rd 0)) ∧
    (HartMeets s d q h .cbRead len x → let u := t.serveSlot d q slot
      exec (.cbRead d q h) s = .next (u.giveHart d q h x.rd (BitVec.ofNat 64 (u.slot d q slot)))) ∧
    (HartMeets s d q h .cbSet len x →
      exec (.cbSet d q h) s = .next ((((t.serveSlot d q slot).setSlot d q slot x.b.toNat).onPart d q fun p =>
        { p with masks := Sparse.put nat0 p.masks slot 0 }).giveHart d q h x.rd 0)) ∧
    (HartMeets s d q h .cbMask len x → x.b.getLsbD 0 = true →
      exec (.cbMask d q h) s = .next ((t.onPart d q fun p => { p with masks := Sparse.put nat0 p.masks slot 0 }).giveHart d q h x.rd
        (BitVec.ofNat 64 (Sparse.get nat0 (t.part d q).masks slot))))

/-- CB.LOG copies a record, SE.START starts an idle stream and answers 1 for a busy one, SE.STAT tells state and completed blocks, WSEND sends a
message and waits, WRECV takes the oldest mail, TICK returns the tick; a WSEND without acceptance for 1,024 ticks returns 2 (R150, R152, R158,
R160, R163). That stream and record numbers count modulo their range is the model's choice (log entry 102). -/
def Obligations.LogStreamAndMailOperations : Prop :=
  ∀ (d : Fin 8) (q h : Fin 4) (s : State) (len : Nat) (x : QArgs),
    let t := s.hartPast d q h len
    let n := x.a.toNat % 32
    (∀ o, HartMeets s d q h .cbLog len x → dataPlace x.b.toNat 16 16 true = .ok o →
      exec (.cbLog d q h) s = .next ((t.hartStore d q h o 16 ((t.part d q).logRecord (x.a.toNat % 256))).giveHart d q h x.rd 0)) ∧
    (HartMeets s d q h .seStart len x → t.streamState d q n = 1 → exec (.seStart d q h) s = .next (t.giveHart d q h x.rd 1)) ∧
    (∀ o, HartMeets s d q h .seStart len x → t.streamState d q n ≠ 1 → dataPlace x.b.toNat 32 1 false = .ok o →
      (t.part d q).dataBad o 32 = false →
      exec (.seStart d q h) s = .next ((t.seStart d q n ((t.part d q).data o 32)).giveHart d q h x.rd 0)) ∧
    (HartMeets s d q h .seStat len x → exec (.seStat d q h) s = .next (t.giveHart d q h x.rd
      (BitVec.ofNat 64 (t.streamState d q n + (t.stream d q n).completed % 65536 * 4)))) ∧
    (∀ o, HartMeets s d q h .wsend len x → dataPlace x.a.toNat 8 8 false = .ok o → (t.part d q).dataBad o 8 = false →
      let w := (t.part d q).data o 8
      bitsOf w 16 6 = 1 → bitsOf w 22 2 = 0 → bitsOf w 24 8 = 1 → bitsOf w 0 8 < 0x20 → o + 16 ≤ 2 ^ 18 →
      (t.part d q).dataBad (o + 8) 8 = false →
      let m : WMsg :=
        { dst := bitsOf w 0 8, src := 4 * d + q, len := 1, type := 1, arg := bitsOf w 32 16, count := bitsOf w 48 16
          payload := [BitVec.ofNat 64 ((t.part d q).data (o + 8) 8)], poison := 0, idx := ptCore q, die := d, hart := some h.val }
      exec (.wsend d q h) s = .next
        { (t.setHart d q h { t.hart d q h with wait := some (.send x.rd s.tick) }).bump d (ptCore q) 0x160 1 with
          whittle := s.whittle ++ [m] }) ∧
    (∀ bad : BitVec 32, HartMeets s d q h .wrecv len x → (t.part d q).mailbox = [] →
      exec (.wrecv d q h bad) s = .next (t.giveHart d q h x.rd 0)) ∧
    (∀ (bad : BitVec 32) m rest o, HartMeets s d q h .wrecv len x → (t.part d q).mailbox = m :: rest →
      dataPlace x.a.toNat (8 * m.len) 8 true = .ok o →
      exec (.wrecv d q h bad) s = .next (((t.mailErrors d q bad.toNat).onPart d q fun p =>
        { p.writeWords o m.payload (m.poison ||| bad.toNat % 2 ^ m.len) with mailbox := rest }).giveHart d q h x.rd
          (BitVec.ofNat 64 (8 * m.len)))) ∧
    (HartMeets s d q h .tick len x → exec (.tick d q h) s = .next (t.giveHart d q h x.rd (BitVec.ofNat 64 s.tick))) ∧
    (∀ rd since, (s.hart d q h).wait = some (.send rd since) → since + 1024 ≤ s.tick → s.hartState d q h = 1 → s.qRuns d q = true →
      exec (.wsendTimeout d q h) s = .next ((s.endWaitOf d q h rd 2).errBit d (ptCore q) 4))

/-! ## The Bed ring and the crossings -/

/-- On a ring direction that is not held, a transfer that the next station neither copies nor retires passes it in order; a transfer to
be injected takes a gap, also one that starve reserves for it, and never the place of one that passes, and its wait is counted to its bound
of 60; one that retires at a core enters the landing buffer that has room, with the period in which it came. A direction that is held stands
still, counted at the station that holds it. On a near lane the transfer next in order enters the neighbour's landing buffer that has room, and
waits at its sender while it has none (R18, R19, R20, R21, R22, R24). The count's bound while the sender of the hops lets more pass than
a moving ring has is the model's choice (log entry 16). -/
def Obligations.TransfersAdvance : Prop :=
  (∀ (d : Fin 8) (path : Fin 4) (st : Fin 30) (s : State), path.val < 2 → s.powered = true → (s.station d st).msgs = [] →
    let t := nextStation path st
    let p := (s.station d st).port path
    let q := (s.station d t).port path
    let cnt := if path.val = 0 then 0x110 else 0x118
    let waited := if p.inject = [] then 0 else min 60 (p.waited + 1)
    (∀ (f : HopFacts) x rest, q.held = none → p.through = x :: rest → writesAt x t = false → x.tag.retire ≠ t →
      ∃ u, exec (.transferHop d path st f) s = .next u ∧ ((u.station d st).port path).through = rest ∧
        ((u.station d st).port path).inject = p.inject ∧ ((u.station d st).port path).waited = waited ∧
        ((u.station d t).port path).through = q.through ++ [x] ∧
        u.pair d (stBlk st) cnt = (s.pair d (stBlk st) cnt + 1) % 2 ^ 64 ∧
        regsBut [rkey d (stBlk st) cnt, rkey d (stBlk st) (cnt + 4)] s u ∧ stationsBut d [st, t] s u ∧ keepsData s u) ∧
    (∀ (f : HopFacts) z more, q.held = none → p.through = [] → p.inject = z :: more →
      p.starve = true ∨ s.seesStarve d path 29 st = false → p.waited ≤ 60 → writesAt z t = false → z.tag.retire ≠ t →
      ∃ u, exec (.transferHop d path st f) s = .next u ∧ ((u.station d st).port path).inject = more ∧
        ((u.station d st).port path).waited = 0 ∧ ((u.station d st).port path).starve = false ∧
        ((u.station d t).port path).through = q.through ++ [z] ∧
        u.fld d (stBlk st) 0x130 0 8 = max (s.fld d (stBlk st) 0x130 0 8) p.waited ∧
        u.pair d (stBlk st) cnt = (s.pair d (stBlk st) cnt + 1) % 2 ^ 64 ∧ stationsBut d [st, t] s u ∧ keepsData s u) ∧
    (∀ (f : HopFacts), q.held = none → p.through = [] → p.inject ≠ [] → p.starve = false → s.seesStarve d path 29 st = true →
      ∃ u, exec (.transferHop d path st f) s = .next u ∧ ((u.station d st).port path).inject = p.inject ∧
        ((u.station d st).port path).waited = waited ∧ u.regs = s.regs ∧ stationsBut d [st] s u ∧ keepsData s u) ∧
    (∀ x rest n, q.held = none → p.through = x :: rest → p.inject = [] → coreOfStation t = some n → x.tag.retire = t →
      x.stamp = none → x.bad = 0 → ((s.station d t).landing path).length < 64 →
      ∃ u, exec (.transferHop d path st {}) s = .next u ∧ ((u.station d st).port path).through = rest ∧
        (u.station d t).landing path = (s.station d t).landing path ++ [{ x with came := (s.quarter d (n / 6)).periods }] ∧
        (u.station d t).port path = q ∧
        u.pair d (stBlk t) 0x120 = (s.pair d (stBlk t) 0x120 + 1) % 2 ^ 64 ∧ stationsBut d [st, t] s u ∧ keepsData s u) ∧
    (∀ (f : HopFacts) x, q.held = some x → exec (.transferHop d path st f) s = .next (s.bump d (stBlk t) 0x138 1))) ∧
  (∀ (d : Fin 8) (path : Fin 4) (st : Fin 30) (s : State) (f : HopFacts) x rest n, 2 ≤ path.val → s.powered = true →
    (s.station d st).msgs = [] → (s.station d st).lane path = x :: rest → coreOfStation (nextStation path st) = some n →
    let t := nextStation path st
    (((s.station d t).landing path).length < 16 → x.stamp = none → x.bad = 0 → f.dataBad = 0 → f.tagBad = false → f.corrected = 0 →
      ∃ u, exec (.transferHop d path st f) s = .next u ∧ (u.station d st).lane path = rest ∧
        (u.station d t).landing path = (s.station d t).landing path ++ [{ x with came := (s.quarter d (n / 6)).periods }] ∧
        u.pair d (stBlk t) 0x120 = (s.pair d (stBlk t) 0x120 + 1) % 2 ^ 64 ∧ stationsBut d [st, t] s u ∧ keepsData s u) ∧
    (16 ≤ ((s.station d t).landing path).length → exec (.transferHop d path st f) s = .next s))

/-- The rest of a station's work: starve is asserted after 30 refused slots and counted; credit returns to the pool of at most 256, but none while the
Sapwood station's die holds 512 requests at its Tailstock; a complete tile leaves the die in index order, into the far die or to what serves the
station; a longest wait is cleared by a 1 and by nothing else (R20, R27, R28, R34, R240). A crossing writes the oldest landed transfer, 2 cycles
after it came, at line `BUF_LINE` + `XFER` of its core, and none that is not ready within the tick; a message does there what it is for; it holds
its quarter for one period where a counted transfer that is due is not ready, and gives a freed entry to a waiting transfer 0 (R22, R25, R259,
R260, R261). When credit comes back, how long a crossing takes within a tick and what of a waiting tile is known are the model's readings (log
entries 15 and 30). -/
def Obligations.StationsAndCrossings : Prop :=
  (∀ (d : Fin 8) (st : Fin 30) (s : State),
      let y := s.station d st
      (∀ dir : Fin 2, 30 ≤ (y.port dir).waited → (y.port dir).starve = false → (y.port dir).inject ≠ [] →
        ∃ u, exec (.starveAssert d dir st) s = .next u ∧ ((u.station d st).port dir).starve = true ∧
          u.pair d (stBlk st) 0x128 = (s.pair d (stBlk st) 0x128 + 1) % 2 ^ 64 ∧
          regsBut [rkey d (stBlk st) 0x128, rkey d (stBlk st) 0x12C] s u ∧ stationsBut d [st] s u ∧ keepsData s u) ∧
      (0 < y.drained → st.val ≠ 14 → (st.val = 7 → s.sapOutstanding d < 512) →
        ∃ u, exec (.creditReturn d st) s = .next u ∧ u.credit d st = min 256 (s.credit d st + y.drained) ∧ (u.station d st).drained = 0 ∧
          regsBut [rkey d (stBlk st) 0x108] s u ∧ stationsBut d [st] s u ∧ keepsData s u) ∧
      (st.val = 7 → 512 ≤ s.sapOutstanding d → exec (.creditReturn d st) s = .next s) ∧
      (∀ xs rest, takeTile y.arrived = some (xs, rest) → (∀ x ∈ xs, x.credit = true ∧ x.msg = none) → farSide d st = none →
        (∀ x ∈ xs, ∀ n, coreOfStation x.tag.src = some n → isParting n = false) →
        ∃ u, exec (.portTileArrive d st) s = .next u ∧
          u.station d st =
            { y with arrived := rest, drained := y.drained + xs.length, refusals := 0, left := y.left ++ [(s.tick, xs)] } ∧
          stationsBut d [st] s u ∧ u.regs = s.regs ∧ keepsData s u) ∧
      (∀ xs rest fd fst, takeTile y.arrived = some (xs, rest) → (∀ x ∈ xs, x.credit = true ∧ x.msg = none) →
        farSide d st = some (fd, fst) → (∀ x ∈ xs, ∀ n, coreOfStation x.tag.src = some n → isParting n = false) →
        exec (.portTileArrive d st) s = .next (((s.setStation d st
          { y with arrived := rest, drained := y.drained + (xs.filter fun x => x.credit).length, refusals := 0 }).post fd fst linkKey
            (farXfers fst (tileLines xs))).flushMsgs fd fst)) ∧
      (∀ v : W32, v.getLsbD 0 = true → s.inReset = false →
        ∃ u, exec (.starveMaxClr d st v) s = .next u ∧ u.fld d (stBlk st) 0x130 0 8 = 0 ∧ regsBut [rkey d (stBlk st) 0x130] s u ∧
          onlyRegs s u)) ∧
  (∀ (d : Fin 8) (s : State),
      (∀ (path : Fin 4) (st : Fin 30) (same : Bool) (f : LandFacts) n x rest, coreOfStation st = some n → s.powered = true →
        s.qRuns d (n / 6) = true → (s.station d st).landing path = x :: rest → x.stamp = none →
        ((s.station d st).port path).held = none → x.tag.xfer ≠ x.tag.xferLast →
        let u := s.setStation d st ((s.station d st).setLanding path rest)
        (x.came + 2 ≤ (s.quarter d (n / 6)).periods → x.msg = none → isParting n = false → x.tag.mode = false ∨ isGouge n = true →
          exec (.transferRelease d path st same {}) s = .next (u.putBuf d n (path + 1) same
            ((x.tag.bufLine + (if x.near then 4 else 1) * x.tag.xfer) * 512) (512 * x.lines) x.data x.poison x.tag.tile)) ∧
        (∀ m, x.came + 2 ≤ (s.quarter d (n / 6)).periods → x.msg = some m →
          exec (.transferRelease d path st same {}) s = .next (u.deliverMsg m x)) ∧
        ((s.quarter d (n / 6)).periods + cyclesPerTick (s.curPt d (n / 6)) < x.came + 2 →
          exec (.transferRelease d path st same f) s = .next s)) ∧
      (∀ (q : Fin 4) r, s.powered = true → s.qRuns d q = true → r ∈ s.duesOf d q → r.1 ≤ s.phaseNow d q →
        let x := s.quarter d q
        ∃ u, exec (.slipHold d q) s = .next u ∧
          u.quarter d q = { x with slipRun := x.slipRun + 1, slipDebt := x.slipDebt + 8, periods := x.periods + 1 } ∧
          u.pair d (qBlk q) 0x120 = (s.pair d (qBlk q) 0x120 + 1) % 2 ^ 64 ∧
          (x.slipRun + 1 < 65536 → u.fld d (qBlk q) 0x140 0 16 = max (s.fld d (qBlk q) 0x140 0 16) (x.slipRun + 1)) ∧
          regsBut [rkey d (qBlk q) 0x120, rkey d (qBlk q) 0x124, rkey d (qBlk q) 0x140] s u ∧ u.stations = s.stations ∧ keepsData s u) ∧
      (∀ (path : Fin 4) (st : Fin 30) n x rest (z : Stamp), coreOfStation st = some n → (s.station d st).landing path = x :: rest →
        x.stamp = some z → x.tag.xfer = 0 → ((s.core d n).entries path).length < 8 → (s.core d n).entryOf path x.tag.tile = none →
        let behind := (rest.takeWhile fun y => y.tag.xfer != 0 || y.tag.tile != x.tag.tile).filter fun y => y.tag.tile == x.tag.tile
        let e : CountedTile :=
          { tile := x.tag.tile, r0 := s.releaseOf d n path x z none
            c0 := unwrapStamp z (s.phaseNow d (n / 6)) (s.curPt d (n / 6)), declared := false, started := true
            next := behind.foldl (fun m y => max m (y.tag.xfer + 1)) 1, last := x.tag.xferLast }
        exec (.countedTileWaitEnd d path st) s = .next (s.setCore d n ((s.core d n).setEntries path ((s.core d n).entries path ++ [e])))))

/-! ## Stream engines -/

/-- What stream engines do: a grant goes to the class and stream chosen, of streams with no part that waits at its limit, an entry whose requests are
done completes in list order and the last one ends the stream, a transfer enters the receive stream that its `BUF_LINE` names, a chunk is fetched
again after its wait, and an entry past its deadline is shown in real-time mode (R151, R152, R153, R243, R245, R246, R247). What an inbox holds is
the model's choice (log entry 19), and what a grant passes over is its reading (log entry 48). -/
def Obligations.StreamsServe : Prop :=
  ∀ (d : Fin 8) (q : Fin 4) (s : State),
    (∀ (e : Fin 2) c t n, s.run = .ready → s.qRuns d q = true → s.resetting d = false →
      let u := s.freshen d q e
      let p := u.part d q
      let running := (p.turns e).filter fun t =>
        (u.streamState d q t == 1 || (u.streamState d q t == 3 && (p.stream t).stop.isSome)) && !u.streamHeld d q t
      p.outstanding e < 256 →
      chooseClass (u.fld d (ptCore q) 0x198 (2 * e) 2) (p.servedUnits e)
        (fun c => running.any fun t => (p.stream t).ready.any fun r => r.1 == c) = some c →
      running.findSome? (fun t => ((p.stream t).ready.find? fun r => r.1 == c).map fun r => (t, r.2)) = some (t, n) →
      exec (.streamRequestGrant d q e) s = .next ((u.grant d q t n).2.onPart d q fun p =>
        { p.serve e c (u.grant d q t n).1 with last := Sparse.put nat0 p.last e (t % 16) })) ∧
    (∀ (t : Fin 32) e rest, s.powered = true → s.qRuns d q = true →
      let x := s.stream d q t
      (∀ r ∈ x.reqs, r.id = none) → x.fetch = none → x.entries = e :: rest → s.entryComplete d q t x e = true → eDeadline e.bits = 0 →
      eSig e.bits = false →
      ∃ u, exec (.streamEntryComplete d q t) s = .next u ∧ (u.stream d q t).entries = rest ∧
        (u.stream d q t).completed = x.completed + 1 ∧ (u.stream d q t).reqs = (x.reqs.filter fun r => r.entry != e.index) ∧
        (x.completed + 1 = x.count → u.streamState d q t = 2) ∧ (x.completed + 1 ≠ x.count → u.regs = s.regs ∧ u.whittle = s.whittle) ∧
        u.mem = s.mem ∧ u.cores = s.cores ∧ u.stations = s.stations ∧ (∀ t' : Nat, t' ≠ t.val → u.stream d q t' = s.stream d q t')) ∧
    (∀ (path : Fin 4) z rest, s.powered = true → s.qRuns d q = true →
      let st := stationOfCore (ptCore q)
      let x := s.stream d q z.tag.bufLine
      (s.station d st).landing path = z :: rest → z.msg = none → z.tag.mode = false → z.tag.bufLine < 32 → s.streamState d q z.tag.bufLine = 1 → x.kind = 1 →
      x.inbox.length < 64 → z.tag.xfer ≠ z.tag.xferLast → ((s.station d st).port path).held = none →
      exec (.partingReceive d q path) s = .next ((s.setStation d st ((s.station d st).setLanding path rest)).setStream d q z.tag.bufLine
        { x with inbox := x.inbox ++ (List.range (8 * z.lines)).map fun i => (z.data / 2 ^ (512 * i) % 2 ^ 512, bitOf z.poison i) })) ∧
    (∀ (path : Fin 4) z rest, s.powered = true → s.qRuns d q = true → (s.station d (stationOfCore (ptCore q))).landing path = z :: rest →
      z.msg = none → z.tag.mode = false → 32 ≤ z.tag.bufLine → s.elog.length < 4096 → ((s.station d (stationOfCore (ptCore q))).port path).held = none →
      ∃ u, exec (.partingReceive d q path) s = .next u ∧ u.flag d (ptCore q) 0x018 1 = true ∧ u.logged d (ptCore q) 2 0 1 1 0 ∧
        keepsData s u) ∧
    (∀ (t : Fin 32) k, (s.stream d q t).retryAt = some k → k ≤ s.tick → s.qRuns d q = true →
      exec (.epochRetry d q t) s = .next (s.setStream d q t { s.stream d q t with retryAt := none })) ∧
    (∀ t : Fin 32, s.flag d (ptCore q) 0x19C 0 = true → s.streamState d q t = 1 → s.late (s.stream d q t) = true →
      ∃ u, exec (.deadlineMiss d q t) s = .next u ∧ u.flag d (ptCore q) 0x1D0 t = true ∧ regsBut [rkey d (ptCore q) 0x1D0] s u ∧
        onlyRegs s u)

/-- Each grant cycle serves a class with work whose served count over its share is smallest, and read before write before remote where
they tie; none only where no class has work (R245). -/
def Obligations.GrantServesSmallestShare : Prop :=
  ∀ (code : Nat) (units : SClass → Nat) (work : SClass → Bool),
    (∀ c, chooseClass code units work = some c → work c = true ∧
      (∀ b, work b = true → units c * splitShare code b ≤ units b * splitShare code c) ∧
      (∀ b, b.code < c.code → work b = true → units c * splitShare code b < units b * splitShare code c)) ∧
    (chooseClass code units work = none ↔ ∀ c, work c = false)

/-! ## Completion boards and the whittle path -/

/-- An arrival adds its count to its slot, saturating at all ones with the flag set, and sets its source's mask bit; a reserved bit of the slot
address is refused and recorded, with no slot changed (R154, R155, R157). A counter whose read finds a double-bit error is recorded, its unit of
the board poisoned, and what the slot holds then is a free value (R312, R313). What a record of the board's error says is the model's reading (log
entry 37), and that the value is free its choice (log entry 94). -/
def Obligations.BoardAddsArrivals : Prop :=
  ∀ (d : Fin 8) (q : Fin 4) (s : State) (a : Arrival) (rest : List Arrival),
    (s.part d q).arrivals = a :: rest → s.powered = true → s.qRuns d q = true → s.flag d (ptCore q) 0x150 0 = false →
    let n := slotOf a.addr
    (slotReserved a.addr = 0 → Sparse.get false0 (s.part d q).slotPoison (n / 16) = false →
      ∃ t, exec (.boardArrival d q false) s = .next t ∧ t.slot d q n = min (s.slot d q n + a.count) (2 ^ 32 - 1) ∧
        t.part d q = { s.part d q with
          arrivals := rest
          masks := Sparse.put nat0 (s.part d q).masks n (Sparse.get nat0 (s.part d q).masks n ||| 2 ^ a.idx) } ∧
        t.flag d (ptCore q) 0x154 0 = (s.flag d (ptCore q) 0x154 0 || decide (2 ^ 32 ≤ s.slot d q n + a.count)) ∧
        regsBut [rkey d (ptCore q) (0x800 + 4 * n), rkey d (ptCore q) 0x154] s t ∧ t.mem = s.mem ∧ t.cores = s.cores) ∧
    (slotReserved a.addr = 0 → s.elog.length < 4095 →
      ∃ t, exec (.boardArrival d q true) s = .next t ∧ t.slot d q n = (Config.freeBits 32 s.fresh).toNat ∧
        Sparse.get false0 (t.part d q).slotPoison (n / 16) = true ∧
        t.logged d (ptCore q) 1 4 0 0x7F (0x800 + 4 * n + ptCore q * 2 ^ 48) ∧ (t.part d q).arrivals = rest ∧
        (∀ k < 512, k ≠ n → t.slot d q k = s.slot d q k) ∧ t.mem = s.mem ∧ t.cores = s.cores) ∧
    (∀ err : Bool, slotReserved a.addr ≠ 0 → s.elog.length < 4096 →
      ∃ t, exec (.boardArrival d q err) s = .next t ∧ t.flag d (ptCore q) 0x018 2 = true ∧ t.logged d (ptCore q) 2 0 1 2 0 ∧
        (∀ k < 512, t.slot d q k = s.slot d q k) ∧ (t.part d q).masks = (s.part d q).masks ∧ (t.part d q).arrivals = rest ∧
        t.mem = s.mem ∧ t.cores = s.cores)

/-- Every 8-bit address names the endpoint of Table 6.9, and a message of any type that reaches a reserved address is refused with
reason 2. -/
def Obligations.EndpointsOfTheWhittlePath : Prop :=
  (∀ (d : Fin 8) (q : Fin 4), endpointOf (4 * d + q) = .parting d q) ∧
  (∀ d : Fin 8, endpointOf (0x20 + d) = .engine d) ∧
  (∀ c : Fin 32, endpointOf (0x40 + c) = .headstock (0x40 + c) ∧ endpointOf (0x60 + c) = .headstock (0x60 + c)) ∧
  (∀ a, 0x28 ≤ a → a < 0x40 → endpointOf a = .reserved) ∧ (∀ a, 0x80 ≤ a → a < 0x100 → endpointOf a = .reserved) ∧
  (∀ (s : State) (m : WMsg), endpointOf m.dst = .reserved →
    s.mailArrives m = s.refuseMsg m 2 ∧ s.slotAddArrives m = s.refuseMsg m 2 ∧ s.writeArrives m = s.refuseMsg m 2)

/-- A message that arrives and is accepted: MAIL goes behind the mailbox's entries, SLOT_ADD to the board, WRITE to data memory, each
with its words as sent and their poison; the message leaves the path and its sender is told. A message for a quarter that is held waits
at its crossing, unchanged. One that cannot be accepted is refused with a reason of the table under R161 and changes nothing at the endpoint: 1
for a full mailbox, 3 for a type that the endpoint does not take, 4 for a bad length, 5 for a slot of another quarter; and a send to a reserved
address is refused with reason 2 (R154, R161, R163, R258). That a sender is told in the step in which its message is taken, and refused in the
step of the send where no endpoint has the address, is the model's choice (log entry 41). -/
def Obligations.MessagesAreTakenOrRefused : Prop :=
  (∀ (src dst : Byte) (f : WhittleFacts) (s : State) (d q : Nat) (m : WMsg),
      s.powered = true → f.hs = none → f.headerBad = false → endpointOf dst.toNat = .parting d q → m.dst = dst.toNat →
      (s.whittle.find? fun m => m.src == src.toNat && m.dst == dst.toNat) = some m →
      let got : WMsg := { m with poison := m.poison ||| f.bad }
      let t : State := { s with whittle := s.whittle.erase m }
      (s.qRuns d q = false → exec (.mail src dst f) s = .next s ∧ exec (.slotAdd src dst f) s = .next s ∧
        exec (.whittleWrite src dst f) s = .next s) ∧
      (s.msgWaits m = false → m.type = 1 → 0 < m.len → m.len ≤ 32 → (s.part d q).mailbox.length < 64 →
        exec (.mail src dst f) s = .next ((t.onPart d q fun p => { p with mailbox := p.mailbox ++ [got] }).acceptMsg got)) ∧
      (s.msgWaits m = false → m.type = 2 → m.len = 0 → 0 < m.count → slotReserved m.arg = 0 → slotQuarter m.arg = q →
        exec (.slotAdd src dst f) s = .next ((t.boardAdd d q ⟨m.arg, m.count, m.idx, m.die⟩).acceptMsg got)) ∧
      (s.msgWaits m = false → m.type = 4 → 0 < m.len → m.len ≤ 32 → 8 * m.arg + 8 * m.len ≤ 2 ^ 18 →
        exec (.whittleWrite src dst f) s = .next ((t.onPart d q fun p => p.writeWords (8 * m.arg) m.payload got.poison).acceptMsg got)) ∧
      (∀ h rd since, s.msgWaits m = false → m.type = 0x80 → m.hart = some h → (s.hart d q h).wait = some (.send rd since) → m.arg ≠ 2 →
        exec (.refuse src dst f) s = .next (t.endWaitOf d q h rd (BitVec.ofNat 64 m.arg)))) ∧
  (∀ (s : State) (m : WMsg) (d q : Nat),
      (endpointOf m.dst = .engine d → s.mailArrives m = s.refuseMsg m 3 ∧ s.slotAddArrives m = s.refuseMsg m 3 ∧
        s.writeArrives m = s.refuseMsg m 3) ∧
      (endpointOf m.dst = .parting d q →
        (m.len = 0 ∨ 32 < m.len → s.mailArrives m = s.refuseMsg m 4 ∧ s.writeArrives m = s.refuseMsg m 4) ∧
        (m.len ≠ 0 ∨ m.count = 0 → s.slotAddArrives m = s.refuseMsg m 4) ∧
        (0 < m.len → m.len ≤ 32 → 64 ≤ (s.part d q).mailbox.length → (s.mailArrives m).part d q = s.part d q ∧
          (s.mailArrives m).whittle = (s.refuseMsg m 1).whittle ∧
          (s.mailArrives m).pair d (ptCore q) 0x170 = (s.pair d (ptCore q) 0x170 + 1) % 2 ^ 64) ∧
        (m.len = 0 → 0 < m.count → slotReserved m.arg = 0 → slotQuarter m.arg ≠ q → s.slotAddArrives m = s.refuseMsg m 5))) ∧
  (∀ (d : Fin 8) (q h : Fin 4) (s : State) (len : Nat) (x : QArgs) (o : Nat),
    HartMeets s d q h .wsend len x → dataPlace x.a.toNat 8 8 false = .ok o → (s.part d q).dataBad o 8 = false →
    let w := (s.part d q).data o 8
    bitsOf w 16 6 = 1 → bitsOf w 22 2 = 0 → o + 16 ≤ 2 ^ 18 → endpointOf (bitsOf w 0 8) = .reserved →
    ∃ t m, exec (.wsend d q h) s = .next t ∧ t.whittle = s.whittle ++ [m] ∧ m.type = 0x80 ∧ m.arg = 2 ∧ m.dst = 4 * d.val + q ∧
      m.hart = some h.val)

/-! ## Collective engines -/

/-- An open message with four good words names a descriptor, which the engine reads from memory; words with a reserved bit, a misplaced address or one
outside Heartwood are refused at once; an endpoint that is no engine refuses the message with reason 3. What the read brings goes to the open: a
valid descriptor is relayed unless an engine sent the message, and opens its bucket with the step, version and fresh flag of the message; an
invalid one is recorded and opens nothing. An opened bucket goes into the engine's slots in the order of opening if the engine takes part and its
slot is free in the module; a slot in use is an error and opens nothing; a new scale table is set to all ones, whatever the policy; the root of a
gather reads its chunks; a bucket that is done everywhere closes at once (R109, R111, R112, R117, R129, R135, R161). That a slot is held for the
whole module, that a refused open is relayed and its bucket kept from closing, that a second slot may hold an open tag and step, and whose scale
table is set are the model's readings and choices (log entries 38, 39, 73 and 99). -/
def Obligations.BucketsOpen : Prop :=
  (∀ (d : Fin 8) (src dst : Byte) (f : WhittleFacts) (s : State) (m : WMsg),
      s.run = .ready → f.hs = none → f.headerBad = false → dst.toNat = 0x20 + d.val → m.dst = dst.toNat → m.src = src.toNat →
      m.type = 3 → m.len = 4 → (m.poison ||| f.bad) % 16 = 0 →
      (s.whittle.find? fun m => m.src == src.toNat && m.dst == dst.toNat) = some m →
      let got : WMsg := { m with poison := m.poison ||| f.bad }
      let t := ({ s with whittle := s.whittle.erase m } : State).acceptMsg got
      let w := packBits 64 (m.payload.map BitVec.toNat)
      let addr := bitsOf w 0 48
      (w / 2 ^ 97 = 0 → addr % 64 = 0 → inHeartwood addr = true →
        let ask := t.ceRead d addr 64
        ((∃ z, endpointOf m.src = .engine z) →
          exec (.ceOpen src dst f) s = .next ((ask.2.addJob d [ask.1] (.opened got true)).ceSettle d)) ∧
        ((∀ z, endpointOf m.src ≠ .engine z) →
          exec (.ceOpen src dst f) s = .next ((ask.2.addJob d [ask.1] (.opened got false)).ceSettle d))) ∧
      (w / 2 ^ 97 ≠ 0 ∨ addr % 64 ≠ 0 ∨ inHeartwood addr = false →
        exec (.ceOpen src dst f) s =
          .next (((t.errBit d ceBlk 2).event d ceBlk 2 0 1 2 (0x3FF + bitsOf w 48 32 * 2 ^ 42 + addr * 2 ^ 74)).ceSettle d))) ∧
  (∀ (src dst : Byte) (f : WhittleFacts) (s : State) (m : WMsg),
      s.powered = true → f.hs = none → f.headerBad = false → m.dst = dst.toNat → m.type = 3 → s.msgWaits m = false →
      (s.whittle.find? fun m => m.src == src.toNat && m.dst == dst.toNat) = some m →
      (∃ d q, endpointOf dst.toNat = .parting d q) ∨ (∃ c, endpointOf dst.toNat = .headstock c) →
      exec (.ceOpen src dst f) s = .next (({ s with whittle := s.whittle.erase m } : State).refuseMsg { m with poison := m.poison ||| f.bad } 3)) ∧
  (∀ (d : Fin 8) (s : State) (n : Nat) (j : CeJob), ((s.engine d).jobs.find? fun j => j.spans.all fun x => s.spanDone x) = some j →
      let r := (s.setEngine d { s.engine d with jobs := (s.engine d).jobs.erase j }).takeSpans j.spans
      s.ceAdvance d (n + 1) = (r.2.ceAct d j.act r.1).ceAdvance d n ∧
      ∀ m relayed, j.act = .opened m relayed → r.2.ceAct d j.act r.1 = r.2.openRead d m relayed (r.1.headD ⟨false, 0, 0⟩)) ∧
  (∀ (d : Fin 8) (s : State) (m : WMsg) (relayed : Bool) (x : SpanData),
      let w := packBits 64 (m.payload.map BitVec.toNat)
      let b : Bucket := { desc := x.data, step := bitsOf w 48 32, version := bitsOf w 80 16, since := s.tick }
      (x.ok = true → x.poison = 0 → descBad x.data = false →
        s.openRead d m true x = s.openHere d b (bitOf w 96) ∧
        s.openRead d m false x = ({ s with whittle := s.whittle ++ (b.dies.filter fun z => z != d.val).map fun z =>
          { m with dst := 0x20 + z, src := 0x20 + d.val, hart := none } } : State).openHere d b (bitOf w 96)) ∧
      (x.ok = true → x.poison = 0 → descBad x.data = true → s.elog.length < 4096 →
        let u := s.openRead d m relayed x
        u.engines = s.engines ∧ u.mem = s.mem ∧ u.whittle = s.whittle ∧ u.flag d ceBlk 0x018 2 = true ∧
          u.logged d ceBlk 2 0 1 2 ((descSlot x.data + descTag x.data * 2 ^ 10 + bitsOf w 48 32 * 2 ^ 42) % 2 ^ 128))) ∧
  (∀ (d : Fin 8) (s : State) (b : Bucket) (fresh : Bool),
      let e := s.engine d
      let opened := s.setEngine d { e with buckets := e.buckets ++ [{ b with order := e.opened }], opened := e.opened + 1 }
      let ask := opened.ceWrite d (dieBase d + b.scaleOff) (b.chunksOf d) (2 ^ (8 * b.chunksOf d) - 1) 0
      let used := ∃ z < 8, ∃ x ∈ (s.engine z).buckets, x.slot = b.slot ∧ (z = d.val ∨ x.tag ≠ b.tag ∨ x.step ≠ b.step)
      (b.dies.contains d.val = false → s.openHere d b fresh = s) ∧
      (b.dies.contains d.val = true → used →
        s.openHere d b fresh = ((s.setEngine d { e with refused := e.refused ++ [(b.tag, b.step)] }).bucketError d 1 b 0).closeIfDone b) ∧
      (b.dies.contains d.val = true → ¬ used → fresh = false ∨ b.chunksOf d = 0 →
        b.policy ≠ 2 ∨ b.isRoot (b.stripeOf d) = false ∨ b.chunksOf d = 0 → s.openHere d b fresh = opened.closeIfDone b) ∧
      (b.dies.contains d.val = true → ¬ used → fresh = true → 0 < b.chunksOf d → b.policy ≠ 2 →
        s.openHere d b fresh = (ask.2.addJob d [ask.1] .nothing).closeIfDone b) ∧
      (b.dies.contains d.val = true → ¬ used → fresh = false → 0 < b.chunksOf d → b.policy = 2 → b.isRoot (b.stripeOf d) = true →
        s.openHere d b fresh = (opened.gatherStart d b).closeIfDone b))

/-- What an engine takes in: a push tile of an open bucket is retained or forwarded, one of no open bucket is parked and proceeds once the bucket
opens, forwarded values reach their stripe engine, and a chunk whose contributions are complete starts. A bucket that is not closed within its
limit is flagged once, and the lead die's engine records it; a write of the fall-back log's base empties the log (R113, R114, R115, R118, R134,
R135, R421). What is parked, dropped or begun again of messages out of their turn is the model's reading (log entries 38 and 39). -/
def Obligations.ContributionsReachTheirEngine : Prop :=
  (∀ (d : Fin 8) (s : State), s.run = .ready →
      (∀ lines t, s.netTile d = some (lines, t) → netKind lines = 0 → (lines.headD (0, 0)).1 < 2 ^ 88 →
        let h := (lines.headD (0, 0)).1
        (∀ b, t.bucket d (pushTag h) (pushStep h) = some b → exec (.pushTileArrive d) s = .next ((t.takePush d b lines).ceSettle d)) ∧
        (t.bucket d (pushTag h) (pushStep h) = none → (t.engine d).parkUse + lines.length ≤ 256 →
          ∃ u, exec (.pushTileArrive d) s = .next u ∧ u.engine d = { t.engine d with parked := (t.engine d).parked ++ [.tile lines] } ∧
            u.stations = t.stations ∧ u.mem = s.mem ∧ u.cores = s.cores)) ∧
      (∀ lines rest b, (s.engine d).parked = .tile lines :: rest →
        let h := (lines.headD (0, 0)).1
        s.bucket d (pushTag h) (pushStep h) = some b →
        exec (.parkedTileProceed d) s = .next (((s.setEngine d { s.engine d with parked := rest }).takePush d b lines).ceSettle d)) ∧
      (∀ f rest b, s.forwards = f :: rest → f.dst = d.val → f.stage = .here → s.bucket d f.tag f.step = some b →
        exec (.forwardedValuesArrive d) s = .next ((({ s with forwards := rest } : State).takeValues d b f).ceSettle d)) ∧
      (∀ (slot : Fin 1024) (k : Nat) b, ((s.engine d).buckets.find? fun b => b.slot == slot.val) = some b → b.policy ≠ 2 →
        b.stripeDie k = d.val → k < b.chunkCount → (s.chunk d b k).phase = .wait → s.chunkFull d b k = true →
        s.forecastWaits d b k = false → exec (.chunkConvert d slot k) s = .next ((s.startChunk d b k).ceShow d))) ∧
  (∀ (d : Fin 8) (s : State),
      (∀ (slot : Fin 1024) b, ((s.engine d).buckets.find? fun b => b.slot == slot.val) = some b → b.stalled = false → 0 < b.limit →
        b.since + 1024 * b.limit ≤ s.tick → d.val ≠ b.lead →
        ∃ u, exec (.bucketStalled d slot) s = .next u ∧ u.flag d ceBlk 0x018 4 = true ∧ u.elog = s.elog ∧
          u.fld d ceBlk 0x110 0 10 = b.slot ∧ u.fld d ceBlk 0x110 10 16 = b.tag ∧ u.mem = s.mem ∧ u.cores = s.cores ∧
          (u.bucket d b.tag b.step).map (fun x => x.stalled) = some true) ∧
      (∀ (slot : Fin 1024) b, ((s.engine d).buckets.find? fun b => b.slot == slot.val) = some b → b.stalled = false → 0 < b.limit →
        b.since + 1024 * b.limit ≤ s.tick → d.val = b.lead → s.elog.length < 4096 →
        ∃ u, exec (.bucketStalled d slot) s = .next u ∧ u.logged d ceBlk 2 0 1 4 ((b.slot + b.tag * 2 ^ 10 + b.step * 2 ^ 42) % 2 ^ 128)) ∧
      (∀ (hi : Bool) (v : W32), s.inReset = false →
        ∃ u, exec (.fbLogBaseWrite d hi v) s = .next u ∧ u.rg d ceBlk 0x18C = 0 ∧ u.rg d ceBlk 0x190 = 0 ∧
          u.engine d = { s.engine d with jobs := (u.engine d).jobs } ∧ (∀ j ∈ (u.engine d).jobs, j.act ≠ .logged) ∧
          (∀ z : Nat, z < 8 → z ≠ d.val → u.engine z = s.engine z) ∧ u.mem = s.mem ∧ u.cores = s.cores))

/-- A chunk message in front of the engine's inbox is taken by the command of its kind: handled for its open bucket where its digest agrees, discarded
with `DESC_MISMATCH` where it does not, and parked while its bucket is not open and the area has room (R111, R115, R119, R120, R124, R126, R127,
R130). All nine messages. What becomes of a message that does not belong is the model's reading (log entry 39). -/
def Obligations.ChunkMessagesAreTaken : Prop :=
  ∀ (d : Fin 8) (s : State) (x : ChunkIn) (rest : List ChunkIn), s.run = .ready → (s.engine d).inbox = x :: rest →
    let kind := s.kindOf d x.msg
    let t := (s.setEngine d { s.engine d with inbox := rest }).pfcCheck x.port
    (∀ b, t.bucket d (msgTag x.msg) (msgStep x.msg) = some b → chunkHdr x.msg 112 16 = descDigest b.desc →
      exec (chunkCommand d kind) s = .next ((t.handleMsg d b (t.kindOf d x.msg) x.msg x.rank).ceSettle d)) ∧
    (∀ b, t.bucket d (msgTag x.msg) (msgStep x.msg) = some b → chunkHdr x.msg 112 16 ≠ descDigest b.desc →
      exec (chunkCommand d kind) s = .next ((t.bucketError d 3 b (msgChunk x.msg)).ceSettle d)) ∧
    (t.bucket d (msgTag x.msg) (msgStep x.msg) = none → (s.engine d).netUse + msgSize x.msg ≤ 65536 →
      ∃ u, exec (chunkCommand d kind) s = .next u ∧ (u.engine d).netParked = (s.engine d).netParked ++ [x] ∧
        (u.engine d).inbox = rest ∧ (u.engine d).buckets = (s.engine d).buckets ∧ u.mem = s.mem ∧ u.cores = s.cores)

/-- An addition of Grain-32 values is exact and does not depend on the order of its two operands: element by element the sum as integers,
refused only where a sum leaves the range of a signed 32-bit integer; only finite values convert (R118, R122, R124). -/
def Obligations.GrainSumsAreExact : Prop :=
  (∀ a b l, addInts a b = some l → a.length = b.length →
    l.length = a.length ∧ ∀ i : Nat, l[i]? = (a[i]?.bind fun x => b[i]?.map fun y => x + y)) ∧
  (∀ a b, addInts a b = addInts b a) ∧
  (∀ a b, addInts a b = none → ∃ z ∈ a.zipWith (· + ·) b, z < -2147483648 ∨ 2147483648 ≤ z) ∧
  (∀ f h w z, grainOf f h w = some z → (f32 w).isNan = false ∧ (f32 w).isInf = false)

/-! ## Memory -/

/-- A write of any length at any address is read back, changes no other byte, and keeps the memory and its poison table canonical
(R224, R317). -/
def Obligations.MemoryReadsBackWrites : Prop :=
  ∀ (s : State) (who a n data bad : Nat),
    let t := s.writeBytes who a n data bad
    t.readMem a n = data % 2 ^ (8 * n) ∧
    (∀ b, (b < a ∨ a + n ≤ b) → Sparse.get byte0 t.mem b = Sparse.get byte0 s.mem b) ∧
    (s.Canonical → t.Canonical)

/-- A part that the limits allow is admitted behind the parts admitted before it, but within one controller cycle in ascending requester index, and a
read that lies in a read-ahead entry is served at once; refresh takes a bank, scrub reads the block that is due and goes on to the next, keeps a
corrected block for its write-back and poisons one that it cannot correct, read-ahead fetches the next span of an ascending run and lands unless a
write met it. A bank serves its oldest admitted part: a write's blocks are then what reads return, and no other byte of memory changes; a read
takes the bytes that memory holds and their poison, straight into its request where the requester is the core above, else by a reply (R30, R229,
R231, R232, R235, R236, R312, R317). The order within a cycle, the period of a refresh, what scrub keeps and when a span counts as read are the
model's readings and choices (log entries 20 and 104). -/
def Obligations.ControllersServe : Prop :=
  (∀ (d : Fin 8) (c : Fin 24) (s : State), s.powered = true →
      let x := s.ctl d c
      (∀ (same : Bool) p r, s.admissible d c s.waiting = some p → s.findReq p.req = some r → s.raHit p = false →
        ∃ t, exec (.partAdmit d c same) s = .next t ∧
          t.admitted = admitIn { p with cycle := x.cycle + b2n (!same) } s.admitted ∧ t.waiting = s.waiting.erase p ∧ t.mem = s.mem ∧
          t.reqs = s.reqs ∧ t.cores = s.cores) ∧
      (∀ (same : Bool) p r, s.admissible d c s.waiting = some p → s.findReq p.req = some r → s.raHit p = true → r.bytes = 0 →
        p.write = false → p.home = true → s.held = [] →
        ∃ t, exec (.partAdmit d c same) s = .next t ∧ t.admitted = s.admitted ∧ t.waiting = s.waiting.erase p ∧ t.mem = s.mem ∧
          t.findReq p.req = some { r with
            data := r.data + s.readMem (r.addr + 64 * p.first) (64 * p.units) * 2 ^ (512 * p.first)
            poison := r.poison + s.blocksPoison (r.addr + 64 * p.first) p.units * 2 ^ p.first
            left := r.left - 1 }) ∧
      (∀ bank : Fin 32, Sparse.get nat0 x.refresh bank = 0 ∨ Sparse.get nat0 x.refresh bank + 390 ≤ s.tick + 9 →
        exec (.refresh d c bank) s = .next (s.setCtl d c { x with refresh := Sparse.put nat0 x.refresh bank (s.tick + 9) })) ∧
      (∀ lanes : List Nat, s.fld d (hwcBlk c) 0x104 1 8 ≠ 0 → scrubDue c (s.fld d (hwcBlk c) 0x104 1 8) x.passAt x.scrub ≤ s.tick →
        s.inBank d c (bankOf c x.scrub) = [] → s.refreshing d c (bankOf c x.scrub) = false → x.scrubBack = none →
        x.scrub + 1 < homeBlocks c →
        let a := blockAddr d c x.scrub
        (lanes = [] → exec (.scrubRead d c lanes) s = .next (s.setCtl d c { x with scrub := x.scrub + 1 })) ∧
        (lanes ≠ [] → lanes.length ≤ s.eccT d (hwcBlk c) → s.blockBad a = false →
          ∃ t, exec (.scrubRead d c lanes) s = .next t ∧ (t.ctl d c).scrubBack = some (x.scrub, s.readMem a 64) ∧
            (t.ctl d c).scrub = x.scrub + 1 ∧ t.pair d (hwcBlk c) 0x148 = (s.pair d (hwcBlk c) 0x148 + 1) % 2 ^ 64 ∧ t.mem = s.mem ∧
            t.memPoison = s.memPoison) ∧
        (s.eccT d (hwcBlk c) < lanes.length → lanes.length ≤ 8 - s.eccT d (hwcBlk c) → s.blockBad a = false →
          s.fld (poisonPage a).1 (poisonPage a).2.1 0x150 0 13 < (poisonPage a).2.2 → s.elog.length < 4096 →
          ∃ t, exec (.scrubRead d c lanes) s = .next t ∧ t.blockBad a = true ∧ t.flag d (hwcBlk c) 0x018 1 = true ∧
            (∃ syn, t.logged (memDie a) (hwcBlk c) 1 4 0 1 syn) ∧ t.mem = s.mem ∧ t.cores = s.cores)) ∧
      (∀ requester : Fin 37, s.flag d (hwcBlk c) 0x104 0 = true →
        let span := (Sparse.get (fun _ => (0, 0)) x.spans requester).1 + 1
        2 ≤ (Sparse.get (fun _ => (0, 0)) x.spans requester).2 → 64 * span < homeBlocks c →
        (∀ i < 64, s.inBank d c (bankOf c (64 * span + i)) = []) → (∀ e ∈ x.ra, e.span ≠ span) → (∀ f ∈ x.fills, f.span ≠ span) →
        exec (.readAheadFill d c requester []) s = .next (s.setCtl d c { x with fills := x.fills ++ [⟨span, false⟩] })) ∧
      (∀ f rest, x.fills = f :: rest → s.flag d (hwcBlk c) 0x104 0 = true → f.spoiled = false → x.ra.length < 16 →
        exec (.readAheadLand d c) s = .next (s.setCtl d c { x with fills := rest, ra := x.ra ++ [⟨f.span⟩] })) ∧
      (∀ f rest, x.fills = f :: rest → s.flag d (hwcBlk c) 0x104 0 = true → f.spoiled = true →
        exec (.readAheadLand d c) s = .next ((s.setCtl d c { x with fills := rest }).bump d (hwcBlk c) 0x130 1)) ∧
      exec (.sramWriteback d c) s = .next s) ∧
  (∀ (d : Fin 8) (c : Fin 24) (bank : Fin 32) (s : State) (p : Part) (rest : List Part) (r : MemReq),
      s.powered = true → s.inBank d c bank = p :: rest → s.refreshing d c bank = false → s.findReq p.req = some r → r.bytes = 0 →
      let a := r.addr + 64 * p.first
      (p.write = true → r.poison = 0 →
        ∃ t, exec (.partServe d c bank []) s = .next t ∧
          (∀ i < p.units, t.readMem (a + 64 * i) 64 = bitsOf r.data (512 * (p.first + i)) 512 ∧ t.blockBad (a + 64 * i) = false) ∧
          (∀ b, (b < a ∨ a + 64 * p.units ≤ b) → Sparse.get byte0 t.mem b = Sparse.get byte0 s.mem b) ∧
          t.findReq p.req = some (if p.home then { r with left := r.left - 1 } else r) ∧ t.admitted = s.admitted.erase p ∧
          (s.WaitsTold → t.cores = s.cores)) ∧
      (p.write = false → p.home = true →
        ∃ t, exec (.partServe d c bank []) s = .next t ∧ t.mem = s.mem ∧ t.memPoison = s.memPoison ∧
          t.findReq p.req = some { r with
            data := r.data + s.readMem a (64 * p.units) * 2 ^ (512 * p.first)
            poison := r.poison + s.blocksPoison a p.units * 2 ^ p.first
            left := r.left - 1 } ∧
          t.admitted = s.admitted.erase p ∧ (s.WaitsTold → t.cores = s.cores)) ∧
      (p.write = false → p.home = false →
        let t := (({ s with admitted := s.admitted.erase p } : State).bump d (hwcBlk c) 0x110 1).sendReply d p.legs r p.first p.units
          false (s.readMem a (64 * p.units)) (s.blocksPoison a p.units)
        exec (.partServe d c bank []) s = .next (t.releaseHeld [] t.held)))

/-- The Tailstocks: a Headstock's read that hits is answered with memory's bytes, one that misses waits for its fill and is then answered; a tile's
request that hits is answered by a reply tile or message, one in the carve-out, and one under a bad header, is refused and recorded. An access to
lines of an earlier one waits. Prefetch fetches a line ahead, behind the demand reads of its sub-channel, and drops one that was written
meanwhile; a double-bit error is corrected in a clean line and poisons the blocks of a dirty one (R237, R238, R239, R240, R241, R314). How lines
and sub-channels are numbered, and that a reply's place is free, are the model's readings (log entry 20). -/
def Obligations.TailstocksServe : Prop :=
  ∀ (t : Fin 2) (s : State), s.powered = true →
    let x := s.tail t
    (∀ r rest, x.queue = r :: rest → s.sapWaits t 8 8 r.via (r.lines t) = false → r.die = 8 → r.req = none → r.write = false →
      r.na = false →
      (r.tag < coreLanes → (∀ l ∈ r.lines t, ∃ c ∈ x.cache, c.line = l) → r.bytes = 0 → s.blocksPoison r.addr r.units = 0 →
        ∃ u, exec (.sapwoodRequest t 8 {}) s = .next u ∧
          u.out = s.out ++ [.hsDone (r.tag / 2) r.addr false false (s.readMem r.addr (64 * r.units)) 0] ∧
          (u.tail t).queue = rest ∧ u.mem = s.mem ∧ u.memPoison = s.memPoison ∧ u.cores = s.cores) ∧
      ((∀ l ∈ r.lines t, ∀ c ∈ x.cache, c.line ≠ l) →
        ∃ u, exec (.sapwoodRequest t 8 {}) s = .next u ∧ (u.tail t).queue = rest ∧
          (u.tail t).filling = x.filling ++ [(r, r.lines t)] ∧ u.mem = s.mem ∧ u.reqs = s.reqs ∧ u.cores = s.cores)) ∧
    (∀ (src : Fin 8) tick xs rest, src.val / 4 = t → (s.station src sapStation).left = (tick, xs) :: rest →
      let free := s.freeNat 32768
      let u := free.2.setStation src sapStation { s.station src sapStation with left := rest }
      (sapTileRequest t src xs free.1 = none → s.elog.length < 4096 →
        let v := ((u.errBit (tsDie t) 0 0).event (tsDie t) 0 2 0 1 0 0).answer t ((headerReturn (tileLines xs)).named src xs) true 0 0
        exec (.sapwoodRequest t ⟨src, by omega⟩ {}) s = .next v ∧ v.flag (tsDie t) 0 0x018 0 = true ∧
          v.logged (tsDie t) 0 2 0 1 0 0 ∧ v.mem = s.mem ∧ v.cores = s.cores) ∧
      (∀ r, sapTileRequest t src xs free.1 = some r →
        (s.sapWaits t src r.die tick (r.lines t) = true → exec (.sapwoodRequest t ⟨src, by omega⟩ {}) s = .next s) ∧
        (s.sapWaits t src r.die tick (r.lines t) = false → s.carveHit t r = true → s.elog.length < 4096 →
          let v := (u.carveRefuse t).answer t r true 0 0
          exec (.sapwoodRequest t ⟨src, by omega⟩ {}) s = .next v ∧ v.flag (tsDie t) 0 0x018 1 = true ∧
            v.logged (tsDie t) 0 2 0 1 1 0 ∧ v.mem = s.mem ∧ v.cores = s.cores) ∧
        (s.sapWaits t src r.die tick (r.lines t) = false → s.carveHit t r = false → r.write = false → r.na = false → r.bytes = 0 →
          (∀ l ∈ r.lines t, ∃ c ∈ x.cache, c.line = l) →
          ∃ v : State, exec (.sapwoodRequest t ⟨src, by omega⟩ {}) s =
              .next (v.answer t r false (s.readMem r.addr (64 * r.units)) (s.blocksPoison r.addr r.units)) ∧
            v.mem = s.mem ∧ v.memPoison = s.memPoison ∧ v.reqs = s.reqs ∧ v.cores = s.cores ∧ (v.station src sapStation).left = rest))) ∧
    (∀ r ls rest, x.filling = (r, ls) :: rest → r.write = false → r.bytes = 0 →
      ∃ v : State, exec (.sapwoodMissFill t {}) s =
          .next (v.answer t r false (s.readMem r.addr (64 * r.units)) (s.blocksPoison r.addr r.units)) ∧
        (v.tail t).filling = rest ∧ v.mem = s.mem ∧ v.memPoison = s.memPoison ∧ v.reqs = s.reqs ∧ v.cores = s.cores) ∧
    (∀ (j : Fin 64) k l, x.tracks[j.val]? = some k → s.flag (tsDie t) 1 0x100 0 = true →
      ((s.aheadOf t k).find? fun l => !(x.cache.any fun c => c.line == l) && !(x.prefetches.any fun p => p.line == l) && !x.busy t [l]) = some l →
      (∀ p ∈ x.filling, ∀ m ∈ p.2, subChannel m ≠ subChannel l) →
      exec (.sapwoodPrefetch t j) s = .next ((s.setTail t { x with prefetches := x.prefetches ++ [⟨l, false⟩] }).bump (tsDie t) 1 0x120 1)) ∧
    (∀ (f : SapFacts) p rest, x.prefetches = p :: rest → p.wrote = true →
      exec (.prefetchLand t f) s =
        .next (((((s.setTail t { x with prefetches := rest }).bump (tsDie t) 0 0x110 4).sapCounts t f).sapErrors t
          (halfBase t + 256 * p.line) 0 f).bump (tsDie t) 1 0x128 1)) ∧
    (∀ p rest, x.prefetches = p :: rest → p.wrote = false → x.busy t [p.line] = false →
      ∃ u, exec (.prefetchLand t {}) s = .next u ∧ (∃ c ∈ (u.tail t).cache, c.line = p.line) ∧ (u.tail t).prefetches = rest ∧
        u.mem = s.mem ∧ u.cores = s.cores) ∧
    (∀ (f : SapFacts) line, (x.cache.find? fun c => c.line == line) = some ⟨line, false⟩ →
      exec (.cacheLineRefetch t line f) s =
        .next ((((s.bump (tsDie t) 0 0x110 4).bump (tsDie t) 1 0x130 1).sapCounts t f).sapErrors t (halfBase t + 256 * line) 0 f)) ∧
    (∀ (f : SapFacts) line, (x.cache.find? fun c => c.line == line) = some ⟨line, true⟩ → line < halfLines →
      s.fld (26 + t) 0 0x150 0 13 + 4 ≤ 4096 → s.elog.length < 4096 →
      ∃ u, exec (.cacheLineRefetch t line f) s = .next u ∧ (∀ i < 4, u.blockBad (halfBase t + 256 * line + 64 * i) = true) ∧
        u.logged (tsDie t) 1 1 4 0 0x7F (halfBase t + 256 * line) ∧ u.mem = s.mem ∧ u.cores = s.cores)

/-! ## The loader -/

/-- The loader takes an image wholly or not at all: a refusal reports its code and the index and changes nothing else; an accepted image is begun, its
sections leave for their cores and for Heartwood, and nothing is started before all of them have arrived; then the sections stand where the image
names, the program is installed, and the loader reports it. An installed main image leaves its digest in the job and every core that it has code
for running from word 0. Until the module is ready, and an entry of the inbound mailbox has brought a job, nothing is loaded. Unloading takes
every program of the job off every core, stops every hart and ends the debug mode of every quarter whose page is not locked; memory stays as it is
(R27, R186, R189, R200, R369, R381, R389, R403, R406). What an accepted entry of the mailbox begins, what unloading stops, and how a load travels
are the model's readings and choices (log entries 43, 44, 66 and 73). -/
def Obligations.JobsLoadAndUnload : Prop :=
  (∀ (job rank : Nat) (d : Fin 8) (layout : List Nat) (points : List (Fin 8)) (bytes : List Byte) (s : State),
      let l : Load := { job := job, die := d, rank := rank, layout := layout, points := points, bytes := bytes }
      (s.run ≠ .ready ∨ s.mgmt.taken = 0 → exec (.loadImage job d rank layout points bytes) s = .next s) ∧
      (∀ code index, s.run = .ready → s.mgmt.taken ≠ 0 → s.mgmt.loads = [] → s.loadCheck job d rank layout bytes = some (code, index) →
        exec (.loadImage job d rank layout points bytes) s = .next { s with out := s.out ++ [.loader code d index] }) ∧
      (s.run = .ready → s.mgmt.taken ≠ 0 → s.mgmt.loads = [] → s.loadCheck job d rank layout bytes = none →
        let b := (s.setLoads [l]).beginLoad l
        b.1.begun = true ∧ exec (.loadImage job d rank layout points bytes) s = .next ((b.2.setLoads [b.1]).loaderGo 1))) ∧
  (∀ (s : State) (n : Nat) (l : Load) (rest : List Load), s.mgmt.loads = l :: rest → l.begun = true →
      ((l.spans.all fun p => s.spanDone p.2) = false → s.loaderGo (n + 1) = s) ∧
      ((l.spans.all fun p => s.spanDone p.2) = true →
        let landed := l.spans.foldl (fun s p => s.landSection l.die (imageOf l.bytes) p) s
        let t := (landed.install l.job l.die l.rank l.layout l.points (imageOf l.bytes)).setLoads rest
        s.loaderGo (n + 1) = ({ t with out := t.out ++ [.loader 0 l.die none] } : State).loaderGo n)) ∧
  (∀ (s : State) (job rank : Nat) (d : Fin 8) (layout : List Nat) (points : List (Fin 8)) (m : Image), m.backfill = false →
      let t := s.install job d rank layout points m
      (∃ j p, t.job = some j ∧ Sparse.get noProg j.mains d = some p ∧ p.digest = m.digest) ∧
      (∀ c ∈ engineCores, m.runsOn c = true → t.progState d c = 1 ∧ t.progPc d c = 0 ∧ (t.core d c).prog = {}) ∧ t.mem = s.mem) ∧
  (∀ s : State, s.job.isSome = true →
      ∃ t, exec .jobUnload s = .next t ∧ t.job = none ∧
        (∀ d < 8, ∀ c < 24, (t.core d c).units = [] ∧ (t.core d c).queues = [] ∧ (t.core d c).backfill = none ∧
          (t.core d c).bounds = [] ∧ (isParting c = false → t.progState d c ≠ 1)) ∧
        (∀ (d : Fin 8) (q h : Fin 4), t.hartState d q h ≠ 1 ∧ (s.flag d (qBlk q) 0x00C 0 = false → t.debug d q = false)) ∧
        t.mem = s.mem ∧ t.memPoison = s.memPoison)

/-! ## Clock regions -/

/-- A quarter changes its point through a region hold: a request becomes the pending point (one equal to the current point is discarded), the rail
ramps, the hold begins in counted order with the pending point taken, the generator locks, and after the monitor check the quarter resumes at the
new point (R255, R256, R257, Table 10.3). That the point changes at the hold's resume, and what the pending field keeps, are the model's readings
(log entry 50). -/
def Obligations.PointsChangeByRegionHolds : Prop :=
  ∀ (d : Fin 8) (q : Fin 4) (s : State), s.run = .ready → (s.quarter d q).faulted = false →
    let x := s.quarter d q
    (∀ v : W32, s.holding d q = false → v.toNat % 8 ≠ s.curPt d q →
      ∃ t, exec (.opReqWrite d q v) s = .next t ∧ t.pendPt d q = v.toNat % 8 ∧ t.pendValid d q = true ∧ t.curPt d q = s.curPt d q ∧
        t.holding d q = false ∧ keepsData s t) ∧
    (∀ v : W32, s.holding d q = false → v.toNat % 8 = s.curPt d q →
      ∃ t, exec (.opReqWrite d q v) s = .next t ∧ t.pendValid d q = false ∧ t.curPt d q = s.curPt d q ∧ keepsData s t) ∧
    (s.ramping d q = true → x.rampLeft = 0 →
      ∃ t, exec (.railRampComplete d q) s = .next t ∧ t.ramping d q = false ∧ t.fld d (qBlk q) 0x110 16 16 = x.rampTo % 2 ^ 16 ∧
        t.curPt d q = s.curPt d q ∧ keepsData s t) ∧
    (∀ p, s.pendPt d q = p → s.holdReady d q = true → x.droopSeen = false → s.subst d q p = p → p ≠ 7 → p ≠ s.curPt d q →
      ∃ t, exec (.regionHoldBegin d q) s = .next t ∧ t.holding d q = true ∧ t.pendValid d q = false ∧ t.curPt d q = s.curPt d q ∧
        (t.quarter d q).holdAt = some s.tick ∧ (t.quarter d q).holdTo = p ∧ t.qRuns d q = false ∧
        t.pair d (qBlk q) 0x128 = (s.pair d (qBlk q) 0x128 + 1) % 2 ^ 64 ∧ keepsData s t) ∧
    (∀ n, s.holding d q = true → x.holdAt = some n → x.lockAt = none → n < s.tick → s.tick ≤ n + 280 →
      exec (.generatorLock d q) s = .next (s.setQuarter d q { x with lockAt := some s.tick })) ∧
    (∀ n, s.holding d q = true → s.alerted d q = false → x.lockAt = some n → n + 20 ≤ s.tick →
      (∀ h, x.holdAt = some h → s.tick ≤ h + 300) → x.holdTo < 8 →
      ∃ t, exec (.regionHoldResume d q) s = .next t ∧ t.holding d q = false ∧ t.curPt d q = x.holdTo ∧
        (t.quarter d q).holdAt = none ∧ t.mem = s.mem ∧ (s.strobed = [] → t.parts = s.parts) ∧ t.stations = s.stations)

/-- What goes wrong in a clock region stops it and is recorded: a hold not resumed by T_h + 300, and a period beyond the monitors' limits, stop the
quarter at once; the next tick edge samples the fault as a record that quiesces the module until an engine reset of its die (R266, R407, R410,
R413). A stretched period counts as one cycle, takes its eighths longer and raises the droop flag; the flag clears after 64 unstretched cycles and
the limit after 256; a change deferred for 100,000 ticks is flagged and keeps waiting; the longest slip run is cleared by a 1 (R261, R264, R265,
R267, R275). That a stretched period counts as one cycle and that a hold past its limit is a fault of its quarter are the model's readings (log
entry 52). -/
def Obligations.ClockFaultsAndDroop : Prop :=
  (∀ (d : Fin 8) (q : Fin 4) (s : State), s.powered = true → (s.quarter d q).faulted = false →
      let out (t : State) (jitter duty overrun : Bool) : Prop :=
        (t.quarter d q).faulted = true ∧ t.qRuns d q = false ∧
          (t.quarter d q).faultEv = some (if jitter || overrun then 0 else 1, q + b2n jitter * 4 + b2n duty * 8 + b2n overrun * 16) ∧
          (jitter || overrun → t.flag d (qBlk q) 0x018 0 = true) ∧ (duty → t.flag d (qBlk q) 0x018 1 = true) ∧
          t.run = s.run ∧ t.elog = s.elog ∧ t.mem = s.mem ∧ t.cores = s.cores
      (∀ n, s.holding d q = true → (s.quarter d q).holdAt = some n → n + 300 ≤ s.tick →
        ∃ t, exec (.holdOverrun d q) s = .next t ∧ out t false false true) ∧
      (∀ c : ClockSample,
        let jitter := if c.stretched then decide (2200 < c.period) else decide (c.period < 900) || decide (1100 < c.period)
        let duty := decide (c.duty < 400) || decide (600 < c.duty)
        (jitter || duty) = true → ∃ t, exec (.regionClockFault d q c) s = .next t ∧ out t jitter duty false)) ∧
  (∀ (d : Fin 8) (q : Fin 4) (s : State) (cause syn : Nat),
      ((s.quarter d q).faultEv = none → s.sampleFault d q = s) ∧
      ((s.quarter d q).faultEv = some (cause, syn) → s.run = .ready → s.flag 24 elogBlk 0x184 0 = false → s.elog.length < 4096 →
        syn < 2 ^ 128 →
        let t := s.sampleFault d q
        t.run = .quiesced ∧ (t.quarter d q).faultEv = none ∧ (t.quarter d q).faulted = (s.quarter d q).faulted ∧
          t.fld 24 elogBlk 0x184 1 2 = 1 ∧ t.fld 24 elogBlk 0x184 3 8 = 2 ^ d.val ∧ t.logged d (qBlk q) 2 3 2 cause syn ∧ t.mem = s.mem ∧
          t.cores = s.cores)) ∧
  (∀ (d : Fin 8) (q : Fin 4) (s : State),
      let x := s.quarter d q
      (∀ e : Fin 9, s.powered = true → s.qRuns d q = true → 0 < e.val → (∀ r ∈ s.duesOf d q, s.phaseNow d q < r.1) →
        ∃ t, exec (.periodStretch d q e) s = .next t ∧ (t.quarter d q).cycle = x.cycle + 1 ∧ (t.quarter d q).periods = x.periods + 1 ∧
          (t.quarter d q).slipDebt = x.slipDebt + 8 + e ∧
          (t.quarter d q).k = (if (x.cycle + 1) / 64 = x.cycle / 64 then x.k else x.kNext) ∧ t.droopFlag d q = true ∧
          t.pair d (qBlk q) 0x130 = (s.pair d (qBlk q) 0x130 + 1) % 2 ^ 64 ∧ (t.quarter d q).unstretched = 0 ∧
          (16 < ((true :: x.recent).take 64).countP (· == true) → t.droopLim d q = true) ∧ t.curPt d q = s.curPt d q ∧ keepsData s t) ∧
      (s.qRuns d q = true → s.droopFlag d q = true → 64 ≤ x.unstretched →
        ∃ t, exec (.droopFlagClear d q) s = .next t ∧ t.droopFlag d q = false ∧ t.droopLim d q = s.droopLim d q ∧
          regsBut [rkey d (qBlk q) 0x108] s t ∧ onlyRegs s t) ∧
      (s.qRuns d q = true → s.droopLim d q = true → 256 ≤ x.unstretched →
        ∃ t, exec (.droopLimitRelease d q) s = .next t ∧ t.droopLim d q = false ∧ t.droopFlag d q = s.droopFlag d q ∧
          regsBut [rkey d (qBlk q) 0x108] s t ∧ onlyRegs s t) ∧
      (∀ n, x.deferFrom = some n → n + 100000 ≤ s.tick →
        ∃ t, exec (.opChangeStalled d q) s = .next t ∧ t.flag d (qBlk q) 0x11C 0 = true ∧ t.pendValid d q = s.pendValid d q ∧
          regsBut [rkey d (qBlk q) 0x11C] s t ∧ onlyRegs s t) ∧
      (∀ v : W32, v.getLsbD 0 = true → s.inReset = false →
        ∃ t, exec (.slipMaxClr d q v) s = .next t ∧ t.fld d (qBlk q) 0x140 0 16 = 0 ∧ regsBut [rkey d (qBlk q) 0x140] s t ∧ onlyRegs s t))

/-- The tick generator: a load is refused and flagged while a program is loaded; else it, and a phase correction, wait for the next tick, in which the
counter takes the value written to `TICK.SET`, and the correction is added to what remains unless the sum would leave ±1,000,000 ns; without an
adjustment for 2^28 ticks the generator is in holdover (R269, R270, R276). That a correction out of range is ignored, and that corrections go in
the order of their writes, are the model's readings (log entry 51). -/
def Obligations.TickGeneratorRules : Prop :=
  (∀ (s : State),
    let set (off : Nat) : Nat := ((Sparse.get noStage s.staged (rkey 24 2 off)).getD (s.rg 24 2 off)).toNat
    (s.tickGen.setNext = true →
      s.takeTickWrites.tick = set 0x120 + set 0x124 * 2 ^ 32 ∧ s.takeTickWrites.tickGen.setNext = false ∧ s.takeTickWrites.mem = s.mem ∧
        s.takeTickWrites.cores = s.cores ∧
        ∀ d st : Nat, { s.takeTickWrites.station d st with left := [] } = { s.station d st with left := [] }) ∧
    (∀ n : Int, s.tickGen.setNext = false → s.tickGen.phases = [n] →
      let z := (s.rg 24 2 0x118).toInt + n
      let t := s.takeTickWrites
      t.tick = s.tick ∧ t.tickGen.phases = [] ∧ keepsData s t ∧
        (z ≤ 1000000 → -1000000 ≤ z → (t.rg 24 2 0x118).toInt = z ∧ t.flag 24 2 0x10C 2 = decide (z ≠ 0)) ∧
        (z < -1000000 ∨ 1000000 < z → t.rg 24 2 0x118 = s.rg 24 2 0x118 ∧ t.flag 24 2 0x10C 2 = s.flag 24 2 0x10C 2))) ∧
  ∀ (s : State), s.inReset = false →
    (∀ v : W32, v.getLsbD 1 = true → s.programLoaded = true →
      ∃ t, exec (.tickSet v) s = .next t ∧ t.tick = s.tick ∧ t.flag 24 2 0x10C 1 = true ∧ t.tickGen = s.tickGen ∧
        t.quarters = s.quarters ∧ keepsData s t) ∧
    (∀ v : W32, v.getLsbD 1 = true → s.programLoaded = false →
      ∃ t, exec (.tickSet v) s = .next t ∧ t.tick = s.tick ∧ t.tickGen = { s.tickGen with setNext := true } ∧ t.quarters = s.quarters ∧
        keepsData s t) ∧
    (∀ v : W32, ∃ t, exec (.adjPhase v) s = .next t ∧ t.tickGen.phases = s.tickGen.phases ++ [v.toInt] ∧ t.tickGen.sinceAdj = 0 ∧
      t.regs = s.regs ∧ t.tick = s.tick ∧ keepsData s t) ∧
    (s.flag 24 2 0x108 0 = true → 2 ^ 28 ≤ s.tickGen.sinceAdj →
      ∃ t, exec .holdover s = .next t ∧ t.flag 24 2 0x108 0 = false ∧ t.flag 24 2 0x10C 0 = true ∧ t.tick = s.tick ∧
        regsBut [rkey 24 2 0x108, rkey 24 2 0x10C] s t ∧ onlyRegs s t)

/-! ## Power -/

/-- The regulator alert: its first sample sets every k_d to 1, carries every quarter that runs to S0 with its point pending, takes back a region hold
that began in the same tick (R272), and is recorded; a later sample with no source starts the clear interval once and one with a source ends it,
which is another rising edge; after 100,000 ticks a release takes every quarter out of it, and an earlier release is counted and has no other
effect (R268, R295, R296). Conversion stops above 60 V, below 44 V for 100 µs and above 155 A for 10 µs, with no block ready and the management
port down; a tick's sensors show in their registers, and a trip records the tick's causes and quiesces the module until a warm or cold reset
(R278, R279, R298, R300, R407). What a trip records, and that an early release has no other effect, are the model's readings (log entry 54). -/
def Obligations.AlertsAndTrips : Prop :=
  (∀ (s : State), s.run = .ready →
      (∀ f : SupplySample, s.alertSources f ≠ 0 → s.alertOn = false → s.elog.length < 4096 →
        ∃ t, exec (.regulatorAlert f) s = .next t ∧ t.alertOn = true ∧ (∀ d : Fin 8, t.kd d = 1) ∧
          (∀ (d : Fin 8) (q : Fin 4), t.alerted d q = true) ∧
          (∀ (d : Fin 8) (q : Fin 4), s.qRuns d q = true → t.curPt d q = 0 ∧
            (s.curPt d q ≠ 0 → s.pendValid d q = false → t.pendValid d q = true ∧ t.pendPt d q = s.curPt d q)) ∧
          (∀ (d : Fin 8) (q : Fin 4), (s.quarter d q).before.isSome = true → (s.quarter d q).holdAt = some s.tick →
            s.holding d q = true → (s.quarter d q).faulted = false →
            t.holding d q = false ∧ t.pendValid d q = true ∧ t.pendPt d q = s.pendPt d q ∧ t.curPt d q = 0) ∧
          t.pair 24 0 0x190 = (s.pair 24 0 0x190 + 1) % 2 ^ 64 ∧ t.logged 24 0 0 1 0 0x7F (s.alertSources f) ∧ keepsData s t) ∧
      (∀ f : SupplySample, s.alertOn = true → s.alertSources f = 0 →
        ∃ t, exec (.alertSourceChange f) s = .next t ∧ t.alertOn = true ∧ t.gov.srcNow = 0 ∧
          t.gov.clearAt = some (match s.gov.clearAt with | some n => n | none => s.tick) ∧ keepsData s t) ∧
      (∀ f : SupplySample, s.alertOn = true → s.alertSources f ≠ 0 →
        ∃ t, exec (.alertSourceChange f) s = .next t ∧ t.alertOn = true ∧ t.gov.srcNow = s.alertSources f ∧ t.gov.clearAt = none ∧
          (s.gov.srcNow = 0 → s.elog.length < 4096 →
            t.pair 24 0 0x190 = (s.pair 24 0 0x190 + 1) % 2 ^ 64 ∧ t.logged 24 0 0 1 0 0x7F (s.alertSources f)) ∧ keepsData s t) ∧
      (s.clearDone = true →
        ∃ t, exec .alertClearIntervalEnd s = .next t ∧ t.fld 24 0 0x18C 0 17 = 100000 ∧ regsBut [rkey 24 0 0x18C] s t ∧ onlyRegs s t) ∧
      (∀ v : W32, v.getLsbD 7 = true → s.clearDone = true →
        ∃ t, exec (.alertRelease v) s = .next t ∧ t.alertOn = false ∧ (∀ (d : Fin 8) (q : Fin 4), t.alerted d q = false) ∧
          t.gov.clearAt = none ∧ keepsData s t) ∧
      (∀ v : W32, v.getLsbD 7 = true → s.alertOn = true → s.clearDone = false →
        ∃ t, exec (.alertRelease v) s = .next t ∧ t.alertOn = true ∧
          t.fld 24 0 0x188 8 8 = min 255 (s.fld 24 0 0x188 8 8 + 1) ∧ regsBut [rkey 24 0 0x188] s t ∧ keepsData s t)) ∧
  (∀ (s : State),
      let off (t : State) : Prop := t.run = .unpowered ∧ t.ready = 0 ∧ t.rg 24 3 0x100 = 0
      (∀ mv, 60000 < mv → ∃ t, exec (.vinOver mv) s = .next t ∧ off t) ∧
      (∀ mv n, mv < 44000 → 10000 ≤ n → ∃ t, exec (.powerLoss mv n) s = .next t ∧ off t) ∧
      (∀ ma n, 155000 < ma → 1000 ≤ n → ∃ t, exec (.overcurrentStop ma n) s = .next t ∧ off t) ∧
      (∀ f : SensorSample, s.powered = true →
        ∃ t, exec (.trip f) s = .next t ∧ t.gov.sensors = f ∧ t.mem = s.mem ∧ t.cores = s.cores ∧
          ∀ d : Fin 8, t.fld 24 0 (0x160 + 4 * d) 0 8 = min 255 (dieTj f d)) ∧
      (∀ f : SensorSample,
        let hot := (f.junction ++ f.sapwood).find? fun p => decide (105 ≤ p.2)
        let causes := b2n hot.isSome + b2n (decide (45 < f.inlet) || decide (45 < f.carrier) || decide (f.carrierOhms < 1450) ||
          decide (28700 < f.carrierOhms)) * 2 + b2n (f.leakTwice || f.wet) * 4
        s.run = .ready → causes ≠ 0 → s.fld 24 0 0x1B8 0 3 = 0 → s.flag 24 elogBlk 0x184 0 = false → s.elog.length < 4096 →
        ∃ t, exec (.trip f) s = .next t ∧ t.run = .quiesced ∧ t.fld 24 0 0x1B8 0 3 = causes ∧ t.fld 24 elogBlk 0x184 1 2 = 2 ∧
          (match hot with
            | some p => t.logged p.1 0xFFF 2 2 2 0x7F causes ∧ t.fld 24 0 0x1B8 3 5 = p.1 % 32
            | none => t.logged 24 0 2 2 2 0x7F causes) ∧ t.mem = s.mem ∧ t.cores = s.cores))

/-- The Governors' steps stay within their ranges: of the mean power as a fraction, the issue budget falls in proportion above the cap and never below
8, rises by at least 1 and never above 512 at or below it, and takes a mean below 1 W as 1 W; and a thermal ceiling stays from 1 to 64, falling at 95 °C and rising only below 93 °C (R285,
R299). -/
def Obligations.GovernorStepsStayInRange : Prop :=
  (∀ k p c, 8 ≤ k → k ≤ 512 → 8 ≤ updateK k p c ∧ updateK k p c ≤ 512) ∧
  (∀ k w n c, n ≤ w → c * n < w → updateK k (w, n) c = max 8 (k * (c * n) / w)) ∧
  (∀ k w n c, n ≤ w → w ≤ c * n → k < 512 → k < updateK k (w, n) c) ∧ (∀ k w n c, w < n → updateK k (w, n) c = updateK k (1, 1) c) ∧
  (∀ h tj, 1 ≤ h → h ≤ 64 → 1 ≤ updateCeil h tj ∧ updateCeil h tj ≤ 64) ∧
  (∀ h tj, 95 ≤ tj → 1 < h → updateCeil h tj < h) ∧ (∀ h, updateCeil h 93 = h ∧ updateCeil h 94 = h) ∧
  (∀ h tj, tj < 93 → h ≤ 64 → h ≤ updateCeil h tj)

/-- At each period boundary the Governors take in the window's measurements and compute; the results take effect 500 ticks later unless an alert holds
every k_d at 1; a cap is clamped to 2,000 to 6,000 W; a cap unmet for 200 periods, a failed pair and missing results are shown, and missing
results raise the alert and quiesce the module (R281, R282, R283, R285, R286, R287, R292). How means, shares and ceilings are rounded and kept,
and the syndrome of missing results, are the model's readings (log entries 53 and 54). -/
def Obligations.GovernorsControl : Prop :=
  ∀ (s : State), s.run = .ready →
    (s.tick % 10000 = 0 → s.gov.alive0 = true → s.alertOn = false →
      let tj := if s.gov.hot = [] then (List.range 8).map s.tjOf else s.gov.hot
      ∃ t, exec .governorPeriod s = .next t ∧
        t.fld 24 0 0x128 0 10 = updateK (s.fld 24 0 0x128 0 10) s.gov.meanPower (t.fld 24 0 0x108 0 13) ∧
        t.fld 24 0 0x114 0 16 = min 65535 (s.gov.meanPower.1 / s.gov.meanPower.2) ∧
        (∀ d : Fin 8, t.fld 24 0 (0x160 + 4 * d) 8 7 = updateCeil (s.fld 24 0 (0x160 + 4 * d) 8 7) (tj.getD d 0)) ∧ t.gov.powN = 0 ∧
        t.gov.missed = 0 ∧ t.gov.nextK.isSome = true ∧ t.gov.nextAt = s.tick ∧ (∀ d : Fin 8, t.kd d = s.kd d) ∧ keepsData s t) ∧
    (s.tick % 10000 = 0 → s.gov.alive0 = false → s.gov.alive1 = false →
      ∃ t, exec .governorPeriod s = .next t ∧ t.gov.missed = s.gov.missed + 1 ∧ t.gov.nextK = none ∧ keepsData s t) ∧
    (∀ ks, s.gov.nextK = some ks → s.gov.nextAt + 500 ≤ s.tick → s.gov.nextPts = [] → s.alertOn = false →
      ∃ t, exec .governorResultsEffect s = .next t ∧ (∀ d : Fin 8, t.kd d = ks.getD d 1 % 128) ∧ t.gov.nextK = none ∧
        regsBut [rkey 24 0 0x130, rkey 24 0 0x134] s t ∧ keepsData s t) ∧
    (∀ ks, s.gov.nextK = some ks → s.gov.nextAt + 500 ≤ s.tick → s.alertOn = true →
      ∃ t, exec .governorResultsEffect s = .next t ∧ (∀ d : Fin 8, t.kd d = s.kd d) ∧ t.gov.nextK = none ∧ keepsData s t) ∧
    (s.tick % 100000 = 0 →
      ∃ t, exec .shareUpdate s = .next t ∧ t.gov.waitCyc = [] ∧ t.gov.coreCyc = [] ∧
        t.gov.waitN = (if s.tick % 1000000 = 0 then 0 else s.gov.waitN + 8) ∧
        (∀ d : Fin 8, let cyc := Sparse.get nat0 s.gov.coreCyc d
          0 < cyc → t.fld 24 0 (0x140 + 4 * d) 0 16 = min 65535 (min cyc (Sparse.get nat0 s.gov.waitCyc d) * 65536 / cyc)) ∧ keepsData s t) ∧
    (200 ≤ s.gov.unmet → ∃ t, exec .capUnmet s = .next t ∧ t.flag 24 0 0x110 1 = true ∧ regsBut [rkey 24 0 0x110] s t ∧ onlyRegs s t) ∧
    (∀ v : W32, let w := v.toNat % 2 ^ 13
      ∃ t, exec (.govCapWrite v) s = .next t ∧ (t.stagedOr 24 0 0x104).toNat % 2 ^ 13 = max 2000 (min 6000 w) ∧
        t.rg 24 0 0x104 = s.rg 24 0 0x104 ∧ t.flag 24 0 0x110 0 = (s.flag 24 0 0x110 0 || decide (w < 2000 ∨ 6000 < w)) ∧ keepsData s t) ∧
    (∀ g : Fin 2, (if g.val = 0 then s.gov.alive0 else s.gov.alive1) = true → s.elog.length < 4096 →
      ∃ t, exec (.govFail g) s = .next t ∧ (if g.val = 0 then t.gov.alive0 else t.gov.alive1) = false ∧
        (if g.val = 0 then t.gov.alive1 = s.gov.alive1 else t.gov.alive0 = s.gov.alive0) ∧ t.flag 24 0 0x110 5 = true ∧
        t.logged (24 + g) 0 1 0 0 0x7F 0 ∧ t.run = .ready ∧ keepsData s t) ∧
    (3 ≤ s.gov.missed → bitOf s.gov.srcNow 5 = false → s.elog.length + 1 < 4096 → s.alertOn = false →
      s.flag 24 elogBlk 0x184 0 = false →
      ∃ t, exec .governorMissing s = .next t ∧ t.run = .quiesced ∧ t.alertOn = true ∧ t.logged 24 0 2 1 2 0x7F 32 ∧ t.mem = s.mem) ∧
    (3 ≤ s.gov.missed → bitOf s.gov.srcNow 5 = false → s.elog.length < 4096 → s.alertOn = true → s.flag 24 elogBlk 0x184 0 = false →
      ∃ t, exec .governorMissing s = .next t ∧ t.run = .quiesced ∧ t.gov.srcNow = s.gov.srcNow ||| 32 ∧ t.gov.clearAt = none ∧
        t.logged 24 0 2 1 2 0x7F 32 ∧ t.mem = s.mem)

/-- Power samples and the exchange: the input power is taken every 100 ticks, and in the measurement window for its means; a status is sent to the
endpoint of every other member that the rank table names, and kept; a status that is well formed replaces its member's; with all or some of the
members' statuses lacking a member gives up its rise and says so (R283, R293, R294). What counts as a missing status is the model's reading (log
entry 53). -/
def Obligations.PowerIsExchanged : Prop :=
  ∀ (s : State), s.run = .ready →
    (∀ f : PowerFacts, s.tick % 100 = 0 → s.tick % 10000 < 500 →
      exec (.powerSample f) s = .next { s with gov := { s.gov with sample := f.power } }) ∧
    (∀ f : PowerFacts, s.tick % 100 = 0 → 500 ≤ s.tick % 10000 →
      exec (.powerSample f) s = .next { s with gov := { s.gov with
        sample := f.power, powSum := s.gov.powSum + f.power, vinSum := s.gov.vinSum + f.vin, iinSum := s.gov.iinSum + f.iin
        powN := s.gov.powN + 1 } }) ∧
    (s.exchanging = true → s.tick % 1000000 = 10000 →
      let me := s.fld 24 0 0x1B0 4 12
      let c : CapStatus := ⟨lastInterval s.tick, me, s.gov.lastWait, s.fld 24 0 0x104 0 13, s.gov.delta⟩
      ∃ t, exec .capStatusSend s = .next t ∧ t.gov.statuses = (s.gov.statuses.filter fun x => x.rank != me) ++ [c] ∧ t.mem = s.mem ∧
        ∀ r : Nat, r ≤ s.fld 24 0 0x1B0 0 4 → r ≠ me →
          ∃ j ∈ (t.engine 0).jobs, ∃ x m, j.spans = [x] ∧ x.addr = s.pair 24 0 0x1A8 % 2 ^ 48 + 256 * r ∧ x.bytes = 32 ∧
            j.act = .send r m ∧ m.body = .ctrl 1 (BitVec.ofNat 256 c.bits)) ∧
    (∀ (r : Nat) (m : HctMsg) (x : SpanData) (rest : List SpanData), x.ok = true →
      s.ceAct 0 (.send r m) (x :: rest) = s.hctSend 0 r 0 { m with dest := x.data }) ∧
    (∀ w rest c, (s.net 0).ctrl = w :: rest → s.exchanging = true → s.readStatus w = some c →
      exec .capStatus s = .next { s.setNet 0 { s.net 0 with ctrl := rest } with
        gov := { s.gov with statuses := (s.gov.statuses.filter fun x => x.rank != c.rank) ++ [c] } }) ∧
    (∀ w rest, (s.net 0).ctrl = w :: rest → s.readStatus w = none →
      exec .capStatus s = .next (s.setNet 0 { s.net 0 with ctrl := rest })) ∧
    (s.exchanging = true → s.tick % 1000000 = 500000 →
      ((List.range (s.fld 24 0 0x1B0 0 4 + 1)).filterMap fun r =>
        s.gov.statuses.find? fun c => c.rank == r && c.interval == lastInterval s.tick).length ≤ s.fld 24 0 0x1B0 0 4 →
      ∃ t, exec .exchangeTargets s = .next t ∧ t.gov.delta = min s.gov.delta 0 ∧ t.gov.targets = [] ∧ t.gov.pendingCut = none ∧
        t.flag 24 0 0x110 4 = true ∧ keepsData s t) ∧
    (s.exchanging = true → s.tick % 1000000 = 500000 → s.gov.targets = [] →
      let n := s.fld 24 0 0x1B0 0 4 + 1
      let sts := (List.range n).filterMap fun r => s.gov.statuses.find? fun c => c.rank == r && c.interval == lastInterval s.tick
      sts.length = n →
      ∃ t, exec .exchangeTargets s = .next t ∧ t.gov.targets = exchangeTargets sts ∧ t.gov.delta = s.gov.delta ∧
        t.gov.targetsOf = s.tick / 1000000 ∧ keepsData s t)

/-! ## The network -/

/-- A received frame is handled by the first row of Table 13.3 that applies: a bad FCS is counted and goes no further; a PFC frame of the port's
priority is kept for its step; a frame for another address is dropped, and so is a packet for this endpoint whose checksum is bad; HCT data for
this endpoint reaches the collective engine in PSN order, RoCEv2 waits for its step, and any other frame goes to the host's ring (R331, R332,
R333, R336, R337). A pause holds the port's transmissions for its quanta and a quantum of 0 ends it; a host frame with a good header leaves on its
port and is counted, one with a bad header sets `HDR_BAD` and is recorded (R332, R333, R334). How room in the receive buffer is counted is the
model's choice (log entry 21). What a dropped frame counts, and how the ranks of the module are known, are its readings (log entries 55 and 109). -/
def Obligations.FramesAreHandled : Prop :=
  (∀ (p : Fin 104) (f g : FrameIn) (s : State), PortReceives s p →
      let z := portDie p
      let i := portBlk p
      let d := portLathe p
      let mine : Prop := f.fcsOk = true ∧ s.flag z i 0x104 2 = false ∧ (f.dst.toNat = s.portMac p ∨ f.dst.toNat = broadcastMac)
      (f.fcsOk = false →
        ∃ t, exec (.frameReceive p f g) s = .next t ∧ t.pair z i 0x140 = (s.pair z i 0x140 + 1) % 2 ^ 64 ∧
          regsBut [rkey z i 0x140, rkey z i 0x144, rkey z i 0x148, rkey z i 0x14C, rkey z i 0x150, rkey z i 0x154] s t ∧
          t.out = s.out ∧ t.nets = s.nets ∧ keepsData s t) ∧
      (∀ qs q, f.fcsOk = true → f.body = .pfc qs → s.flag z i 0x104 1 = true →
        (qs.find? fun q => q.1 == s.fld (fpeDie d) fpeBlk 0x104 22 3) = some q →
        ∃ t, exec (.frameReceive p f g) s = .next t ∧ (t.port p).pfcIn = (s.port p).pfcIn ++ [q.2] ∧ t.out = s.out ∧ keepsData s t) ∧
      (f.fcsOk = true → (∀ qs, f.body ≠ .pfc qs) → f.dst.toNat ≠ s.portMac p → f.dst.toNat ≠ broadcastMac →
        ∃ t, exec (.frameReceive p f g) s = .next t ∧ t.pair z i 0x158 = (s.pair z i 0x158 + 1) % 2 ^ 64 ∧
          t.pair z i 0x138 = (s.pair z i 0x138 + 1) % 2 ^ 64 ∧ t.out = s.out ∧ t.nets = s.nets ∧ keepsData s t) ∧
      (∀ dst v4 x, mine → f.body = .udp dst v4 true (s.fld (fpeDie d) fpeBlk 0x104 0 16) (.hct x) → s.isEndpoint d dst v4 = true →
        let ms := x.msgs
        x.crc = hctCrc x.hdr.toNat (.data ms) → x.version = 1 → x.type = 0 → s.rankHere d x = true → x.dstCe = d → x.count = ms.length →
        0 < ms.length → ms.length ≤ 8 →
        s.hasRoom p (hctSize x) = true → ((s.net d).rxFlow x).low % 2 ^ 32 = x.psn → ((s.net d).rxFlow x).beyond = [] →
        ∃ t, exec (.frameReceive p f g) s = .next t ∧
          (t.engine d).inbox = (s.engine d).inbox ++ ms.map (fun m => ⟨m, x.srcRank, x.srcCe, p⟩) ∧
          ((t.net d).rxFlow x).low = ((s.net d).rxFlow x).low + 1 ∧ t.mem = s.mem ∧ t.cores = s.cores) ∧
      (∀ dst v4 x, mine → f.body = .udp dst v4 true 4791 (.roce x) → s.isEndpoint d dst v4 = true → x.icrcOk = true → x.qpn < 1024 →
        s.fld (fpeDie d) fpeBlk 0x104 0 16 ≠ 4791 → s.hasRoom p (roceSize x) = true →
        ∃ t, exec (.frameReceive p f g) s = .next t ∧
          (t.net d).roce = (s.net d).roce ++ [{ pkt := x, port := p, stamp := s.rxStamp p f.frac, ecn := f.ecn }] ∧ keepsData s t) ∧
      (∀ dst v4, mine → f.body = .ip dst v4 false → s.isEndpoint d dst v4 = true →
        ∃ t, exec (.frameReceive p f g) s = .next t ∧ t.pair z i 0x158 = (s.pair z i 0x158 + 1) % 2 ^ 64 ∧ t.out = s.out ∧ t.nets = s.nets ∧
          keepsData s t) ∧
      (∀ sum : Bool, mine → f.body = .ptp sum ∨ (f.body = .other ∧ sum = true) → s.hrxFits (s.hostOf d) f.len = true →
        ∃ t, exec (.frameReceive p f g) s = .next t ∧
          t.out = s.out ++ [.hostRecord (s.hostOf d) p f.len (s.rxStamp p f.frac) false sum f.ecn 0] ∧ t.nets = s.nets ∧
          (s.WaitsTold → t.cores = s.cores))) ∧
  ((∀ (p : Fin 104) (s : State) q rest, (s.port p).pfcIn = q :: rest → 0 < q →
      ∃ t, exec (.pfcFrame p) s = .next t ∧ (t.port p).pausedTo = some (s.tick + pauseTicks q) ∧ (t.port p).pfcIn = rest ∧
        t.flag (portDie p) (portBlk p) 0x120 6 = true ∧ t.out = s.out ∧ keepsData s t) ∧
    (∀ (p : Fin 104) (s : State) rest, (s.port p).pfcIn = 0 :: rest → (s.port p).txq = [] →
      ∃ t, exec (.pfcFrame p) s = .next t ∧ (t.port p).pausedTo = none ∧ (t.port p).pfcIn = rest ∧
        t.flag (portDie p) (portBlk p) 0x120 6 = false ∧ keepsData s t) ∧
    (∀ (d : Fin 8) (s : State) (h : HostTile) (frac p n tag : Nat), PortReceives s p →
      s.hostHeader d h.hdr.toNat = some (p, n, false, tag) →
      ∃ t, exec (.hostFrame d (some h) frac) s = .next t ∧
        t.out = s.out ++ [.frame p none none none (.host n (h.frame % 2 ^ (8 * n)))] ∧
        t.pair (portDie p) (portBlk p) 0x130 = (s.pair (portDie p) (portBlk p) 0x130 + 1) % 2 ^ 64 ∧ keepsData s t) ∧
    (∀ (d : Fin 8) (s : State) (h : HostTile) (frac : Nat), s.run = .ready → s.hostHeader d h.hdr.toNat = none → s.elog.length < 4096 →
      ∃ t, exec (.hostFrame d (some h) frac) s = .next t ∧ t.flag (fpeDie d) fpeBlk 0x018 3 = true ∧
        t.logged (fpeDie d) fpeBlk 2 0 1 3 0 ∧ t.out = s.out ∧ keepsData s t))

/-- HCT: an ACK releases the packets that it covers; a flow that owes one sends it and starts its count again; a packet whose timeout has run out is
sent again on another entropy value; a flow whose window is full, or whose packets so far have not gone at its rate, sends nothing; after the
timeout of its 8th retry the flow is fatal and its messages are gone; an idle flow leaves the table; 10 µs without a mark raise the rate up to its
ceiling (R337, R338, R339, R340). How a flow keeps its rate is the model's choice (log entry 93), and what an acknowledgement, a fatal flow and an
evicted one leave is its reading (log entry 57). -/
def Obligations.FlowsAreReliable : Prop :=
  ∀ (d ce : Fin 8) (rank : Nat) (s : State), s.run = .ready →
    let i := fpeBlk
    let z := fpeDie d
    (∀ a rest f, (s.net d).acks = a :: rest → a.rank = rank → a.ce = ce → s.txFlow d rank ce = some f → a.marked = 0 →
      (∀ g ∈ (s.net d).tx, g.waiting = []) → (∀ k ∈ f.unacked, a.covers k.psn = true) →
      ∃ t, exec (.hctAck d) s = .next t ∧ t.txFlow d rank ce = some { f with unacked := [], used := s.tick } ∧ (t.net d).acks = rest ∧
        (s.flag (portDie a.port) (portBlk a.port) 0x104 1 = false → (s.port a.port).pausing = none → t.regs = s.regs ∧ t.out = s.out) ∧
        keepsData s t) ∧
    ((∀ g ∈ (s.net d).tx, 256 ≤ g.unacked.length ∨ (s.tick + 1) * 10000 ≤ g.paidTo) → s.pumpAll d = s) ∧
    (∀ f, ((s.net d).rx.find? fun f => f.is rank ce) = some f → 0 < f.pend → (8 ≤ f.pend ∨ f.oldest + 200 ≤ s.tick) →
      ∃ t, exec (.hctAckSend d rank ce) s = .next t ∧
        ((t.net d).rx.find? fun f => f.is rank ce) = some { f with pend := 0, all := 0, marked := 0, turn := f.turn + 1, used := s.tick } ∧
        t.pair z i 0x1A0 = (s.pair z i 0x1A0 + 1) % 2 ^ 64 ∧ keepsData s t) ∧
    (∀ f k, s.txFlow d rank ce = some f →
      (f.unacked.find? fun k => decide (k.retries < 8) && decide (k.first + retryAt (k.retries + 1) ≤ s.tick)) = some k →
      ∃ t g k', exec (.hctRetransmitTimeout d rank ce) s = .next t ∧ t.txFlow d rank ce = some g ∧ k' ∈ g.unacked ∧ k'.psn = k.psn ∧
        k'.retries = k.retries + 1 ∧ k'.body = k.body ∧ k'.entropy ≠ k.entropy ∧ Sparse.get nat0 g.resting k.entropy = s.tick + 100000 ∧
        t.pair z i 0x1A8 = (s.pair z i 0x1A8 + 1) % 2 ^ 64 ∧ keepsData s t) ∧
    (∀ f k, s.txFlow d rank ce = some f → k ∈ f.unacked → k.retries = 8 → k.first + retryAt 9 ≤ s.tick → s.elog.length < 4096 →
      ∃ t g, exec (.flowFatal d rank ce) s = .next t ∧ t.txFlow d rank ce = some g ∧ g.unacked = [] ∧ g.waiting = [] ∧
        t.flag z i 0x018 0 = true ∧ t.logged z i 2 6 1 0 (rank % 4096 + ce.val * 2 ^ 12) ∧ keepsData s t) ∧
    (∀ f, (s.net d).tx = [f] → f.is rank ce = true → f.unacked = [] → f.waiting = [] → f.used + 10000000 ≤ s.tick →
      ∃ t, exec (.flowEvict d rank ce) s = .next t ∧ (t.net d).tx = [] ∧ t.pair z i 0x1D8 = (s.pair z i 0x1D8 + 1) % 2 ^ 64 ∧
        keepsData s t) ∧
    (∀ f, s.txFlow d rank ce = some f → f.calmFrom + 1000 ≤ s.tick →
      let step := s.fld z i 0x108 11 8 * (if 5 ≤ f.calm then 4 else 1)
      ∃ t g, exec (.ccIncrease d rank ce) s = .next t ∧ t.txFlow d rank ce = some g ∧ g.calm = f.calm + 1 ∧
        (if 1300 * f.rateDen < f.rateNum + step * f.rateDen then g.rateNum = 1300 ∧ g.rateDen = 1
          else g.rateNum = f.rateNum + step * f.rateDen ∧ g.rateDen = f.rateDen) ∧ t.regs = s.regs ∧ keepsData s t)

/-- Requests to other modules: a block that a stream hands over goes behind the requests of its rank's queue pair, or fails where there is none; a
refused tile is answered in failure and recorded; a response completes its request, a NAK fails or repeats the queue pair's work, and an
unanswered request is repeated until its retries are exhausted; a stored entry is what the tables hold (R334, R341 to R343, R355). Sequence
numbers, NAKs and the state codes follow the RoCE family (log entry 25). What an unknown kind, a new context and a path MTU code mean is the
model's reading (log entry 60). -/
def Obligations.RemoteRequestsGoOut : Prop :=
  ∀ (d : Fin 8) (s : State), s.run = .ready →
    let z := fpeDie d
    (∀ r n, s.netTile d = none → (s.remotes.find? fun r => r.die == d.val && !r.sent) = some r → s.qpOfRank d r.rank = some n →
      ctxReady (s.qpCtx d n) = true →
      let count := max 1 (ceilDiv r.bytes (ctxMtu (s.qpCtx d n)))
      ∃ t, exec (.remoteRequest d) s = .next t ∧
        (t.qp d n).work = (s.qp d n).work ++
          [{ owner := .remote r.id, rank := r.rank, op := if r.write then 1 else 0, addr := r.addr, bytes := r.bytes
             data := if r.write then r.data else 0, bad := if r.write then r.poison else 0
             psn := (s.qp d n).sendPsn, count := count, bucket := r.bucket }] ∧
        (t.qp d n).sendPsn = ((s.qp d n).sendPsn + count) % 2 ^ 24 ∧ keepsData s t) ∧
    (∀ r, s.netTile d = none → (s.remotes.find? fun r => r.die == d.val && !r.sent) = some r → s.qpOfRank d r.rank = none →
      ∃ t, exec (.remoteRequest d) s = .next t ∧ (∀ x ∈ t.remotes, x.id = r.id → x.done = true ∧ x.failed = true) ∧
        t.qps = s.qps ∧ t.out = s.out ∧ keepsData s t) ∧
    (∀ lines u, s.netTile d = some (lines, u) → netKind lines = 1 → requestBad (lines.headD (0, 0)).1 = true → s.elog.length < 4096 →
      ∃ t, exec (.remoteRequest d) s = .next t ∧ t.flag z fpeBlk 0x018 3 = true ∧ t.logged z fpeBlk 2 0 1 3 0 ∧ t.qps = s.qps ∧
        t.mem = s.mem ∧ t.cores = s.cores) ∧
    (∀ lines u, s.netTile d = some (lines, u) → 4 ≤ netKind lines → exec (.remoteRequest d) s = .next (u.netHdrBad d)) ∧
    (∀ x more, (s.net d).roce = x :: more →
      let q := x.pkt.qpn % 1024
      ctxReady (s.qpCtx d q) = true →
      (∀ r data bad, x.pkt.body = .done data bad → (s.qp d q).work = [r] → r.op ≠ 0 → x.pkt.psn = (r.psn + r.count - 1) % 2 ^ 24 →
        ∃ t, exec (.roceResponse d) s = .next t ∧ (t.qp d q).work = [] ∧ (t.net d).roce = more ∧
          (∀ id, r.owner = .remote id → ∀ y ∈ t.remotes, y.id = id → y.done = true ∧ y.failed = false) ∧ t.mem = s.mem ∧
          t.cores = s.cores) ∧
      (∀ r data bad id, x.pkt.body = .done data bad → (s.qp d q).work = [r] → r.op = 0 → x.pkt.psn = (r.psn + r.got) % 2 ^ 24 →
        r.got + 1 = r.count → r.owner = .remote id →
        let m := ctxMtu (s.qpCtx d q)
        ∃ t, exec (.roceResponse d) s = .next t ∧ (t.qp d q).work = [] ∧
          (∀ y ∈ t.remotes, y.id = id → y.done = true ∧ y.failed = false ∧ y.data = r.data + data % 2 ^ (8 * m) * 2 ^ (8 * m * r.got)) ∧
          keepsData s t) ∧
      (x.pkt.body = .nak 2 →
        ∃ t, exec (.roceResponse d) s = .next t ∧ (t.qp d q).work = [] ∧ bitsOf (t.qpCtx d q) 0 2 = 2 ∧
          (∀ r ∈ (s.qp d q).work, ∀ id, r.owner = .remote id → ∀ y ∈ t.remotes, y.id = id → y.done = true ∧ y.failed = true) ∧
          t.mem = s.mem ∧ t.cores = s.cores) ∧
      (x.pkt.body = .nak 0 → (∀ r ∈ (s.qp d q).work, r.op ≠ 0) →
        ∃ t, exec (.roceResponse d) s = .next t ∧ (t.qp d q).work = (s.qp d q).work ∧ (t.qp d q).since = s.tick ∧ keepsData s t)) ∧
    (∀ (q : Fin 1024) r, (s.qp d q).work = [r] → ctxReady (s.qpCtx d q) = true →
      4096 * 2 ^ ctxT (s.qpCtx d q) ≤ 10 * (s.tick - (s.qp d q).since) →
      ((s.qp d q).retries < ctxRetries (s.qpCtx d q) →
        ∃ t, exec (.roceAckTimeout d q) s = .next t ∧ (t.qp d q).retries = (s.qp d q).retries + 1 ∧ (t.qp d q).since = s.tick ∧
          keepsData s t) ∧
      (ctxRetries (s.qpCtx d q) ≤ (s.qp d q).retries → s.elog.length < 4096 →
        ∃ t, exec (.roceAckTimeout d q) s = .next t ∧ (t.qp d q).work = [] ∧ bitsOf (t.qpCtx d q) 0 2 = 2 ∧
          t.flag z fpeBlk 0x018 1 = true ∧ (∃ syn, t.logged z fpeBlk 2 6 1 1 syn) ∧ t.mem = s.mem ∧ t.cores = s.cores)) ∧
    (∀ (e : Fin 4) (v : W32) k i, s.tblSel e = some (k, i) →
      let w := packBits 32 ((List.range 15).map (fun j => (s.rg (28 + e) fpeBlk (0x160 + 4 * j)).toNat) ++ [v.toNat])
      ∃ t, exec (.tblStore e v) s = .next t ∧ t.table e k i = (if k < 2 then s.windowEntry (entryKept k w) else entryKept k w) ∧
        (∀ e' k' i' : Nat, k' < 8 → i' < 8192 → (e' ≠ e.val ∨ k' ≠ k ∨ i' ≠ i) → t.table e' k' i' = s.table e' k' i') ∧
        (k = 2 ∨ k = 3 → (t.qp (2 * e + (k - 2)) i).sendPsn = bitsOf w 40 24 ∧ (t.qp (2 * e + (k - 2)) i).recvPsn = bitsOf w 64 24 ∧
          (t.qp (2 * e + (k - 2)) i).work = []) ∧
        t.mem = s.mem ∧ t.cores = s.cores)

/-- Requests of other modules are carried out in PSN order: a READ that key and windows grant goes to memory and is answered with what comes back, a
granted WRITE goes to memory with exactly its bytes and is acknowledged once they are stored, a repeated one is acknowledged and not stored again,
a SEND reaches the host's ring, and what is not granted is answered with a remote-access NAK and stops the queue pair. Answers of a queue pair
leave in the order of its requests, each once its accesses to memory have been served (R30, R226, R341, R342, R343). Sequence numbers and NAKs
follow the RoCE family (log entry 25). How a peer's accesses travel, and what an empty request is, are the model's choices (log entries 60 and
73). -/
def Obligations.IncomingRequestsAreServed : Prop :=
  (∀ (d : Fin 8) (s : State) (x : RocePkt) (more : List RocePkt), s.run = .ready → (s.net d).roce = x :: more →
    let q := x.pkt.qpn % 1024
    let c := s.qpCtx d q
    let place := psnPlace (s.qp d q).recvPsn x.pkt.psn
    let u := (s.setNet d { s.net d with roce := more }).pfcCheck x.port
    let out (cmd : Instr) : Prop :=
      ∃ t, exec cmd s = .next t ∧ bitsOf (t.qpCtx d q) 0 2 = 2 ∧ (t.qp d q).work = [] ∧
        t.pair (fpeDie d) fpeBlk 0x1C8 = (s.pair (fpeDie d) fpeBlk 0x1C8 + 1) % 2 ^ 64 ∧ t.mem = s.mem ∧ t.cores = s.cores
    ctxReady c = true →
    (∀ key a n, x.pkt.body = .read key a n → place = .next → key = s.roceKey d → s.granted d a n false = true → 0 < n →
      let ask := (u.expectPsn d q (ceilDiv n (ctxMtu c))).ask (peerReq d false 0 0) a n
      exec (.roceReadRequest d) s =
        .next (ask.2.peerAnswer d { qp := q, span := ask.1, psn := x.pkt.psn, code := 4, mtu := ctxMtu c })) ∧
    (∀ key a n, x.pkt.body = .read key a n → place = .next → (key ≠ s.roceKey d ∨ s.granted d a n false = false) →
      out (.roceReadRequest d)) ∧
    (∀ key a n data bad, x.pkt.body = .write key a n data bad → place = .next → key = s.roceKey d → s.granted d a n true = true → 0 < n →
      let k := ceilDiv n (ctxMtu c)
      let ask := (u.expectPsn d q k).ask (peerReq d true (data % 2 ^ (8 * n)) bad) a n
      exec (.roceWriteRequest d) s = .next (ask.2.peerAnswer d { qp := q, span := ask.1, psn := x.pkt.psn + k - 1, code := 3 })) ∧
    (∀ key a n data bad, x.pkt.body = .write key a n data bad → place = .again → key = s.roceKey d → s.granted d a n true = true → 0 < n →
      exec (.roceWriteRequest d) s =
        .next (u.peerAnswer d { qp := q, span := {}, psn := x.pkt.psn + ceilDiv n (ctxMtu c) - 1, code := 3 })) ∧
    (∀ key a n data bad, x.pkt.body = .write key a n data bad → place = .next → (key ≠ s.roceKey d ∨ s.granted d a n true = false) →
      out (.roceWriteRequest d)) ∧
    (∀ key a n data bad, x.pkt.body = .write key a n data bad → place = .gap →
      exec (.roceWriteRequest d) s = .next (u.sendNak d q (s.qp d q).recvPsn 0)) ∧
    (∀ n data, x.pkt.body = .send n data → place = .next → ctxHost c = true → s.hrxFits (s.hostOf d) n = true →
      ∃ t, exec (.roceSendRequest d) s = .next t ∧ .hostRecord (s.hostOf d) x.port n x.stamp x.sec true x.ecn 0 ∈ t.out ∧
        (t.qp d q).recvPsn = ((s.qp d q).recvPsn + max 1 (ceilDiv n (ctxMtu c))) % 2 ^ 24 ∧ t.tables = s.tables ∧
        (s.WaitsTold → t.cores = s.cores)) ∧
    (∀ n data, x.pkt.body = .send n data → place = .next → ctxHost c = true → s.hrxFits (s.hostOf d) n = false →
      exec (.roceSendRequest d) s = .next (u.sendNak d q x.pkt.psn 4)) ∧
    (∀ n data, x.pkt.body = .send n data → place = .next → ctxHost c = false →
      exec (.roceSendRequest d) s = .next ((u.expectPsn d q (max 1 (ceilDiv n (ctxMtu c)))).sendNak d q x.pkt.psn 1))) ∧
  (∀ (d : Fin 8) (s : State) (j : PeerJob),
    (∀ n, s.peerReady [] (s.net d).jobs = some j →
      let r := (s.setNet d { s.net d with jobs := (s.net d).jobs.erase j }).takeSpan j.span
      s.peerAdvance d (n + 1) = (r.2.sendAnswer d j r.1).peerAdvance d n) ∧
    (∀ x : SpanData, j.code = 4 → 0 < j.span.bytes → j.span.bytes ≤ j.mtu →
      let units := (j.span.addr + j.span.bytes - 1) / 64 - j.span.addr / 64 + 1
      s.sendAnswer d j x = s.toPeer d j.qp j.psn 4 j.span.addr j.span.bytes (x.data % 2 ^ (8 * j.span.bytes)) (x.poison % 2 ^ units)) ∧
    (∀ x : SpanData, j.code ≠ 4 → s.sendAnswer d j x = s.toPeer d j.qp j.psn j.code 0 0 0 0))

/-- Ring-native framing: a tile's transfers leave in blocks of up to four under the port's sequence numbers while credit and the replay buffer allow,
and a refused header is recorded; a block that is damaged or ahead asks for a replay, a repeated one is acknowledged again, and the next one goes
on to its far tag's station (R334, R348, R349). That replayed blocks count as sent ones, and that a block without credit stays unacknowledged, are
the model's readings (log entry 58). -/
def Obligations.NativeBlocksCross : Prop :=
  ∀ (s : State), s.run = .ready →
    (∀ (d : Fin 8) lines u, s.netTile d = some (lines, u) → netKind lines = 2 →
      let h := (lines.headD (0, 0)).1
      let p := bitsOf h 0 7
      let xs := lines.drop 1
      let x := s.port p
      let good : Prop := bitsOf h 7 57 = 0 ∧ bitsOf h 128 376 = 0 ∧ (portsOf d).contains p = true ∧ isBypass p = true ∧
        s.flag (portDie p) (bypBlk p) 0x104 1 = true
      (good → s.linkUp p = true → x.ringNative = true → s.portSends p = true → xs.length ≤ x.credit →
        x.unacked.length + ceilDiv xs.length 4 ≤ 256 → s.flag (portDie p) (portBlk p) 0x200 0 = false → x.heldBlocksTx = [] →
        let bs := nativeBlocks (bitsOf h 64 64) (xs.length + 1) x.txSeq 0 xs
        ∃ t, exec (.ringNativeSend d) s = .next t ∧ t.out = s.out ++ bs.map (fun b => .native p none b) ∧
          t.port p = { x with txSeq := x.txSeq + bs.length, unacked := x.unacked ++ bs, credit := x.credit - xs.length } ∧
          t.pair (portDie p) (bypBlk p) 0x120 = (s.pair (portDie p) (bypBlk p) 0x120 + bs.length) % 2 ^ 64 ∧ keepsData s t) ∧
      (good → x.credit < xs.length → exec (.ringNativeSend d) s = .next s) ∧
      (¬ good → exec (.ringNativeSend d) s = .next (u.netHdrBad d))) ∧
    (∀ (p : Fin 104) (b g : NativeIn), let x := s.port p
      s.linkUp p = true → x.ringNative = true → s.portSends p = true → s.flag (portDie p) (portBlk p) 0x200 0 = false → x.heldBlocksRx = [] →
      (b.crcOk = false ∨ x.rxSeq < b.seq →
        ∃ t, exec (.ringNativeBlock p b g) s = .next t ∧ t.out = s.out ++ [.nativeAck p x.rxSeq 0 true] ∧ t.port p = x ∧ t.regs = s.regs ∧
          keepsData s t) ∧
      (b.crcOk = true → b.seq < x.rxSeq → b.xfers ≠ [] →
        let v := (s.nativeAcked p b).emit (.nativeAck p x.rxSeq 0 false)
        ∃ t, exec (.ringNativeBlock p b g) s = .next t ∧ t.out = v.out ∧ t.port p = v.port p ∧ t.regs = v.regs ∧ keepsData s t) ∧
      (b.crcOk = true → b.seq = x.rxSeq → b.xfers ≠ [] → b.again = false →
        (coreOfStation (HopTag.ofBits b.farTag.toNat).retire).isSome = true →
        ∃ t, exec (.ringNativeBlock p b g) s = .next t ∧ t.out = s.out ++ [.nativeAck p (x.rxSeq + 1) b.xfers.length false] ∧
          t.port p = { x with unacked := x.unacked.filter fun y => decide (b.ack ≤ y.seq), credit := min 256 (x.credit + b.credit),
                              rxSeq := x.rxSeq + 1 } ∧
          t.pair (portDie p) (bypBlk p) 0x128 = (s.pair (portDie p) (bypBlk p) 0x128 + 1) % 2 ^ 64 ∧ keepsData s t))

/-- Ports and lasers: a trained port is up, a port whose far end frames otherwise stays down, loss of light or of the far end takes a port down and is
counted, and fault ordered sets that it receives are shown; a bay with lasers on the grid lights its ports, and a withdrawn or faulty one darkens
them and closes the elements that it feeds; dither keeps the locks, and a ring near its end of range is tuned again or given up (R327, R328, R338,
R346 to R348, R352). That a bay's low power and a ring's margin come with the command is the model's reading (log entries 58 and 111). -/
def Obligations.LinksFollowTheirLight : Prop :=
  ∀ (s : State), s.run = .ready →
    let dark (d : Nat) (t : State) : Prop := ∀ p ∈ portsOf d, t.flag (portDie p) (portBlk p) 0x120 0 = false
    let closing (t : State) (n : Nat) : Prop := t.flag (pairDie n) (pairBlk n) 0x108 0 = true ∨ t.flag (pairDie n) (pairBlk n) 0x108 1 = true
    (∀ (p : Fin 104) (f : TrainFacts), let z := portDie p
      let i := portBlk p
      isBypass p = false → s.canTrain p = true →
      (f.native = false →
        ∃ t, exec (.linkTrainComplete p f) s = .next t ∧ t.flag z i 0x120 0 = true ∧ t.flag z i 0x120 4 = false ∧
          (t.port p).ringNative = false ∧ regsBut [rkey z i 0x120] s t ∧ t.out = s.out ∧ keepsData s t) ∧
      (f.native = true →
        ∃ t, exec (.linkTrainComplete p f) s = .next t ∧ t.flag z i 0x120 0 = false ∧ t.flag z i 0x120 4 = true ∧
          regsBut [rkey z i 0x120] s t ∧ t.out = s.out ∧ keepsData s t)) ∧
    (∀ p : Fin 104, let z := portDie p
      let i := portBlk p
      isBypass p = false → s.flag z i 0x120 0 = true →
      (∀ k, k = .light ∨ k = .farEnd →
        ∃ t, exec (.linkDown p k) s = .next t ∧ t.flag z i 0x120 0 = false ∧ (t.port p).txq = [] ∧
          t.flag z i 0x120 1 = (decide (k = .light) || s.flag z i 0x120 1) ∧ t.pair z i 0x160 = (s.pair z i 0x160 + 1) % 2 ^ 64 ∧
          regsBut [rkey z i 0x120, rkey z i 0x160, rkey z i 0x164] s t ∧ t.out = s.out ∧ keepsData s t) ∧
      (∀ l r, ∃ t, exec (.linkDown p (.faults l r)) s = .next t ∧ t.flag z i 0x120 0 = true ∧ t.flag z i 0x120 2 = l ∧
        t.flag z i 0x120 3 = r ∧ regsBut [rkey z i 0x120] s t ∧ onlyRegs s t)) ∧
    (∀ (d : Fin 8) (low : Bool), Sparse.get nat0 s.bays d = 0 →
      (∃ t, exec (.laserInsert d true low) s = .next t ∧ t.bayBit d 0 = true ∧ t.bayBit d 1 = true ∧ t.bayBit d 2 = false ∧ t.bayBit d 3 = low ∧
        (∀ p ∈ portsOf d, t.flag (portDie p) (portBlk p) 0x120 1 = false) ∧ keepsData s t) ∧
      (s.elog.length < 4096 →
        ∃ t, exec (.laserInsert d false low) s = .next t ∧ t.bayBit d 1 = false ∧ t.bayBit d 2 = true ∧ t.bayBit d 3 = low ∧ dark d t ∧
          t.flag (fpeDie d) fpeBlk 0x018 2 = true ∧ t.logged (fpeDie d) fpeBlk 1 6 0 2 0 ∧ keepsData s t)) ∧
    (∀ d : Fin 8, Sparse.get nat0 s.bays d ≠ 0 →
      ∃ t, exec (.laserRemove d) s = .next t ∧ Sparse.get nat0 t.bays d = 0 ∧ (∀ k < 4, t.bayBit d k = false) ∧ dark d t ∧
        (d.val % 2 = 0 → closing t d ∧ closing t (d + 1)) ∧ keepsData s t) ∧
    (∀ (d : Fin 8) (low : Bool), s.bayBit d 1 = true → s.elog.length < 4096 →
      ∃ t, exec (.laserFault d low) s = .next t ∧ t.bayBit d 1 = false ∧ t.bayBit d 2 = true ∧ t.bayBit d 3 = low ∧ dark d t ∧
        t.flag (fpeDie d) fpeBlk 0x018 2 = true ∧ t.logged (fpeDie d) fpeBlk 1 6 0 2 0 ∧
        (d.val % 2 = 0 → closing t d ∧ closing t (d + 1)) ∧ keepsData s t) ∧
    (∀ (p : Fin 104) (margin : W32) (m : Option W32), let z := portDie p
      let i := portBlk p
      s.bayBit (portLathe p) 1 = true → s.flag z i 0x120 5 = false →
      (nearEnd margin = false → exec (.ringDither p margin m) s = .next (s.setRg z i 0x124 margin)) ∧
      (∀ w, nearEnd margin = true → m = some w →
        ∃ t, exec (.ringDither p margin m) s = .next t ∧ t.rg z i 0x124 = w ∧ t.flag z i 0x120 0 = false ∧ t.flag z i 0x120 5 = false ∧
          t.pair z i 0x168 = (s.pair z i 0x168 + 1) % 2 ^ 64 ∧ keepsData s t) ∧
      (nearEnd margin = true → m = none → s.elog.length < 4096 →
        ∃ t, exec (.ringDither p margin m) s = .next t ∧ t.flag z i 0x120 0 = false ∧ t.flag z i 0x120 5 = true ∧
          t.logged z i 1 6 0 0x7F 0 ∧ keepsData s t))

/-- Bypass pairs: a pair that may be open begins to open, one that is open begins to close, and the element that has moved takes both of its ports
down and is counted; the latch handle closes every element (R346, R347, R425). The keys that a load takes become the secure association; a refused
transfer of a package link is counted and sent again; deliberate faults are armed only in a debug session (R321, R344, R351, R353, R389). When an
element opens again, and what a dropped transfer of a package link is, are the model's readings (log entries 58 and 59). -/
def Obligations.ElementsAndDeliberateFaults : Prop :=
  ∀ (s : State), s.run = .ready →
    (∀ n : Fin 8, let z := pairDie n
      let i := pairBlk n
      let down (t : State) : Prop := ∀ p ∈ pairPorts n, t.flag (portDie p) (portBlk p) 0x120 0 = false
      (s.flag z i 0x108 0 = true → s.mayOpen n = true →
        ∃ t, exec (.bypassOpen n) s = .next t ∧ t.flag z i 0x108 0 = true ∧ t.flag z i 0x108 1 = true ∧ t.flag z i 0x104 0 = true ∧
          regsBut [rkey z i 0x104, rkey z i 0x108] s t ∧ keepsData s t) ∧
      (s.flag z i 0x108 0 = false →
        ∃ t, exec (.bypassClose n) s = .next t ∧ t.flag z i 0x108 0 = false ∧ t.flag z i 0x108 1 = true ∧ t.flag z i 0x104 0 = false ∧
          regsBut [rkey z i 0x104, rkey z i 0x108] s t ∧ keepsData s t) ∧
      (s.flag z i 0x108 0 = true → s.flag z i 0x108 1 = true → s.flag z i 0x104 0 = true → s.mayOpen n = true →
        ∃ t, exec (.bypassElementSwitched n) s = .next t ∧ t.flag z i 0x108 0 = false ∧ t.flag z i 0x108 1 = false ∧ down t ∧
          t.pair z i 0x110 = (s.pair z i 0x110 + 1) % 2 ^ 64 ∧ keepsData s t) ∧
      (s.flag z i 0x108 0 = false → s.flag z i 0x108 1 = true → s.flag z i 0x104 0 = false ∨ s.mayOpen n = false →
        ∃ t, exec (.bypassElementSwitched n) s = .next t ∧ t.flag z i 0x108 0 = true ∧ t.flag z i 0x108 1 = false ∧ down t ∧
          t.pair z i 0x110 = (s.pair z i 0x110 + 1) % 2 ^ 64 ∧ keepsData s t)) ∧
    (∃ t, exec .latchOpen s = .next t ∧ t.latchOpen = true ∧
      (∀ n < 8, t.flag (pairDie n) (pairBlk n) 0x108 0 = true ∧ t.flag (pairDie n) (pairBlk n) 0x108 1 = false) ∧ keepsData s t) ∧
    exec .latchClose s = .next { s with latchOpen := false } ∧
    (∀ (p : Fin 104) (v : W32), v.getLsbD 2 = true →
      let k (off : Nat) : Nat := (Sparse.get (fun _ => (0 : W32)) (s.port p).keys off).toNat
      ∃ t sa, exec (.sakLoad p v) s = .next t ∧
        Sparse.get (fun _ => none) (if v.getLsbD 1 then (t.port p).txSa else (t.port p).rxSa) (b2n (v.getLsbD 0)) = some sa ∧
        sa.key = packBits 32 ((List.range 8).map fun j => k (0x190 + 4 * j)) ∧
        sa.salt = packBits 32 ((List.range 3).map fun j => k (0x1B0 + 4 * j)) ∧ sa.ssci = k 0x1BC ∧ sa.pn = 1 ∧
        t = { s with ports := t.ports }) ∧
    (∀ (d : Fin 8) (st : Fin 30), let y := s.station d st
      st.val ∈ linkStations → y.arrived ≠ [] → y.refusals + 1 < 16 →
      exec (.packageLinkRefuse d st) s = .next ((s.setStation d st { y with refusals := y.refusals + 1 }).bump d (stBlk st) 0x198 1)) ∧
    (∀ (d : Fin 8) (st : Fin 30), let y := s.station d st
      st.val ∈ linkStations → y.arrived ≠ [] → y.refusals + 1 = 16 → s.flag 24 elogBlk 0x184 0 = false → s.elog.length < 4096 →
      ∃ t, exec (.packageLinkRefuse d st) s = .next t ∧ t.run = .quiesced ∧ t.logged d (stBlk st) 2 6 2 0x7F 0 ∧
        t.fld 24 elogBlk 0x184 1 2 = 2 ∧ t.mem = s.mem) ∧
    (s.debugOpen = false → ∀ (d : Fin 8) (c : Fin 24) (p : Fin 104) (st : Fin 30) (v : W32),
      exec (.fppInj p v) s = .next s ∧ exec (.bedInj d st v) s = .next s ∧ exec (.gougeChkInj d c v) s = .next s ∧
        exec (.skewChkInj d c v) s = .next s) ∧
    (s.debugOpen = true → ∀ (d : Fin 8) (c : Fin 24) (p : Fin 104) (st : Fin 30) (v : W32),
      (∃ t, exec (.fppInj p v) s = .next t ∧ t.fld (portDie p) (portBlk p) 0x200 0 14 = v.toNat % 2 ^ 14 ∧
        regsBut [rkey (portDie p) (portBlk p) 0x200] s t ∧ onlyRegs s t) ∧
      (stationKind st ≠ 0 → ∃ t, exec (.bedInj d st v) s = .next t ∧ t.fld d (stBlk st) 0x180 0 14 = v.toNat % 2 ^ 14 ∧
        regsBut [rkey d (stBlk st) 0x180] s t ∧ onlyRegs s t) ∧
      (isGouge c = true → bitsOf v.toNat 2 2 = 1 ∨ bitsOf v.toNat 2 2 = 2 →
        ∃ t, exec (.gougeChkInj d c v) s = .next t ∧ (bitsOf v.toNat 0 2, bitsOf v.toNat 2 2) ∈ (t.core d c).inject ∧
          t = { s with cores := t.cores }) ∧
      (isSkew c = true → bitsOf v.toNat 4 2 = 1 ∨ bitsOf v.toNat 4 2 = 2 →
        ∃ t, exec (.skewChkInj d c v) s = .next t ∧ (bitsOf v.toNat 0 4, bitsOf v.toNat 4 2) ∈ (t.core d c).inject ∧
          t = { s with cores := t.cores }))

/-! ## The register bus, applies and snapshots -/

/-- A register write reaches its page if it is aligned, names a register view that takes writes and a page that exists: write-one bits clear or set,
RWI fields take effect, RW fields wait for an apply, read-only registers keep their values (R359, R360, R364, R366). Registers whose write does
more: host rings start again at their base, the watchdog is armed once and kicked, test access opens only in a debug session, a Headstock core's
access to memory becomes one request of the Control station or of its Tailstock, accesses that did not cross in 1,000 ticks end in their master's
fault, the image takes and adds mailbox entries in order (R391), and a watchdog that expires or a poisoned load of the kernel holds the module in
reset (R250, R362, R379, R380, R397, R400, R408, R420). The sizes of a Headstock's access are the model's reading (log entry 77). So is what its
image does with the mailboxes (log entry 66), and what a poisoned load records (log entry 64). -/
def Obligations.RegisterWritesTakeEffect : Prop :=
  (∀ (core : Fin 64) (a : RegAccess) (s : State), s.run = .ready →
      let n := a.addr.toNat
      let z := regDie n
      let i := regIndex n
      let v := BitVec.ofNat 32 a.value.toNat
      (regAligned n a.wide = false → exec (.registerWrite core a) s = .next (s.hsFaults core)) ∧
      (regAligned n a.wide = true → s.masterBusy core = true ∨ s.storeWaits n = true →
        exec (.registerWrite core a) s = .next (s.holdThrough core n a.wide a.value.toNat)) ∧
      (regAligned n a.wide = true → s.masterBusy core = false → regView n = 1 ∨ regView n = 3 →
        exec (.registerWrite core a) s = .next s) ∧
      (regAligned n a.wide = true → s.masterBusy core = false → (pageType z i).isNone = true → regView n = 0 →
        exec (.registerWrite core a) s = .next s) ∧
      (pageType z i = some .swc → regOff n = 0x100 → s.masterBusy core = false → regView n = 0 → a.wide = false →
        exec (.registerWrite core a) s = .next s) ∧
      (∀ p, pageType z i = some p → s.masterBusy core = false → regView n = 0 → a.wide = false → regAligned n false = true →
        (regOff n = 0x01C →
          ∃ t, exec (.registerWrite core a) s = .next t ∧ t.rg z i 0x01C = v ∧ regsBut [rkey z i 0x01C] s t ∧ t.staged = s.staged ∧
            keepsData s t) ∧
        (regOff n = 0x018 →
          ∃ t, exec (.registerWrite core a) s = .next t ∧ t.rg z i 0x018 = s.rg z i 0x018 &&& ~~~v ∧ regsBut [rkey z i 0x018] s t ∧
            t.staged = s.staged ∧ keepsData s t) ∧
        (regOff n = 0x00C →
          ∃ t, exec (.registerWrite core a) s = .next t ∧ t.rg z i 0x00C = s.rg z i 0x00C ||| (v &&& 3#32) ∧
            regsBut [rkey z i 0x00C] s t ∧ t.staged = s.staged ∧ keepsData s t) ∧
        (regOff n = 0x004 → ∃ t, exec (.registerWrite core a) s = .next t ∧ regsBut [] s t ∧ t.staged = s.staged ∧ keepsData s t) ∧
        (p = .gouge ∨ p = .skew → regOff n = 0x1C0 →
          ∃ t, exec (.registerWrite core a) s = .next t ∧ Sparse.get noStage t.staged (rkey z i 0x1C0) = some v ∧ regsBut [] s t ∧
            keepsData s t))) ∧
  (∀ (s : State), s.run = .ready →
      (∀ (hs : Fin 2) (r : Fin 3) (v : W32), let base := 0x140 + 0x20 * hs.val
        ∃ t, exec (.hrxBaseWrite hs r v) s = .next t ∧ t.rg 24 3 (base + 12) = 0 ∧ t.rg 24 3 (base + 16) = 0 ∧
          (let len := if r.val = 2 then 18 else 32; t.fld 24 3 (base + 4 * r) 0 len = v.toNat % 2 ^ len) ∧
          regsBut [rkey 24 3 (base + 4 * r), rkey 24 3 (base + 12), rkey 24 3 (base + 16)] s t ∧ onlyRegs s t) ∧
      (∀ period : BitVec 8, s.flag 24 5 0x18C 0 = false →
        ∃ t, exec (.wdogArm period) s = .next t ∧ t.flag 24 5 0x18C 0 = true ∧ t.fld 24 5 0x18C 1 8 = period.toNat ∧
          t.boot.kicked = s.tick ∧ regsBut [rkey 24 5 0x18C] s t ∧ keepsData s t) ∧
      (∀ period : BitVec 8, s.flag 24 5 0x18C 0 = true →
        ∃ t, exec (.wdogArm period) s = .next t ∧ regsBut [] s t ∧ t.boot = s.boot ∧ keepsData s t) ∧
      (∃ t, exec .wdogKick s = .next t ∧ t.boot = { s.boot with kicked := s.tick } ∧ regsBut [] s t ∧ keepsData s t) ∧
      (s.flag 24 5 0x18C 0 = true → s.boot.kicked + max 1 (s.fld 24 5 0x18C 1 8) * 10000000 ≤ s.tick → s.elog.length < 4096 →
        ∃ t, exec .wdogExpire s = .next t ∧ t.run = .held ∧ t.rg 24 3 0x100 = 0 ∧ t.logged 24 0xFFF 2 0 3 0x7F 0 ∧ keepsData s t) ∧
      (s.flag 24 5 0x18C 0 = false → exec .wdogExpire s = .next s) ∧
      (∀ v : W32, v.getLsbD 0 = true → s.debugOpen = true →
        ∃ t, exec (.jtagUnlock v) s = .next t ∧ t.flag 24 1 0x100 6 = true ∧ regsBut [rkey 24 1 0x100] s t ∧ onlyRegs s t) ∧
      (∀ v : W32, s.debugOpen = false → exec (.jtagUnlock v) s = .next s) ∧
      (∀ (core : Fin 64) (a : HsAccess), hsFormOk a = true → regionOf a.addr.toNat = .unmapped →
        exec (.headstockAccessFault core (.access a)) s = .next (s.hsFaults core)) ∧
      (∀ (core : Fin 64) (a : HsAccess) e, hsFormOk a = true → regionOf a.addr.toNat = .heartwood e →
        8 < a.bytes ∨ a.addr.toNat % 8 + a.bytes ≤ 8 →
        ∃ t r, exec (.headstockAccessFault core (.access a)) s = .next t ∧ t.reqs = s.reqs ++ [r] ∧ r.die = e ∧ r.requester = 36 ∧
          r.addr = a.addr.toNat ∧ r.write = a.store.isSome ∧ r.units = max 1 (a.bytes / 64) ∧ t.mem = s.mem ∧ t.out = s.out ∧
          (s.WaitsTold → t.cores = s.cores)) ∧
      (∀ (core : Fin 64) (a : HsAccess) e, hsFormOk a = true → regionOf a.addr.toNat = .heartwood e → a.bytes ≤ 8 →
        8 < a.addr.toNat % 8 + a.bytes →
        ∃ t r r', exec (.headstockAccessFault core (.access a)) s = .next t ∧ t.reqs = s.reqs ++ [r, r'] ∧ r.requester = 36 ∧
          r'.requester = 36 ∧ r.addr = a.addr.toNat ∧ r.bytes = 8 - a.addr.toNat % 8 ∧ r'.addr = a.addr.toNat + r.bytes ∧
          r.bytes + r'.bytes = a.bytes ∧ r.write = a.store.isSome ∧ r'.write = a.store.isSome ∧ t.mem = s.mem ∧ t.out = s.out) ∧
      (∀ (core : Fin 64) (a : HsAccess) h, hsFormOk a = true → regionOf a.addr.toNat = .sapwood h →
        8 < a.bytes ∨ a.addr.toNat % 8 + a.bytes ≤ 8 →
        ∃ t r, exec (.headstockAccessFault core (.access a)) s = .next t ∧ (t.tail h).queue = (s.tail h).queue ++ [r] ∧
          r.addr = a.addr.toNat ∧ r.write = a.store.isSome ∧ r.units = max 1 (a.bytes / 64) ∧ t = { s with tails := t.tails }) ∧
      (∀ (core : Fin 64) (a : BitVec 48), core.val % 32 < 30 → s.elog.length < 4096 →
        ∃ t, exec (.headstockAccessFault core (.poisonUser a)) s = .next t ∧ t.run = .ready ∧ t.out = s.out ++ [.hsFault core] ∧
          t.logged (24 + core.val / 32) 0xFFF 1 4 0 0x7F (a.toNat / 64 * 64 + 36 * 2 ^ 48) ∧ keepsData s t) ∧
      (∀ (core : Fin 64) (a : BitVec 48), s.elog.length < 4096 →
        ∃ t, exec (.headstockAccessFault core (.poisonKernel a)) s = .next t ∧ t.run = .held ∧ t.out = s.out ++ [.hsFault core] ∧
          t.logged (24 + core.val / 32) 0xFFF 2 4 3 0x7F (a.toNat / 64 * 64 + 36 * 2 ^ 48) ∧ keepsData s t) ∧
      (let timedOut (x : ThroughAcc) : Bool := s.throughWaits x.addr && decide (x.since + 1000 ≤ s.tick)
        ∃ t, exec .throughAccessTimeout s = .next t ∧ t.through = s.through.filter (fun x => !timedOut x) ∧
        (s.mgmt.work = none →
          t.out = s.out ++ ((s.through.filter timedOut).filter fun x => decide (x.master < 64)).map (fun x => .hsFault x.master)) ∧
        (∀ (d : Fin 8) (q h : Fin 4) a, s.mgmt.work = none → s.hartState d q h = 1 → (s.hart d q h).wait = some (.access a) →
          a.req = none → regionOf a.addr = .register → s.throughWaits (a.addr - regBase) = true → a.since + 1000 ≤ s.tick → t.hartState d q h = 3) ∧
        (s.mgmt.work = none → t.mem = s.mem)) ∧
      (∀ w st (a : RegAccess) rest x, s.mgmt.work = some w → w.left = (st, a) :: rest → s.session w.conn = some x → x.id = w.session →
        s.throughWaits a.addr.toNat = true → w.since + 1000 ≤ s.tick → rest = [] →
        (s.through.filter fun y => s.throughWaits y.addr && decide (y.since + 1000 ≤ s.tick)) = [] →
        ∃ t, exec .throughAccessTimeout s = .next t ∧ t.mgmt.work = none ∧
          t.out = s.out ++ [.hsFault 64, x.reply w.cmd w.status w.seq (if st then w.got else w.got ++ readBytes a 0)]) ∧
      (∀ (core : Fin 64) e rest, s.mgmt.inbox = e :: rest →
        exec (.headstockAccessFault core .mailTake) s =
          .next ({ s with mgmt := { s.mgmt with inbox := rest, taken := s.mgmt.taken + 1 } }.emit (.mail e.session e.bytes))) ∧
      (∀ (core : Fin 64) session bytes, bytes.length ≤ 4096 →
        (s.mgmt.outbox.length < 64 → exec (.headstockAccessFault core (.mailPut session bytes)) s =
          .next { s with mgmt := { s.mgmt with outbox := s.mgmt.outbox ++ [⟨session, bytes⟩] } }) ∧
        (64 ≤ s.mgmt.outbox.length → exec (.headstockAccessFault core (.mailPut session bytes)) s = .next s)))

/-- Writes of `APPLY` that have arrived are sampled at an edge as one strobe; the strobe covers every staged register of its groups, and no other,
when it is delivered, and what it covers takes effect together at the next edge where no quarter holds the page, and when the quarter resumes
where one does; locks only set (R366, R367, R369). A snapshot holds what every register of the set read at the edge of its tick; a clear puts the
set back to zero at the next edge; the shadow holds what reads of the blocks give (R361, R370, R371). At a tick edge the status record is built
from the tick and the module's state (R390). When a strobe is delivered and what it covers takes effect, and that a snapshot for a past tick
latches at the next edge, are the model's readings (log entries 51 and 61). -/
def Obligations.AppliesAndSnapshots : Prop :=
  ∀ (s : State), s.run = .ready →
    let key (z i off : Nat) (p : PageType) : Prop := pageType z i = some p ∧ i < 4096 ∧ off < 4096 ∧ isNatural p off = false
    let taken (u : State) (z i off : Nat) (p : PageType) (v : W32) : Prop :=
      u.rg z i off = mergeBits (accMask (regFields p off) fun a => a == .rw || (a == .rwl && !s.flag z i 0x00C 0)) (s.rg z i off) v ∧
        Sparse.get noStage u.covered (rkey z i off) = none ∧
        (s.flag z i 0x00C 0 = true → accMask (regFields p off) (· == .rwl) ≠ 0 → (Sparse.get noStage u.staged (rkey z i off)).isSome = true)
    (∀ v : W32, exec (.applyMask v) s = .next { s with applyReq := s.applyReq ||| v.toNat % 2 ^ 16 }) ∧
    (s.applyReq ≠ 0 → s.applyReq < 2 ^ 16 →
      let u := s.sampleApply
      u.applyReq = 0 ∧ u.applyDue = s.applyReq ∧ u.rg 24 4 0x108 = s.rg 24 4 0x108 + 1 ∧ u.pair 24 4 0x110 = s.tick % 2 ^ 64 ∧
        (∀ g < 16, u.flag 24 4 0x104 g = (s.flag 24 4 0x104 g || bitOf s.applyReq g)) ∧ u.staged = s.staged) ∧
    (s.Canonical → s.applyDue ≠ 0 →
      ∃ t, exec .applyStrobe s = .next t ∧ t.applyDue = 0 ∧ t.regs = s.regs ∧ keepsData s t ∧
        (∀ z i off p v, key z i off p → bitOf s.applyDue (s.groupOf z i) = true → Sparse.get noStage s.staged (rkey z i off) = some v →
          Sparse.get noStage t.covered (rkey z i off) = some v ∧ Sparse.get noStage t.staged (rkey z i off) = none ∧
            (rkey z i 0, s.groupOf z i, s.tick) ∈ t.strobed) ∧
        (∀ z i off p, key z i off p → bitOf s.applyDue (s.groupOf z i) = false →
          Sparse.get noStage t.covered (rkey z i off) = Sparse.get noStage s.covered (rkey z i off) ∧
            Sparse.get noStage t.staged (rkey z i off) = Sparse.get noStage s.staged (rkey z i off))) ∧
    (s.applyDue = 0 → exec .applyStrobe s = .next s) ∧
    (s.Canonical → ∀ z i off p v g n, key z i off p → Sparse.get noStage s.covered (rkey z i off) = some v →
      (rkey z i 0, g, n) ∈ s.strobed → n < s.tick →
      (s.pageRuns (rkey z i 0) = true → taken s.applyReady z i off p v) ∧
      (s.pageRuns (rkey z i 0) = false → s.applyReady.rg z i off = s.rg z i off ∧
        Sparse.get noStage s.applyReady.covered (rkey z i off) = some v) ∧
      (∀ d q, quarterOf z i = some (d, q) → taken (s.applyQuarter d q) z i off p v)) ∧
    (∀ (z : Fin 32) (i : Fin 128) p, pageType z i = some p →
      (∃ t, exec (.lock z i) s = .next t ∧ t.rg z i 0x00C = s.rg z i 0x00C ||| 1#32 ∧ regsBut [rkey z i 0x00C] s t ∧ onlyRegs s t) ∧
      (∃ t, exec (.grpLock z i) s = .next t ∧ t.rg z i 0x00C = s.rg z i 0x00C ||| 2#32 ∧ regsBut [rkey z i 0x00C] s t ∧
        onlyRegs s t) ∧
      (∀ v : W32, v.getLsbD 0 = true → p ≠ .gov → p ≠ .tick →
        ∃ t, exec (.cntClr z i v) s = .next t ∧ t = { s with cntClr := t.cntClr } ∧
          (∀ off, off < 4096 → inSnapSet p off = true → t.clearCounts.rg z i off = resetReg (rkey z i off)))) ∧
    (∀ v : W32,
      ∃ t, exec (.snapAtTick v) s = .next t ∧ t.rg 24 2 0x144 = v ∧ t.snapReq = s.snapReq ++ [t.pair 24 2 0x140] ∧ regsBut [rkey 24 2 0x144] s t ∧ keepsData s t) ∧
    (∀ l n, s.snapReq = l ++ [n] →
      let u := s.sampleArm
      u.snapReq = [] ∧ u.snapArmed = some (max n (s.tick + 1)) ∧ u.flag 24 2 0x148 0 = true ∧
        u.flag 24 2 0x148 1 = (s.flag 24 2 0x148 1 || s.snapArmed.isSome || decide (l ≠ []))) ∧
    (∀ n, s.Canonical → s.snapArmed = some n → n ≤ s.tick → s.snapEdge = none →
      ∃ t, exec .snapshotLatch s.snapAtEdge = .next t ∧ t.snapArmed = none ∧ t.snapEdge = none ∧ t.flag 24 2 0x148 0 = false ∧
        t.fld 24 2 0x14C 0 31 = (s.fld 24 2 0x14C 0 31 + 1) % 2 ^ 31 ∧
        (∀ z i off p, pageType z i = some p → i < 4096 → off < 4096 → p ≠ .tick → inSnapSet p off = true →
          t.readSnap z i off = s.rg (if p = .gov then 24 else z) i off) ∧
        regsBut [rkey 24 2 0x148, rkey 24 2 0x14C] s t ∧ keepsData s t) ∧
    (∀ n, s.snapArmed = some n → s.tick < n → s.snapAtEdge = s) ∧
    (s.snapEdge = none → exec .snapshotLatch s = .next s) ∧
    exec .shadowRefresh s = .next { s with shadow := s.view, wrote := [] } ∧
    (s.hsUp = true → s.buildStatus.mgmt.record = some s.statusRecord) ∧
    bitsOf s.statusRecord 0 64 = s.tick % 2 ^ 64 ∧ bitsOf s.statusRecord 64 2 = 1 ∧
    (∀ n, s.hsUp = true → s.mgmt.record = some n →
      ∃ t, exec .statusRecordBuild s = .next t ∧
        (∀ j < 64, (t.rg 24 mgmtBlk (0x800 + 4 * j)).toNat = n / 2 ^ (32 * j) % 2 ^ 32) ∧
        regsBut ((List.range 64).map fun j => rkey 24 mgmtBlk (0x800 + 4 * j)) s t ∧ onlyRegs s t)

/-! ## The management port -/

/-- Sessions: a connection opens one of at most four; HELLO names it and is refused while too many ENCAPs have failed; an ENCAP that
passes the checks grants the privilege that was asked for and any other is refused, counted and closed; a close, and 300 s without a
valid request, end a session. A fitted transceiver brings the port up, and outside a connection it answers address frames for its own addresses
alone (R383, R385, R386, R387, R393, R437). Identifiers count from 1 by the model's choice (log entry 23), and which addresses a configuration block
holds is what its operand says (log entry 63). -/
def Obligations.SessionsOpenAndEnd : Prop :=
  (∀ (s : State) (conn : Nat), s.mgmtUp = true → s.session conn = none → s.mgmt.sessions.length < 4 →
    ∃ t, exec (.mgmtConnect conn) s = .next t ∧ t.mgmt.sessions = s.mgmt.sessions ++ [{ conn := conn, lastAt := s.tick }] ∧
      t.out = s.out ∧ t.mem = s.mem ∧ t.fuses = s.fuses) ∧
  (∀ (s : State) (conn : Nat), s.mgmtUp = true → s.session conn = none → 4 ≤ s.mgmt.sessions.length →
    exec (.mgmtConnect conn) s = .next (s.emit (.closed conn))) ∧
  (∀ (s : State) (conn : Nat) x, s.session conn = some x →
    ∃ t, exec (.mgmtDisconnect conn) s = .next t ∧ t.session conn = none ∧ (∀ c, c ≠ conn → t.session c = s.session c) ∧
      t.out = s.out ∧ t.mem = s.mem ∧ t.fuses = s.fuses) ∧
  (∀ (s : State) (conn : Nat) x, s.session conn = some x → s.mgmtUp = true → x.lastAt + 300 * 10 ^ 8 ≤ s.tick →
    ∃ t, exec (.sessionTimeout conn) s = .next t ∧ t.session conn = none ∧ (∀ c, c ≠ conn → t.session c = s.session c) ∧
      t.out = s.out ++ [.closed conn] ∧ t.mem = s.mem ∧ t.fuses = s.fuses) ∧
  (∀ (s : State) (conn : Nat) x, s.session conn = some x → s.tick < x.lastAt + 300 * 10 ^ 8 ∨ s.mgmtUp = false →
    exec (.sessionTimeout conn) s = .next s) ∧
  (∀ (s : State) (r : MgmtReq) (nonce : BitVec 256) (want slot : Byte) x, s.mgmtUp = true → s.session r.conn = some x → x.priv = none →
    r.session = 0 → reqFormOk r = true → s.mgmt.helloFrom ≤ s.tick →
    ∃ t y payload, exec (.hello r nonce want slot) s = .next t ∧ t.session r.conn = some y ∧ y.id = s.mgmt.nextId ∧ y.priv = none ∧
      y.want = want.toNat ∧ y.slot = slot.toNat ∧ t.mgmt.nextId = s.mgmt.nextId + 1 ∧
      t.out = s.out ++ [.reply 0x01 0 s.mgmt.nextId r.seq payload none] ∧ payload.length = 32 + 4 + 8 + 1793 + 1280 + 1568 + 1280 ∧ t.regs = s.regs ∧ keepsData s t) ∧
  (∀ (s : State) (r : MgmtReq) (nonce : BitVec 256) (want slot : Byte) x, s.mgmtUp = true → s.session r.conn = some x → x.priv = none →
    r.session = 0 → reqFormOk r = true → s.tick < s.mgmt.helloFrom →
    ∃ t, exec (.hello r nonce want slot) s = .next t ∧ t.session r.conn = none ∧
      t.out = s.out ++ [.reply 0x01 4 0 r.seq [] none, .closed r.conn] ∧ t.mem = s.mem) ∧
  (∀ (s : State) (r : MgmtReq) (ct : KemText) (signed : Option (FalconKey × FalconSig)) x, s.mgmtUp = true →
    s.session r.conn = some x → x.priv = none → x.id ≠ 0 → r.session.toNat = x.id → reqFormOk r = true →
    let h := Config.shake256 (x.transcript ++ bytesOf 1568 ct.toNat ++ (match signed with | some p => keyBytes p.1 | none => []))
    let key := bytesOf 32 (Config.kemSecret s.mgmt.keyGen ct).toNat
    (∀ p un, s.encapCheck x h signed = some (p, un) →
      ∃ t y, exec (.encap r ct signed) s = .next t ∧ t.session r.conn = some y ∧ y.priv = some p ∧ y.unclaimed = un ∧ y.id = x.id ∧
        y.seq = x.seq ∧ y.kReq = Config.kmac 256 key (digestBytes h) labelReq ∧ y.kRsp = Config.kmac 256 key (digestBytes h) labelRsp ∧
        t.out = s.out ++ [y.reply 0x02 0 r.seq [BitVec.ofNat 8 p]] ∧ (p = 3 → t.debugOpen = true) ∧
        t.mem = s.mem ∧ t.fuses = s.fuses) ∧
    (s.encapCheck x h signed = none →
      ∃ t, exec (.encap r ct signed) s = .next t ∧ t.session r.conn = none ∧
        t.pair 24 mgmtBlk 0x110 = (s.pair 24 mgmtBlk 0x110 + 1) % 2 ^ 64 ∧
        t.out = s.out ++ [.reply 0x02 4 x.id r.seq [] none, .closed r.conn] ∧
        (8 ≤ (s.mgmt.refusals.filter fun n => decide (s.tick < n + 60 * 10 ^ 8)).length + 1 →
          t.mgmt.helloFrom = s.tick + 10 * 10 ^ 8) ∧ t.mem = s.mem ∧ t.fuses = s.fuses) ∧
    s.encapCheck x h none = (if s.claimed then none else some (0, true)) ∧
    (∀ key sig o, x.slot < 8 → s.slotOf x.slot = some o →
      (s.encapCheck x h (some (key, sig)) = some (x.want, false) ↔
        o.revoked = false ∧ o.digest = Config.shake256 (keyBytes key) ∧ Config.sigValid key (digestBytes h) sig = true ∧ x.want ≤ o.max ∧
          ¬ (x.want = 3 ∧ s.flag 24 1 0x100 2 = true)))) ∧
  (∀ (s : State) (media : Fin 4), s.hsUp = true → s.pins.cage = none →
    ∃ t, exec (.transceiverInsert media) s = .next t ∧ t.pins.cage = some media.val ∧ t.portIsUp = decide (media.val ≠ 0) ∧
      t.fld 24 mgmtBlk 0x100 2 2 = media ∧ t.mgmt = s.mgmt ∧ keepsData s t) ∧
  (∀ (s : State) (media : Fin 4), s.hsUp = false → s.pins.cage = none →
    exec (.transceiverInsert media) s = .next { s with pins := { s.pins with cage := some media.val } }) ∧
  (∀ s : State, s.hsUp = true →
    ∃ t, exec .transceiverRemove s = .next t ∧ t.pins.cage = none ∧ t.rg 24 mgmtBlk 0x100 = 0 ∧ t.mgmt = s.mgmt ∧ keepsData s t) ∧
  (∀ (s : State) (kind : Fin 4) (a : BitVec 128), s.portIsUp = true →
    (kind.val = 0 ∧ s.ownsV4 a = true) ∨ (kind.val = 1 ∧ s.ownsV6 a = true) ∨ (kind.val = 2 ∧ (s.ownsV4 a = true ∨ s.ownsV6 a = true)) →
    exec (.mgmtFrameReceive kind a) s = .next (s.emit (.answer s.mgmtMac kind a))) ∧
  (∀ (s : State) (kind : Fin 4) (a : BitVec 128), s.portIsUp = false ∨ kind.val = 3 ∨ (s.ownsV4 a = false ∧ s.ownsV6 a = false) →
    exec (.mgmtFrameReceive kind a) s = .next s) ∧
  (∀ (s : State) (a : BitVec 128), s.flash.config = none ∨ s.boot.responder = true →
    s.ownsV4 a = false ∧ s.ownsV6 a = (a == Config.linkLocal s.mgmtMac))

/-- A session's requests are answered in their order: with what they read, after what they write, or with the status of their refusal; one that is not
the next is discarded and counted, a repeated one is answered again and not executed again (R359, R367, R370, R384, R385, R388, R389, R390, R391,
R398). What a request that waits holds back, and what its discards and refusals answer, are the model's readings and choices (log entries 61, 62
and 63). -/
def Obligations.SessionCommandsAnswer : Prop :=
  ∀ (s : State) (r : MgmtReq) (x : Session),
    (Serves s r x 0x03 0 →
      ∃ t, exec (.closeSession r) s = .next t ∧ t.out = s.out ++ [x.reply 0x03 0 r.seq []] ∧ t.session r.conn = none ∧
        t.mem = s.mem ∧ t.fuses = s.fuses) ∧
    (Serves s r x 0x10 0 →
      ∃ t, exec (.statusCmd r) s = .next t ∧ replied s t r x 0x10 0 ((List.range 256).map s.statusByte) ∧ onlyMgmt s t) ∧
    (∀ l, Serves s r x 0x11 0 → l.length ≤ 512 →
      (∀ a ∈ l, regAligned a.addr.toNat a.wide = true ∧ s.loadWaits mgmtMaster a.addr.toNat = false) →
      ∃ t, exec (.regRead r l) s = .next t ∧
        replied s t r x 0x11 0 (l.flatMap fun a => bytesOf (if a.wide then 8 else 4) (s.busLoad a.addr.toNat a.wide)) ∧
        onlyMgmt s t) ∧
    (∀ (a : RegAccess) l, Serves s r x 0x11 0 → l.length < 512 → (∀ b ∈ a :: l, regAligned b.addr.toNat b.wide = true) →
      s.loadWaits mgmtMaster a.addr.toNat = true →
      ∃ t, exec (.regRead r (a :: l)) s = .next t ∧ t.out = s.out ∧ onlyMgmt s t ∧
        t.mgmt.work = some { conn := r.conn, session := x.id, cmd := 0x11, seq := r.seq, status := 0, left := (a :: l).map fun b => (false, b)
                             since := s.tick }) ∧
    (∀ a : RegAccess, Serves s r x 0x12 1 → a.wide = false → regAligned a.addr.toNat false = true → s.storeWaits a.addr.toNat = false →
      let bad := writeRefused (x.priv.getD 0) a.addr.toNat
      ∃ t, exec (.regWrite r [a]) s = .next t ∧ replied s t r x 0x12 (b2n bad) [] ∧
        (bad = false → t.regs = (s.busStores mgmtMaster a.addr.toNat false a.value.toNat).regs ∧
          t.staged = (s.busStores mgmtMaster a.addr.toNat false a.value.toNat).staged) ∧
        (bad = true → onlyMgmt s t)) ∧
    (∀ priv a, pageType (regDie a) (regIndex a) = some .root → writeRefused priv a = true) ∧
    (∀ priv a, priv < 2 → (pageType (regDie a) (regIndex a)).isSome = true → regOff a = 0x00C → writeRefused priv a = true) ∧
    (Serves s r x 0x13 0 → r.payload.length = 32 →
      let rep := bytesOf 192 (s.report (BitVec.ofNat 256 (ofBytes r.payload)))
      ∃ t, exec (.attest r) s = .next t ∧
        replied s t r x 0x13 0 (rep ++ signatureBytes (Config.identitySign (digestBytes (Config.shake256 rep)))) ∧ onlyMgmt s t) ∧
    (∀ seq n, Serves s r x 0x14 0 → n ≤ 128 →
      ∃ t, exec (.elogRead r seq n) s = .next t ∧
        replied s t r x 0x14 0 ((s.elog.filter fun y => decide (seq ≤ y.seq) && decide (y.seq < seq + n)).flatMap fun y =>
          bytesOf 32 y.bits) ∧ onlyMgmt s t) ∧
    (Serves s r x 0x20 1 → r.payload.length ≤ 4096 → s.mgmt.inbox.length < 64 →
      ∃ t, exec (.mboxPut r) s = .next t ∧ replied s t r x 0x20 0 [] ∧ t.mgmt.inbox = s.mgmt.inbox ++ [⟨x.id, r.payload⟩] ∧
        onlyMgmt s t) ∧
    (Serves s r x 0x20 1 → r.payload.length ≤ 4096 → 64 ≤ s.mgmt.inbox.length →
      ∃ t, exec (.mboxPut r) s = .next t ∧ replied s t r x 0x20 3 [] ∧ t.mgmt.inbox = s.mgmt.inbox ∧ onlyMgmt s t) ∧
    (∀ e, Serves s r x 0x21 0 → (s.mgmt.outbox.find? fun e => e.session == x.id || e.session == 0) = some e →
      ∃ t, exec (.mboxGet r) s = .next t ∧ replied s t r x 0x21 0 e.bytes ∧ t.mgmt.outbox = s.mgmt.outbox.erase e ∧ onlyMgmt s t) ∧
    (∀ n : W64, Serves s r x 0x30 1 →
      ∃ t, exec (.snapshotCmd r n) s = .next t ∧ replied s t r x 0x30 0 [] ∧ t.snapReq = s.snapReq ++ [n.toNat] ∧ t.pair 24 2 0x140 = n.toNat ∧
        t.sampleArm.snapArmed = some (max n.toNat (s.tick + 1)) ∧ keepsData s t) ∧
    (∀ v : W32, Serves s r x 0x31 1 →
      ∃ t, exec (.applyCmd r v) s = .next t ∧ replied s t r x 0x31 0 [] ∧ t.applyReq = s.applyReq ||| v.toNat % 2 ^ 16 ∧
        t.regs = s.regs ∧ keepsData s t) ∧
    (∀ v : W32, Serves s r x 0x32 1 →
      ∃ t, exec (.capSet r v) s = .next t ∧ replied s t r x 0x32 0 [] ∧
        (t.stagedOr 24 0 0x104).toNat % 2 ^ 13 = max 2000 (min 6000 (v.toNat % 2 ^ 13)) ∧ keepsData s t) ∧
    (∀ cmd : Byte, Serves s r x cmd.toNat 0 → cmd.toNat ∉ mgmtCodes →
      ∃ t, exec (.unknownCommand r cmd) s = .next t ∧ replied s t r x cmd.toNat 5 [] ∧ onlyMgmt s t) ∧
    (Serves s r x 0x20 0 → x.priv = some 0 →
      ∃ t, exec (.mboxPut r) s = .next t ∧ replied s t r x 0x20 1 [] ∧ t.mgmt.inbox = s.mgmt.inbox ∧ onlyMgmt s t) ∧
    (∀ e, s.mgmtUp = true → s.mgmt.work = none → s.session r.conn = some x → x.priv.isSome = true → r.session.toNat = x.id →
      r.tag = x.tagFor r 0x10 → reqFormOk r = true → r.seq = x.seq → x.cached = some e →
      ∃ t, exec (.statusCmd r) s = .next t ∧ t.out = s.out ++ [e] ∧
        t.session r.conn = some { x with discards := 0, lastAt := s.tick } ∧ onlyMgmt s t) ∧
    (s.mgmtUp = true → s.mgmt.work.isSome = true →
      exec (.statusCmd r) s = .next { s with mgmt := { s.mgmt with waiting := s.mgmt.waiting ++ [.statusCmd r] } }) ∧
    (s.mgmtUp = true → s.mgmt.work = none → s.session r.conn = some x → x.priv.isSome = true →
      r.tag ≠ x.tagFor r 0x10 ∨ 16384 < r.payload.length ∨ r.session.toNat ≠ x.id → x.discards < 15 →
      ∃ t, exec (.statusCmd r) s = .next t ∧ t.pair 24 mgmtBlk 0x118 = (s.pair 24 mgmtBlk 0x118 + 1) % 2 ^ 64 ∧
        t.session r.conn = some { x with discards := x.discards + 1 } ∧ t.out = s.out ∧ keepsData s t) ∧
    (s.mgmtUp = true → s.mgmt.work = none → s.session r.conn = some x → x.priv.isSome = true → r.tag ≠ x.tagFor r 0x10 → 15 ≤ x.discards →
      ∃ t, exec (.statusCmd r) s = .next t ∧ t.session r.conn = none ∧ t.out = s.out ++ [.closed r.conn] ∧ t.mem = s.mem ∧
        t.fuses = s.fuses)

/-- Commands of an owner change the fuses and the boot flash: slots are filled, revoked and claimed, the owner lock and the rollback index only rise,
copies and the configuration block are written; debug opens test access (R388, R392 to R395, R397). What the payload of a flash write holds, and
the answers to an empty slot and a claimed module, are the model's readings (log entries 63 and 65). -/
def Obligations.OwnerCommandsChangeFuses : Prop :=
  ∀ (s : State) (r : MgmtReq) (x : Session),
    (∀ k digest m, Serves s r x 0x50 2 → k < 8 → 0 < m → m ≤ 3 → s.slotOf k = none → s.fuses.ownerLock = false →
      ∃ t, exec (.slotEnrol r k digest m) s = .next t ∧ replied s t r x 0x50 0 [] ∧ t.slotOf k = some { digest := digest, max := m } ∧
        (∀ j, j ≠ k → t.slotOf j = s.slotOf j) ∧ t.fuses = { s.fuses with slots := t.fuses.slots } ∧ t.flash = s.flash ∧ t.mem = s.mem) ∧
    (∀ k digest m, Serves s r x 0x50 2 → k < 8 → 0 < m → m ≤ 3 → ((s.slotOf k).isSome = true ∨ s.fuses.ownerLock = true) →
      ∃ t, exec (.slotEnrol r k digest m) s = .next t ∧ replied s t r x 0x50 4 [] ∧ onlyMgmt s t) ∧
    (∀ k o, Serves s r x 0x51 2 → k < 8 → s.ownerLeft k = true → s.slotOf k = some o →
      ∃ t, exec (.slotRevoke r k) s = .next t ∧ replied s t r x 0x51 0 [] ∧ t.slotOf k = some { o with revoked := true } ∧
        (∀ j, j ≠ k → t.slotOf j = s.slotOf j) ∧ t.fuses = { s.fuses with slots := t.fuses.slots } ∧ t.flash = s.flash ∧ t.mem = s.mem) ∧
    (∀ k, Serves s r x 0x51 2 → s.ownerLeft k = false →
      ∃ t, exec (.slotRevoke r k) s = .next t ∧ replied s t r x 0x51 2 [] ∧ onlyMgmt s t) ∧
    (∀ digest m, Serves s r x 0x52 0 → s.claimed = false → m = 2 ∨ m = 3 →
      ∃ t, exec (.claim r digest m) s = .next t ∧ replied s t r x 0x52 0 [] ∧ t.slotOf 0 = some { digest := digest, max := m } ∧
        t.claimed = true ∧ t.flag 24 1 0x100 0 = true ∧ t.flash = s.flash ∧ t.mem = s.mem) ∧
    (∀ digest m, Serves s r x 0x52 0 → s.claimed = true →
      ∃ t, exec (.claim r digest m) s = .next t ∧ replied s t r x 0x52 4 [] ∧ onlyMgmt s t) ∧
    (∀ (b : ConfigBlock) o, Serves s r x 0x53 2 → b.bytes.length = 4096 → b.slot < 8 → s.slotOf b.slot = some o → o.revoked = false →
      o.digest = Config.shake256 (keyBytes b.key) → Config.sigValid b.key (digestBytes (Config.shake256 b.bytes)) b.sig = true →
      ∃ t, exec (.flashWrite r (.config 0x00010000#32 b)) s = .next t ∧ replied s t r x 0x53 0 [] ∧ t.flash = { s.flash with config := some b } ∧
        t.fuses = s.fuses ∧ t.mem = s.mem) ∧
    (∀ b : ConfigBlock, Serves s r x 0x53 2 → (b.slot < 8 → s.slotOf b.slot = none) →
      ∃ t, exec (.flashWrite r (.config 0x00010000#32 b)) s = .next t ∧ replied s t r x 0x53 2 [] ∧ onlyMgmt s t) ∧
    (∀ (b : Bool) (copy : StageCopy) (blow : Bool), Serves s r x 0x53 2 → copy.length + 4096 ≤ 2 ^ 25 → copy.image.length + 4096 ≤ 16384 →
      ∃ t, exec (.flashWrite r (.stage (if b then 0x02100000#32 else 0x00100000#32) copy blow none)) s = .next t ∧ replied s t r x 0x53 0 [] ∧
        t.flash = (if b then { s.flash with copyB := some copy } else { s.flash with copyA := some copy }) ∧
        t.fuses = { s.fuses with rollback := if blow then max s.fuses.rollback s.boot.index else s.fuses.rollback } ∧ t.mem = s.mem) ∧
    (∀ (noDebug : Bool), Serves s r x 0x54 2 →
      ∃ t, exec (.ownerLock r noDebug) s = .next t ∧ replied s t r x 0x54 0 [] ∧
        t.fuses = { s.fuses with ownerLock := true, debugDisable := s.fuses.debugDisable || noDebug } ∧ t.flag 24 1 0x100 1 = true ∧
        t.flash = s.flash ∧ t.mem = s.mem) ∧
    (Serves s r x 0x60 3 → s.debugOpen = true →
      ∃ t, exec (.jtagOpen r) s = .next t ∧ replied s t r x 0x60 0 [] ∧ t.flag 24 1 0x100 6 = true ∧ keepsData s t)

/-! ## Resets, start-up and the pins -/

/-- Full resets: an input above 48 V and not above 60 V starts an unpowered module at step 1, RESET_WARM after its reply and a released `RESET_N` at
step 2; a low level in one sample is ignored and in two holds every die. What a reset clears is at its reset value, the error log lives through a
warm reset, and fuses and boot flash through all; the recovery responder writes a verified copy A and restarts (R278, R396, R401, R402). What
memory reads as after a reset is the model's choice (log entry 6). What a full reset keeps of the surroundings is its reading (log entry 67). -/
def Obligations.ResetsRestart : Prop :=
  ∀ (s : State),
    (∀ mv, s.run = .unpowered → mv ≤ 48000 ∨ 60000 < mv → exec (.coldReset mv) s = .next s) ∧
    (∀ mv, s.run = .unpowered → 48000 < mv → mv ≤ 60000 →
      ∃ t, exec (.coldReset mv) s = .next t ∧ t.run = .startUp ∧ t.startStep = 0 ∧ t.tick = 0 ∧ t.job = none ∧ t.cores = [] ∧ t.parts = [] ∧
        t.mem = [] ∧ t.memPoison = [] ∧ t.elog = [] ∧ t.mgmt.sessions = [] ∧ t.flag 24 elogBlk 0x180 0 = true ∧ t.fuses = s.fuses ∧
        t.flash = s.flash ∧ t.pending = s.pending) ∧
    (∀ (r : MgmtReq) x, Serves s r x 0x41 2 →
      ∃ t, exec (.resetWarm r) s = .next t ∧ t.out = s.out ++ [x.reply 0x41 0 r.seq []] ∧ t.run = .startUp ∧ t.startStep = 1 ∧
        t.tick = s.tick ∧ t.job = none ∧ t.cores = [] ∧ t.parts = [] ∧ t.mem = [] ∧ t.mgmt.sessions = [] ∧ t.elog = s.elog ∧
        t.nextSeq = s.nextSeq ∧ t.flag 24 elogBlk 0x180 0 = false ∧ t.flag 24 elogBlk 0x180 2 = true ∧ t.fuses = s.fuses ∧
        t.flash = s.flash ∧ t.pending = s.pending) ∧
    (s.run ≠ .unpowered → s.pins.resetLow = false → ¬ (s.run = .startUp ∧ s.startStep = 0) →
      ∃ t, exec (.resetNAssert true) s = .next t ∧ t.run = .pinReset ∧ t.ready = 0 ∧ t.pins.resetLow = true ∧ t.rg 24 3 0x100 = 0 ∧
        t.job = none ∧ t.cores = [] ∧ t.parts = [] ∧ t.mgmt.sessions = [] ∧
        (∀ n < 8, t.flag (pairDie n) (pairBlk n) 0x108 0 = true ∨ t.flag (pairDie n) (pairBlk n) 0x108 1 = true) ∧
        t.elog = s.elog ∧ t.tick = s.tick ∧ t.fuses = s.fuses ∧ t.flash = s.flash) ∧
    exec (.resetNAssert false) s = .next s ∧
    (s.run = .startUp → s.startStep = 0 → s.pins.resetLow = false →
      exec (.resetNAssert true) s = .next { s with pins := { s.pins with resetLow := true } }) ∧
    (s.run = .pinReset → s.pins.resetLow = true →
      exec .resetNRelease s = .next { s with pins := { s.pins with resetLow := false }, run := .startUp, boot := { s.boot with stepAt := s.tick } }) ∧
    (∀ (r : MgmtReq) c, s.run = .recovery → s.portIsUp = true → (s.verifyCopy c).isSome = true →
      ∃ t, exec (.recoveryFlashWrite r c) s = .next t ∧ t.flash = { s.flash with copyA := some c } ∧ t.run = .startUp ∧ t.startStep = 1 ∧
        t.out = s.out ++ [.reply 0x53 0 0 r.seq [] none] ∧ t.fuses = s.fuses) ∧
    (∀ (r : MgmtReq) c, s.run = .recovery → s.portIsUp = true → s.verifyCopy c = none →
      exec (.recoveryFlashWrite r c) s = .next (s.emit (.closed r.conn)))

/-- Start-up runs its eight steps in order, one command for each, and ends Ready with every quarter at S6; a step that fails ends it with its row's
outcome, held, in the recovery responder or Quiesced, with its step recorded; a step past its time fails (R395, R405). Repairs beyond the spares
and points whose crossings exceed their budget fail or are lost (R234, R263); a cause of a trip that lasts quiesces the module again (R300); a low
`RESET_N` holds it after step 1 (R402). What a record of a failed step says, and that a step which completes late fails, are the model's readings
(log entries 64 and 68). -/
def Obligations.StartUpRunsItsSteps : Prop :=
  ∀ (s : State), s.run = .startUp →
    let sensed : List Nat := ([0x110, 0x180, 0x184] ++ (List.range 8).map fun d => 0x160 + 4 * d).map fun o => rkey 24 0 o
    let fine : Prop := tripCauses s.gov.sensors = 0 ∧ s.stepLate = false
    let at_ (t : State) (k : Nat) : Prop := t.run = .startUp ∧ t.startStep = k ∧ t.boot.stepAt = s.tick ∧ keepsData s t
    (s.startStep = 0 → s.pins.resetLow = false → fine →
      ∃ t, exec (.startupStepComplete {}) s = .next t ∧ at_ t 1 ∧ regsBut sensed s t) ∧
    (s.startStep = 0 → s.pins.resetLow = true → s.stepLate = false →
      ∃ t, exec (.startupStepComplete {}) s = .next t ∧ t.run = .pinReset ∧ t.ready = 0 ∧ t.startStep = 1 ∧ keepsData s t) ∧
    (∀ f : StartFacts, s.startStep = 0 → f.failed = true → s.elog.length < 4096 →
      ∃ t, exec (.startupStepComplete f) s = .next t ∧ t.run = .held ∧ t.logged 24 0xFFF 2 0 3 0x7F 1 ∧ keepsData s t) ∧
    (∀ (f : StartFacts) d n, s.startStep = 1 → fine → f.failed = false → s.bootCopy s.flash.copyA (f.shipped.getD 0 none) = some (d, n) →
      ∃ t, exec (.startupStepComplete f) s = .next t ∧ at_ t 2 ∧ t.boot.index = n ∧
        t.flag 24 1 0x100 4 = false ∧ t.flag 24 5 0x18C 0 = true) ∧
    (∀ (f : StartFacts), s.startStep = 1 → f.failed = false → s.stepLate = false → s.bootCopy s.flash.copyA (f.shipped.getD 0 none) = none →
      s.bootCopy s.flash.copyB (f.shipped.getD 1 none) = none → s.elog.length < 4096 →
      ∃ t, exec (.startupStepComplete f) s = .next t ∧ t.run = .recovery ∧ t.startStep = 1 ∧ t.flag 24 1 0x018 0 = true ∧
        t.flag 24 1 0x018 1 = true ∧ t.logged 24 1 2 0 0 0x7F 2 ∧ keepsData s t) ∧
    (∀ f : StartFacts, s.startStep = 2 → fine → f.failed = false → unrepairable f = none →
      ∃ t, exec (.startupStepComplete f) s = .next t ∧ at_ t 3 ∧
        (∀ (d : Fin 8) (c : Fin 24), t.rg d (hwcBlk c) 0x108 = repairWord f d c)) ∧
    (∀ (f : StartFacts) hd ch bank, s.startStep = 2 → unrepairable f = some (hd, ch, bank) → s.flag 24 elogBlk 0x184 0 = false →
      s.elog.length < 4096 →
      ∃ t syn, exec (.startupStepComplete f) s = .next t ∧ t.run = .quiesced ∧ t.logged hd (hwcBlk (coreOfChan ch)) 2 0 2 0x7F syn ∧
        syn % 2 ^ 16 = 3 ∧ t.mem = s.mem) ∧
    (s.startStep = 2 → s.stepLate = false → tripCauses s.gov.sensors ≠ 0 → s.fld 24 0 0x1B8 0 3 = 0 →
      ∃ t, exec (.startupStepComplete {}) s = .next t ∧ t.run = .quiesced ∧ t.fld 24 0 0x1B8 0 3 = tripCauses s.gov.sensors ∧ t.mem = s.mem) ∧
    (∀ f : StartFacts, s.startStep = 3 → fine → f.failed = false → f.linkBad = none →
      (∀ (d : Fin 8) (q : Fin 4), bitOf (lostPoints f (4 * d + q)) 6 = false) →
      ∃ t, exec (.startupStepComplete f) s = .next t ∧ at_ t 4 ∧
        (∀ (d : Fin 8) (q : Fin 4), t.rg d (qBlk q) 0x148 = marginOf f (4 * d + q) ∧
          t.fld d (qBlk q) 0x10C 0 8 = 255 - lostPoints f (4 * d + q))) ∧
    (∀ (f : StartFacts) (d : Fin 8) (q : Fin 4), s.startStep = 3 → bitOf (lostPoints f (4 * d + q)) 6 = true →
      s.flag 24 elogBlk 0x184 0 = false →
      ∃ t, exec (.startupStepComplete f) s = .next t ∧ t.run = .quiesced ∧ t.fld 24 elogBlk 0x184 1 2 = 2 ∧ t.mem = s.mem) ∧
    (s.startStep = 4 → fine →
      ∃ t, exec (.startupStepComplete {}) s = .next t ∧ at_ t 5 ∧ (∀ z, z = 26 ∨ z = 27 → t.fld z 0 0x100 4 4 = s.fld z 0 0x100 0 4)) ∧
    (∀ f : StartFacts, s.startStep = 4 → f.failed = true → s.flag 24 elogBlk 0x184 0 = false → s.elog.length < 4096 →
      ∃ t, exec (.startupStepComplete f) s = .next t ∧ t.run = .quiesced ∧ t.fld 24 elogBlk 0x184 1 2 = 2 ∧
        t.logged 26 0xFFF 2 0 2 0x7F 5 ∧ t.mem = s.mem) ∧
    (s.startStep = 5 → fine → s.boot.fruBad = false →
      ∃ t, exec (.startupStepComplete {}) s = .next t ∧ at_ t 6 ∧ (∀ p < 104, t.pair (portDie p) (portBlk p) 0x110 = macOf p)) ∧
    (s.startStep = 6 → fine → ∃ t, exec (.startupStepComplete {}) s = .next t ∧ at_ t 7 ∧ regsBut sensed s t) ∧
    (∀ (d : Fin 8) (c : Fin 24) (a : Fin 4), s.startStep = 6 → fine → isGouge c = true →
      ∃ t, exec (.startupStepComplete { badArrays := [(24 * d + c, 2 ^ a.val)] }) s = .next t ∧ at_ t 7 ∧
        t.fld d c 0x2B0 (3 * a) 3 = 4 ∧ t.fld d c 0x2B0 12 5 = 2 ^ a.val ∧ t.flag d c 0x2B0 17 = false ∧
        regsBut (rkey d c 0x2B0 :: sensed) s t) ∧
    (s.startStep = 7 → fine → s.alertOn = false →
      ∃ t, exec (.startupStepComplete {}) s = .next t ∧ t.run = .ready ∧ t.startStep = 8 ∧ t.ready = 2 ^ 32 - 1 ∧
        (∀ (d : Fin 8) (q : Fin 4), t.curPt d q = 6) ∧ keepsData s t) ∧
    (∀ f : StartFacts, s.stepLate = true → exec (.startupStepComplete f) s = exec (.startupStepComplete { f with failed := true }) s) ∧
    (∀ f : StartFacts, s.boot.stepAt + stepTicks (s.startStep + 1) < s.tick →
      exec (.startupStepTimeout f) s = exec (.startupStepComplete { f with failed := true }) s) ∧
    (∀ f : StartFacts, s.tick ≤ s.boot.stepAt + stepTicks (s.startStep + 1) → exec (.startupStepTimeout f) s = .next s)

/-- An engine reset: refused for an empty mask and before start-up is complete; else the job goes off every die and the masked dies are not ready; it
waits for the memory parts that are admitted, and at its end their cores are as at reset, their Heartwood is zero unless it was to be kept, and
they are ready at S6. It ends the Quiesced state where it is strong enough; one past its time brings the state about (R403, R404, R406, R410). In
which step the parts of an engine reset happen is the model's reading (log entry 69). -/
def Obligations.EngineResetsClearTheirDies : Prop :=
  ∀ (s : State),
    (∀ (r : MgmtReq) x (keep : Bool), Serves s r x 0x40 1 →
      ∃ t, exec (.resetEngine r 0#8 keep) s = .next t ∧ replied s t r x 0x40 2 [] ∧ onlyMgmt s t) ∧
    (∀ (r : MgmtReq) x (mask : BitVec 8) (keep : Bool), Serves s r x 0x40 1 → mask ≠ 0#8 → s.startStep < 8 →
      ∃ t, exec (.resetEngine r mask keep) s = .next t ∧ replied s t r x 0x40 3 [] ∧ onlyMgmt s t) ∧
    (∀ (r : MgmtReq) x (mask : BitVec 8) (keep : Bool), Serves s r x 0x40 1 → mask ≠ 0#8 → 8 ≤ s.startStep → s.engineReset = none →
      ∃ t, exec (.resetEngine r mask keep) s = .next t ∧ replied s t r x 0x40 0 [] ∧ t.job = none ∧
        t.engineReset = some ⟨mask.toNat, keep, s.tick⟩ ∧ (∀ d : Fin 8, mask.getLsbD d = true → t.ready.testBit d = false) ∧
        t.mem = s.mem ∧ t.fuses = s.fuses) ∧
    (∀ e, s.engineReset = some e → s.partsLeft e.mask = true → exec .engineResetComplete s = .next s) ∧
    (∀ e, s.engineReset = some e → (s.run = .ready ∨ s.run = .quiesced) → s.partsLeft e.mask = false → s.engineLate e = false →
      ∃ t, exec .engineResetComplete s = .next t ∧ t.engineReset = none ∧ t.ready = s.ready ||| e.mask ∧
        (∀ (d : Fin 8) (c : Fin 24), bitOf e.mask d = true → t.core d c = Core.initial 0) ∧
        (∀ (d : Fin 8) (c : Fin 24), bitOf e.mask d = false → t.core d c = s.core d c) ∧
        (e.keep = true → t.mem = s.mem) ∧
        (e.keep = false → ∀ a, a < 2 ^ 39 →
          Sparse.get byte0 t.mem a = if bitOf e.mask (a / 2 ^ 36) then 0 else Sparse.get byte0 s.mem a) ∧
        (s.run = .ready → s.alertOn = false → ∀ (d : Fin 8) (q : Fin 4), bitOf e.mask d = true → t.curPt d q = 6) ∧
        (s.run = .quiesced → s.fld 24 elogBlk 0x184 1 2 = 1 → s.fld 24 elogBlk 0x184 3 8 &&& e.mask = s.fld 24 elogBlk 0x184 3 8 →
          t.run = .ready) ∧
        (s.run = .quiesced → s.fld 24 elogBlk 0x184 1 2 ≠ 1 → t.run = .quiesced)) ∧
    (∀ e, s.engineReset = some e → e.tick + (if e.keep then 10000000 else 11000000) < s.tick → s.run = .ready →
      s.flag 24 elogBlk 0x184 0 = false → s.elog.length < 4096 →
      (s.partsLeft e.mask = false → exec .engineResetComplete s = exec .engineResetTimeout s) ∧
      ∃ t, exec .engineResetTimeout s = .next t ∧ t.run = .quiesced ∧ t.engineReset = none ∧ t.fld 24 elogBlk 0x184 1 2 = 2 ∧
        t.logged 24 0xFFF 2 0 2 0x7F 0 ∧ t.mem = s.mem)

/-- The carrier: the status target answers its static address in I2C mode and in I3C mode the one that SETDASA has assigned, while the module is
powered; it takes an offset and gives bytes of the record from there on, wrapping at 256; the FRU EEPROM is read always, and its check covers what
it says; what names no target is not acknowledged; the service lamp is lit in exactly three conditions (R434, R435, R436). The answers to another
length or address are the model's reading (log entry 71), and where the EEPROM's addresses wrap is taken from outside the spec (log entry 70). -/
def Obligations.CarrierReadsTheModule : Prop :=
  ∀ (s : State),
    let mine (bus : BusAddr) : Prop := s.run ≠ .unpowered ∧ (bus = .i2c 0x3C#7 ∨ ∃ a, bus = .i3c a ∧ s.pins.dynamic = some a)
    let nack : Out := .next (s.emit .busNack)
    (∀ a : BitVec 7, s.run ≠ .unpowered →
      exec (.setdasa 0x3C#7 a) s = .next ({ s with pins := { s.pins with dynamic := some a } }.emit (.bus []))) ∧
    (∀ a b : BitVec 7, s.run = .unpowered ∨ a ≠ 0x3C#7 → exec (.setdasa a b) s = nack) ∧
    (∀ bus (b : Byte), mine bus →
      exec (.statusTargetOffset bus [b]) s = .next ({ s with pins := { s.pins with offset := b.toNat } }.emit (.bus []))) ∧
    (∀ bus n, mine bus →
      exec (.statusTargetRead bus n) s = .next (s.emit (.bus ((List.range n).map fun i => s.statusByte ((s.pins.offset + i) % 256))))) ∧
    (∀ bus, ¬ mine bus → (∀ l, exec (.statusTargetOffset bus l) s = nack) ∧ (∀ n, exec (.statusTargetRead bus n) s = nack)) ∧
    (∀ bus l, l.length ≠ 1 → exec (.statusTargetOffset bus l) s = nack) ∧
    (∀ (off : BitVec 13) n,
      exec (.fruRead (.i2c 0x50#7) off n) s = .next (s.emit (.bus ((List.range n).map fun i => fruByte ((off.toNat + i) % 8192))))) ∧
    (∀ bus (off : BitVec 13) n, bus ≠ .i2c 0x50#7 → exec (.fruRead bus off n) s = nack) ∧
    (List.range 5).map fruByte = [0x48, 0x5A, 0x46, 0x52, 0x01] ∧
    packBits 8 ((List.range 4).map fun i => (fruByte (0xFC + i)).toNat) = crc32c ((List.range 0xFC).map fruByte) % 2 ^ 32 ∧
    (s.faultLed = true ↔ s.run = .quiesced ∨ s.run = .held ∨ s.run = .recovery)

/-! ## Numbers -/

/-- The residue of m × 2^e is ((m mod 15) × 2^(e mod 4)) mod 15, whichever m and e stand for the value; it is additive and
multiplicative; and adding or taking away a power of two changes it (R303). -/
def Obligations.ResiduesOfExactValues : Prop :=
  (∀ m e : Int, residueInt m e = (m % 15).toNat * 2 ^ (e % 4).toNat % 15) ∧
  (∀ (m e : Int) (k : Nat), residueInt (m * 2 ^ k) (e - k) = residueInt m e) ∧
  (∀ a b e : Int, residueInt (a + b) e = (residueInt a e + residueInt b e) % 15) ∧
  (∀ a b e f : Int, residueInt (a * b) (e + f) = residueInt a e * residueInt b f % 15) ∧
  (∀ (a e : Int) (j : Nat), residueInt (a + 2 ^ j) e ≠ residueInt a e ∧ residueInt (a - 2 ^ j) e ≠ residueInt a e)

/-- A comparison writes all ones to an element where it holds and zero where it does not, in each form of Table 8.7; in packed BF16 each
16-bit half is written this way (R218). -/
def Obligations.ComparisonsWriteMasks : Prop :=
  (∀ a b c : W32,
    fpForm 6 a b c = (if (f32 a).same (f32 b) then 0xFFFFFFFF#32 else 0) ∧ fpForm 7 a b c = (if (f32 a).lt (f32 b) then 0xFFFFFFFF#32 else 0) ∧
    fpForm 8 a b c = (if (f32 a).lt (f32 b) || (f32 a).same (f32 b) then 0xFFFFFFFF#32 else 0)) ∧
  (∀ (sat : Bool) (a b : W32),
    intForm sat 8 a b = (if a = b then 0xFFFFFFFF#32 else 0) ∧ intForm sat 9 a b = (if a.toInt < b.toInt then 0xFFFFFFFF#32 else 0)) ∧
  (∀ a b c : Nat,
    bfForm 6 a b c = (if (f32 (widen a)).same (f32 (widen b)) then 0xFFFF else 0) ∧
    bfForm 7 a b c = (if (f32 (widen a)).lt (f32 (widen b)) then 0xFFFF else 0) ∧
    bfForm 8 a b c = (if (f32 (widen a)).lt (f32 (widen b)) || (f32 (widen a)).same (f32 (widen b)) then 0xFFFF else 0)) ∧
  (∀ (d : Fin 8) (c : Fin 24) (s : State) (vd n : Nat) (srcs : List Nat) (op : Core → Nat → W32), n ≤ 2048 →
    (s.core d c).inject = [] → ∀ i < n, ((s.runLanes d c vd n srcs {} op).core d c).lane vd i = op (s.core d c) i) ∧
  (∀ (d : Fin 8) (c : Fin 24) (s : State) (vd n : Nat) (srcs : List Nat) (op : Core → Nat → Nat), n ≤ 4096 →
    (s.core d c).inject = [] → ∀ i < n, ((s.runPacked d c vd n srcs {} op).core d c).elem vd 16 i = op (s.core d c) i % 2 ^ 16)
end

