-- ==== Sys2Proof/Laws/Sparse.lean ====
section
/-!
SUPPORT. Sparse stores: a read after a write, and the canonical form kept by every operation.
-/
namespace Sys2Proof

variable {α : Type} {d : Nat → α}

/-! ### Reading after writing -/

@[simp] theorem Sparse.get_nil (k : Nat) : Sparse.get d [] k = d k := rfl

theorem Sparse.get_cons (c : Nat × α) (r : Sparse α) (k : Nat) :
    Sparse.get d (c :: r) k = if c.1 = k then c.2 else Sparse.get d r k := rfl

/-- A key that no cell has reads as an unlisted key. -/
theorem Sparse.get_of_not_mem (m : Sparse α) (k : Nat) (h : ∀ c ∈ m, c.1 ≠ k) : Sparse.get d m k = d k := by
  induction m with
  | nil => rfl
  | cons c r ih =>
    rw [get_cons, if_neg (h c (by simp))]
    exact ih fun x hx => h x (by simp [hx])

theorem Sparse.mem_erase (m : Sparse α) (k : Nat) (c : Nat × α) : c ∈ Sparse.erase m k ↔ c ∈ m ∧ c.1 ≠ k := by
  simp [Sparse.erase]

/-- Erasing a key makes it unlisted. -/
theorem Sparse.get_erase_same (m : Sparse α) (k : Nat) : Sparse.get d (Sparse.erase m k) k = d k :=
  get_of_not_mem _ _ fun c hc => ((mem_erase m k c).1 hc).2

/-- Erasing a key leaves the others. -/
theorem Sparse.get_erase_ne (m : Sparse α) {k j : Nat} (h : j ≠ k) : Sparse.get d (Sparse.erase m k) j = Sparse.get d m j := by
  induction m with
  | nil => rfl
  | cons c r ih =>
    by_cases hc : c.1 = k
    · have hj : c.1 ≠ j := fun e => h (e.symm.trans hc)
      have he : Sparse.erase (c :: r) k = Sparse.erase r k := by simp [Sparse.erase, hc]
      rw [he, ih, get_cons, if_neg hj]
    · have he : Sparse.erase (c :: r) k = c :: Sparse.erase r k := by simp [Sparse.erase, hc]
      rw [he, get_cons, get_cons, ih]

theorem Sparse.mem_ins (m : Sparse α) (k : Nat) (v : α) (c : Nat × α) : c ∈ Sparse.ins m k v ↔ c = (k, v) ∨ c ∈ m := by
  induction m with
  | nil => simp [Sparse.ins]
  | cons x r ih =>
    unfold Sparse.ins
    split
    · simp
    · simp [ih, or_left_comm]

theorem Sparse.get_ins_same (m : Sparse α) (k : Nat) (v : α) (h : ∀ c ∈ m, c.1 ≠ k) : Sparse.get d (Sparse.ins m k v) k = v := by
  induction m with
  | nil => simp [Sparse.ins, get_cons]
  | cons x r ih =>
    unfold Sparse.ins
    split
    · simp [get_cons]
    · rw [get_cons, if_neg (h x (by simp))]
      exact ih fun c hc => h c (by simp [hc])

theorem Sparse.get_ins_ne (m : Sparse α) {k j : Nat} (v : α) (h : j ≠ k) : Sparse.get d (Sparse.ins m k v) j = Sparse.get d m j := by
  induction m with
  | nil => simp [Sparse.ins, get_cons, h.symm]
  | cons x r ih =>
    unfold Sparse.ins
    split
    · simp [get_cons, h.symm]
    · rw [get_cons, get_cons, ih]

/-- A read of the key just written gives the value written. -/
@[simp] theorem Sparse.get_put_same [DecidableEq α] (m : Sparse α) (k : Nat) (v : α) : Sparse.get d (Sparse.put d m k v) k = v := by
  unfold Sparse.put
  split
  · next h => rw [get_erase_same, h]
  · exact get_ins_same _ _ _ fun c hc => ((mem_erase m k c).1 hc).2

/-- A write leaves every other key as it was. -/
theorem Sparse.get_put_ne [DecidableEq α] (m : Sparse α) {k j : Nat} (v : α) (h : j ≠ k) :
    Sparse.get d (Sparse.put d m k v) j = Sparse.get d m j := by
  unfold Sparse.put
  split
  · exact get_erase_ne m h
  · rw [get_ins_ne _ _ h, get_erase_ne m h]

theorem Sparse.get_put [DecidableEq α] (m : Sparse α) (k j : Nat) (v : α) :
    Sparse.get d (Sparse.put d m k v) j = if j = k then v else Sparse.get d m j := by
  split
  · next h => rw [h, get_put_same]
  · next h => exact get_put_ne m v h

/-- A key below the first written one is left by a write of consecutive values. -/
theorem Sparse.get_putRange_lt [DecidableEq α] (vs : List α) : ∀ (m : Sparse α) {k j : Nat}, j < k →
    Sparse.get d (Sparse.putRange d m k vs) j = Sparse.get d m j := by
  induction vs with
  | nil => intro m k j _; rfl
  | cons v vs ih =>
    intro m k j h
    rw [Sparse.putRange, ih _ (Nat.lt_succ_of_lt h), get_put_ne _ _ (Nat.ne_of_lt h)]

/-- A key at or beyond the end of the written ones is left. -/
theorem Sparse.get_putRange_ge [DecidableEq α] (vs : List α) : ∀ (m : Sparse α) {k j : Nat}, k + vs.length ≤ j →
    Sparse.get d (Sparse.putRange d m k vs) j = Sparse.get d m j := by
  induction vs with
  | nil => intro m k j _; rfl
  | cons v vs ih =>
    intro m k j h
    simp only [List.length_cons] at h
    rw [Sparse.putRange, ih _ (by omega), get_put_ne _ _ (by omega)]

/-- The value at the `i`-th written key. -/
theorem Sparse.get_putRange_mem [DecidableEq α] (vs : List α) : ∀ (m : Sparse α) (k i : Nat) (h : i < vs.length),
    Sparse.get d (Sparse.putRange d m k vs) (k + i) = vs[i] := by
  induction vs with
  | nil => intro m k i h; exact absurd h (Nat.not_lt_zero _)
  | cons v vs ih =>
    intro m k i h
    cases i with
    | zero =>
      rw [Sparse.putRange, get_putRange_lt _ _ (show k + 0 < k + 1 by omega)]
      exact get_put_same m k v
    | succ i =>
      have h' : i < vs.length := by simpa using h
      have e : k + (i + 1) = k + 1 + i := by omega
      rw [Sparse.putRange, e, ih _ _ _ h']
      rfl

/-- A read of the range just written gives the values written. -/
theorem Sparse.getRange_putRange [DecidableEq α] (m : Sparse α) (k : Nat) (vs : List α) :
    Sparse.getRange d (Sparse.putRange d m k vs) k vs.length = vs := by
  apply List.ext_getElem
  · simp [Sparse.getRange]
  · intro i h₁ h₂
    simp [Sparse.getRange, get_putRange_mem vs m k i h₂]

theorem Sparse.get_clearRange (m : Sparse α) (k n j : Nat) :
    Sparse.get d (Sparse.clearRange m k n) j = if k ≤ j ∧ j < k + n then d j else Sparse.get d m j := by
  induction m with
  | nil => simp [Sparse.clearRange]
  | cons c r ih =>
    by_cases hc : k ≤ c.1 ∧ c.1 < k + n
    · have he : Sparse.clearRange (c :: r) k n = Sparse.clearRange r k n := by simp [Sparse.clearRange, hc]
      rw [he, ih, get_cons]
      by_cases hj : c.1 = j
      · subst hj; simp [hc]
      · simp [hj]
    · have he : Sparse.clearRange (c :: r) k n = c :: Sparse.clearRange r k n := by
        simp only [Sparse.clearRange, List.filter_cons]
        rw [if_pos]
        simp only [Bool.not_eq_true', Bool.and_eq_false_iff, decide_eq_false_iff_not]
        omega
      rw [he, get_cons, get_cons, ih]
      by_cases hj : c.1 = j
      · subst hj; simp [hc]
      · simp [hj]

/-! ### The canonical form -/

/-- The canonical form, as two plain properties of the list. -/
theorem Sparse.wf_iff [DecidableEq α] (m : Sparse α) :
    Sparse.wf d m = true ↔ m.Pairwise (fun a b => a.1 < b.1) ∧ ∀ c ∈ m, c.2 ≠ d c.1 := by
  induction m with
  | nil => simp [Sparse.wf]
  | cons c r ih =>
    cases r with
    | nil => simp [Sparse.wf]
    | cons x r =>
      rw [Sparse.wf, Bool.and_eq_true, Bool.and_eq_true, ih, decide_eq_true_iff, decide_eq_true_iff]
      constructor
      · rintro ⟨⟨h1, h2⟩, h3, h4⟩
        refine ⟨List.Pairwise.cons ?_ h3, ?_⟩
        · intro b hb
          rcases List.mem_cons.1 hb with rfl | hb
          · exact h1
          · exact Nat.lt_trans h1 (List.rel_of_pairwise_cons h3 hb)
        · intro b hb
          rcases List.mem_cons.1 hb with rfl | hb
          · exact h2
          · exact h4 b hb
      · rintro ⟨h3, h4⟩
        exact ⟨⟨List.rel_of_pairwise_cons h3 (by simp), h4 c (by simp)⟩, (List.pairwise_cons.1 h3).2,
          fun b hb => h4 b (List.mem_cons_of_mem _ hb)⟩

/-- The empty store is canonical. -/
@[simp] theorem Sparse.wf_nil [DecidableEq α] : Sparse.wf d ([] : Sparse α) = true := rfl

theorem Sparse.wf_filter [DecidableEq α] (m : Sparse α) (p : Nat × α → Bool) (h : Sparse.wf d m = true) : Sparse.wf d (m.filter p) = true := by
  rw [wf_iff] at h ⊢
  exact ⟨h.1.sublist List.filter_sublist, fun c hc => h.2 c ((List.mem_filter.1 hc).1)⟩

theorem Sparse.wf_erase [DecidableEq α] (m : Sparse α) (k : Nat) (h : Sparse.wf d m = true) : Sparse.wf d (Sparse.erase m k) = true :=
  wf_filter m _ h

theorem Sparse.wf_clearRange [DecidableEq α] (m : Sparse α) (k n : Nat) (h : Sparse.wf d m = true) : Sparse.wf d (Sparse.clearRange m k n) = true :=
  wf_filter m _ h

theorem Sparse.pairwise_ins (m : Sparse α) (k : Nat) (v : α) (h : m.Pairwise fun a b => a.1 < b.1) (hk : ∀ c ∈ m, c.1 ≠ k) :
    (Sparse.ins m k v).Pairwise fun a b => a.1 < b.1 := by
  induction m with
  | nil => simp [Sparse.ins]
  | cons x r ih =>
    have hx := hk x (by simp)
    rw [List.pairwise_cons] at h
    unfold Sparse.ins
    split
    · next hlt =>
      refine List.pairwise_cons.2 ⟨?_, List.pairwise_cons.2 h⟩
      intro b hb
      rcases List.mem_cons.1 hb with rfl | hb
      · exact hlt
      · exact Nat.lt_trans hlt (h.1 b hb)
    · next hge =>
      refine List.pairwise_cons.2 ⟨?_, ih h.2 fun c hc => hk c (by simp [hc])⟩
      intro b hb
      rcases (mem_ins r k v b).1 hb with rfl | hb
      · show x.1 < k
        omega
      · exact h.1 b hb

/-- A write keeps the canonical form. -/
theorem Sparse.wf_put [DecidableEq α] (m : Sparse α) (k : Nat) (v : α) (h : Sparse.wf d m = true) : Sparse.wf d (Sparse.put d m k v) = true := by
  have he := wf_erase m k h
  unfold Sparse.put
  split
  · exact he
  · next hv =>
    rw [wf_iff] at he ⊢
    refine ⟨pairwise_ins _ _ _ he.1 fun c hc => ((mem_erase m k c).1 hc).2, ?_⟩
    intro c hc
    rcases (mem_ins _ _ _ _).1 hc with rfl | hc
    · exact hv
    · exact he.2 c hc

/-- A write of consecutive values keeps the canonical form. -/
theorem Sparse.wf_putRange [DecidableEq α] (vs : List α) : ∀ (m : Sparse α) (k : Nat), Sparse.wf d m = true →
    Sparse.wf d (Sparse.putRange d m k vs) = true := by
  induction vs with
  | nil => intro m k h; exact h
  | cons v vs ih => intro m k h; exact ih _ _ (wf_put m k v h)

/-- Changing every listed value keeps the canonical form. -/
theorem Sparse.wf_mapVals [DecidableEq α] (m : Sparse α) (f : Nat → α → α) (h : Sparse.wf d m = true) :
    Sparse.wf d (Sparse.mapVals d f m) = true := by
  rw [wf_iff] at h ⊢
  refine ⟨List.Pairwise.sublist List.filter_sublist (List.pairwise_map.2 h.1), ?_⟩
  intro c hc
  simpa using (List.mem_filter.1 hc).2

end Sys2Proof
end

