-- ==== Sys2Proof/Laws/State.lean ====
section
/-!
SUPPORT. What each named update leaves of the state: one lemma per field per update, so that no proof unfolds a record update.
-/
namespace Sys2Proof.Machine

variable (s : State)

/-! ### setRg -/

@[simp] theorem State.setRg_pending (z i off : Nat) (v : W32) : (s.setRg z i off v).pending = s.pending := (rfl)
@[simp] theorem State.setRg_fresh (z i off : Nat) (v : W32) : (s.setRg z i off v).fresh = s.fresh := (rfl)
@[simp] theorem State.setRg_tick (z i off : Nat) (v : W32) : (s.setRg z i off v).tick = s.tick := (rfl)
@[simp] theorem State.setRg_run (z i off : Nat) (v : W32) : (s.setRg z i off v).run = s.run := (rfl)
@[simp] theorem State.setRg_startStep (z i off : Nat) (v : W32) : (s.setRg z i off v).startStep = s.startStep := (rfl)
@[simp] theorem State.setRg_ready (z i off : Nat) (v : W32) : (s.setRg z i off v).ready = s.ready := (rfl)
@[simp] theorem State.setRg_staged (z i off : Nat) (v : W32) : (s.setRg z i off v).staged = s.staged := (rfl)
@[simp] theorem State.setRg_shadow (z i off : Nat) (v : W32) : (s.setRg z i off v).shadow = s.shadow := (rfl)
@[simp] theorem State.setRg_snap (z i off : Nat) (v : W32) : (s.setRg z i off v).snap = s.snap := (rfl)
@[simp] theorem State.setRg_snapHeld (z i off : Nat) (v : W32) : (s.setRg z i off v).snapHeld = s.snapHeld := (rfl)
@[simp] theorem State.setRg_cntClr (z i off : Nat) (v : W32) : (s.setRg z i off v).cntClr = s.cntClr := (rfl)
@[simp] theorem State.setRg_applyReq (z i off : Nat) (v : W32) : (s.setRg z i off v).applyReq = s.applyReq := (rfl)
@[simp] theorem State.setRg_applyDue (z i off : Nat) (v : W32) : (s.setRg z i off v).applyDue = s.applyDue := (rfl)
@[simp] theorem State.setRg_applyAt (z i off : Nat) (v : W32) : (s.setRg z i off v).applyAt = s.applyAt := (rfl)
@[simp] theorem State.setRg_covered (z i off : Nat) (v : W32) : (s.setRg z i off v).covered = s.covered := (rfl)
@[simp] theorem State.setRg_strobed (z i off : Nat) (v : W32) : (s.setRg z i off v).strobed = s.strobed := (rfl)
@[simp] theorem State.setRg_snapReq (z i off : Nat) (v : W32) : (s.setRg z i off v).snapReq = s.snapReq := (rfl)
@[simp] theorem State.setRg_snapArmed (z i off : Nat) (v : W32) : (s.setRg z i off v).snapArmed = s.snapArmed := (rfl)
@[simp] theorem State.setRg_snapEdge (z i off : Nat) (v : W32) : (s.setRg z i off v).snapEdge = s.snapEdge := (rfl)
@[simp] theorem State.setRg_elog (z i off : Nat) (v : W32) : (s.setRg z i off v).elog = s.elog := (rfl)
@[simp] theorem State.setRg_nextSeq (z i off : Nat) (v : W32) : (s.setRg z i off v).nextSeq = s.nextSeq := (rfl)
@[simp] theorem State.setRg_tickSeq (z i off : Nat) (v : W32) : (s.setRg z i off v).tickSeq = s.tickSeq := (rfl)
@[simp] theorem State.setRg_through (z i off : Nat) (v : W32) : (s.setRg z i off v).through = s.through := (rfl)
@[simp] theorem State.setRg_out (z i off : Nat) (v : W32) : (s.setRg z i off v).out = s.out := (rfl)
@[simp] theorem State.setRg_quarters (z i off : Nat) (v : W32) : (s.setRg z i off v).quarters = s.quarters := (rfl)
@[simp] theorem State.setRg_gov (z i off : Nat) (v : W32) : (s.setRg z i off v).gov = s.gov := (rfl)
@[simp] theorem State.setRg_tickGen (z i off : Nat) (v : W32) : (s.setRg z i off v).tickGen = s.tickGen := (rfl)
@[simp] theorem State.setRg_job (z i off : Nat) (v : W32) : (s.setRg z i off v).job = s.job := (rfl)
@[simp] theorem State.setRg_cores (z i off : Nat) (v : W32) : (s.setRg z i off v).cores = s.cores := (rfl)
@[simp] theorem State.setRg_stations (z i off : Nat) (v : W32) : (s.setRg z i off v).stations = s.stations := (rfl)
@[simp] theorem State.setRg_mem (z i off : Nat) (v : W32) : (s.setRg z i off v).mem = s.mem := (rfl)
@[simp] theorem State.setRg_memPoison (z i off : Nat) (v : W32) : (s.setRg z i off v).memPoison = s.memPoison := (rfl)
@[simp] theorem State.setRg_reqs (z i off : Nat) (v : W32) : (s.setRg z i off v).reqs = s.reqs := (rfl)
@[simp] theorem State.setRg_nextReq (z i off : Nat) (v : W32) : (s.setRg z i off v).nextReq = s.nextReq := (rfl)
@[simp] theorem State.setRg_remotes (z i off : Nat) (v : W32) : (s.setRg z i off v).remotes = s.remotes := (rfl)
@[simp] theorem State.setRg_held (z i off : Nat) (v : W32) : (s.setRg z i off v).held = s.held := (rfl)
@[simp] theorem State.setRg_flight (z i off : Nat) (v : W32) : (s.setRg z i off v).flight = s.flight := (rfl)
@[simp] theorem State.setRg_waiting (z i off : Nat) (v : W32) : (s.setRg z i off v).waiting = s.waiting := (rfl)
@[simp] theorem State.setRg_admitted (z i off : Nat) (v : W32) : (s.setRg z i off v).admitted = s.admitted := (rfl)
@[simp] theorem State.setRg_arrivals (z i off : Nat) (v : W32) : (s.setRg z i off v).arrivals = s.arrivals := (rfl)
@[simp] theorem State.setRg_ctls (z i off : Nat) (v : W32) : (s.setRg z i off v).ctls = s.ctls := (rfl)
@[simp] theorem State.setRg_tails (z i off : Nat) (v : W32) : (s.setRg z i off v).tails = s.tails := (rfl)
@[simp] theorem State.setRg_parts (z i off : Nat) (v : W32) : (s.setRg z i off v).parts = s.parts := (rfl)
@[simp] theorem State.setRg_whittle (z i off : Nat) (v : W32) : (s.setRg z i off v).whittle = s.whittle := (rfl)
@[simp] theorem State.setRg_hsMail (z i off : Nat) (v : W32) : (s.setRg z i off v).hsMail = s.hsMail := (rfl)
@[simp] theorem State.setRg_engines (z i off : Nat) (v : W32) : (s.setRg z i off v).engines = s.engines := (rfl)
@[simp] theorem State.setRg_forwards (z i off : Nat) (v : W32) : (s.setRg z i off v).forwards = s.forwards := (rfl)
@[simp] theorem State.setRg_nets (z i off : Nat) (v : W32) : (s.setRg z i off v).nets = s.nets := (rfl)
@[simp] theorem State.setRg_ports (z i off : Nat) (v : W32) : (s.setRg z i off v).ports = s.ports := (rfl)
@[simp] theorem State.setRg_qps (z i off : Nat) (v : W32) : (s.setRg z i off v).qps = s.qps := (rfl)
@[simp] theorem State.setRg_tables (z i off : Nat) (v : W32) : (s.setRg z i off v).tables = s.tables := (rfl)
@[simp] theorem State.setRg_bays (z i off : Nat) (v : W32) : (s.setRg z i off v).bays = s.bays := (rfl)
@[simp] theorem State.setRg_latchOpen (z i off : Nat) (v : W32) : (s.setRg z i off v).latchOpen = s.latchOpen := (rfl)
@[simp] theorem State.setRg_engineReset (z i off : Nat) (v : W32) : (s.setRg z i off v).engineReset = s.engineReset := (rfl)
@[simp] theorem State.setRg_wrote (z i off : Nat) (v : W32) : (s.setRg z i off v).wrote = s.wrote := (rfl)
@[simp] theorem State.setRg_mgmt (z i off : Nat) (v : W32) : (s.setRg z i off v).mgmt = s.mgmt := (rfl)
@[simp] theorem State.setRg_fuses (z i off : Nat) (v : W32) : (s.setRg z i off v).fuses = s.fuses := (rfl)
@[simp] theorem State.setRg_flash (z i off : Nat) (v : W32) : (s.setRg z i off v).flash = s.flash := (rfl)
@[simp] theorem State.setRg_pins (z i off : Nat) (v : W32) : (s.setRg z i off v).pins = s.pins := (rfl)
@[simp] theorem State.setRg_boot (z i off : Nat) (v : W32) : (s.setRg z i off v).boot = s.boot := (rfl)

/-! ### setFld -/

@[simp] theorem State.setFld_pending (z i off lo len v : Nat) : (s.setFld z i off lo len v).pending = s.pending := (rfl)
@[simp] theorem State.setFld_fresh (z i off lo len v : Nat) : (s.setFld z i off lo len v).fresh = s.fresh := (rfl)
@[simp] theorem State.setFld_tick (z i off lo len v : Nat) : (s.setFld z i off lo len v).tick = s.tick := (rfl)
@[simp] theorem State.setFld_run (z i off lo len v : Nat) : (s.setFld z i off lo len v).run = s.run := (rfl)
@[simp] theorem State.setFld_startStep (z i off lo len v : Nat) : (s.setFld z i off lo len v).startStep = s.startStep := (rfl)
@[simp] theorem State.setFld_ready (z i off lo len v : Nat) : (s.setFld z i off lo len v).ready = s.ready := (rfl)
@[simp] theorem State.setFld_staged (z i off lo len v : Nat) : (s.setFld z i off lo len v).staged = s.staged := (rfl)
@[simp] theorem State.setFld_shadow (z i off lo len v : Nat) : (s.setFld z i off lo len v).shadow = s.shadow := (rfl)
@[simp] theorem State.setFld_snap (z i off lo len v : Nat) : (s.setFld z i off lo len v).snap = s.snap := (rfl)
@[simp] theorem State.setFld_snapHeld (z i off lo len v : Nat) : (s.setFld z i off lo len v).snapHeld = s.snapHeld := (rfl)
@[simp] theorem State.setFld_cntClr (z i off lo len v : Nat) : (s.setFld z i off lo len v).cntClr = s.cntClr := (rfl)
@[simp] theorem State.setFld_applyReq (z i off lo len v : Nat) : (s.setFld z i off lo len v).applyReq = s.applyReq := (rfl)
@[simp] theorem State.setFld_applyDue (z i off lo len v : Nat) : (s.setFld z i off lo len v).applyDue = s.applyDue := (rfl)
@[simp] theorem State.setFld_applyAt (z i off lo len v : Nat) : (s.setFld z i off lo len v).applyAt = s.applyAt := (rfl)
@[simp] theorem State.setFld_covered (z i off lo len v : Nat) : (s.setFld z i off lo len v).covered = s.covered := (rfl)
@[simp] theorem State.setFld_strobed (z i off lo len v : Nat) : (s.setFld z i off lo len v).strobed = s.strobed := (rfl)
@[simp] theorem State.setFld_snapReq (z i off lo len v : Nat) : (s.setFld z i off lo len v).snapReq = s.snapReq := (rfl)
@[simp] theorem State.setFld_snapArmed (z i off lo len v : Nat) : (s.setFld z i off lo len v).snapArmed = s.snapArmed := (rfl)
@[simp] theorem State.setFld_snapEdge (z i off lo len v : Nat) : (s.setFld z i off lo len v).snapEdge = s.snapEdge := (rfl)
@[simp] theorem State.setFld_elog (z i off lo len v : Nat) : (s.setFld z i off lo len v).elog = s.elog := (rfl)
@[simp] theorem State.setFld_nextSeq (z i off lo len v : Nat) : (s.setFld z i off lo len v).nextSeq = s.nextSeq := (rfl)
@[simp] theorem State.setFld_tickSeq (z i off lo len v : Nat) : (s.setFld z i off lo len v).tickSeq = s.tickSeq := (rfl)
@[simp] theorem State.setFld_through (z i off lo len v : Nat) : (s.setFld z i off lo len v).through = s.through := (rfl)
@[simp] theorem State.setFld_out (z i off lo len v : Nat) : (s.setFld z i off lo len v).out = s.out := (rfl)
@[simp] theorem State.setFld_quarters (z i off lo len v : Nat) : (s.setFld z i off lo len v).quarters = s.quarters := (rfl)
@[simp] theorem State.setFld_gov (z i off lo len v : Nat) : (s.setFld z i off lo len v).gov = s.gov := (rfl)
@[simp] theorem State.setFld_tickGen (z i off lo len v : Nat) : (s.setFld z i off lo len v).tickGen = s.tickGen := (rfl)
@[simp] theorem State.setFld_job (z i off lo len v : Nat) : (s.setFld z i off lo len v).job = s.job := (rfl)
@[simp] theorem State.setFld_cores (z i off lo len v : Nat) : (s.setFld z i off lo len v).cores = s.cores := (rfl)
@[simp] theorem State.setFld_stations (z i off lo len v : Nat) : (s.setFld z i off lo len v).stations = s.stations := (rfl)
@[simp] theorem State.setFld_mem (z i off lo len v : Nat) : (s.setFld z i off lo len v).mem = s.mem := (rfl)
@[simp] theorem State.setFld_memPoison (z i off lo len v : Nat) : (s.setFld z i off lo len v).memPoison = s.memPoison := (rfl)
@[simp] theorem State.setFld_reqs (z i off lo len v : Nat) : (s.setFld z i off lo len v).reqs = s.reqs := (rfl)
@[simp] theorem State.setFld_nextReq (z i off lo len v : Nat) : (s.setFld z i off lo len v).nextReq = s.nextReq := (rfl)
@[simp] theorem State.setFld_remotes (z i off lo len v : Nat) : (s.setFld z i off lo len v).remotes = s.remotes := (rfl)
@[simp] theorem State.setFld_held (z i off lo len v : Nat) : (s.setFld z i off lo len v).held = s.held := (rfl)
@[simp] theorem State.setFld_flight (z i off lo len v : Nat) : (s.setFld z i off lo len v).flight = s.flight := (rfl)
@[simp] theorem State.setFld_waiting (z i off lo len v : Nat) : (s.setFld z i off lo len v).waiting = s.waiting := (rfl)
@[simp] theorem State.setFld_admitted (z i off lo len v : Nat) : (s.setFld z i off lo len v).admitted = s.admitted := (rfl)
@[simp] theorem State.setFld_arrivals (z i off lo len v : Nat) : (s.setFld z i off lo len v).arrivals = s.arrivals := (rfl)
@[simp] theorem State.setFld_ctls (z i off lo len v : Nat) : (s.setFld z i off lo len v).ctls = s.ctls := (rfl)
@[simp] theorem State.setFld_tails (z i off lo len v : Nat) : (s.setFld z i off lo len v).tails = s.tails := (rfl)
@[simp] theorem State.setFld_parts (z i off lo len v : Nat) : (s.setFld z i off lo len v).parts = s.parts := (rfl)
@[simp] theorem State.setFld_whittle (z i off lo len v : Nat) : (s.setFld z i off lo len v).whittle = s.whittle := (rfl)
@[simp] theorem State.setFld_hsMail (z i off lo len v : Nat) : (s.setFld z i off lo len v).hsMail = s.hsMail := (rfl)
@[simp] theorem State.setFld_engines (z i off lo len v : Nat) : (s.setFld z i off lo len v).engines = s.engines := (rfl)
@[simp] theorem State.setFld_forwards (z i off lo len v : Nat) : (s.setFld z i off lo len v).forwards = s.forwards := (rfl)
@[simp] theorem State.setFld_nets (z i off lo len v : Nat) : (s.setFld z i off lo len v).nets = s.nets := (rfl)
@[simp] theorem State.setFld_ports (z i off lo len v : Nat) : (s.setFld z i off lo len v).ports = s.ports := (rfl)
@[simp] theorem State.setFld_qps (z i off lo len v : Nat) : (s.setFld z i off lo len v).qps = s.qps := (rfl)
@[simp] theorem State.setFld_tables (z i off lo len v : Nat) : (s.setFld z i off lo len v).tables = s.tables := (rfl)
@[simp] theorem State.setFld_bays (z i off lo len v : Nat) : (s.setFld z i off lo len v).bays = s.bays := (rfl)
@[simp] theorem State.setFld_latchOpen (z i off lo len v : Nat) : (s.setFld z i off lo len v).latchOpen = s.latchOpen := (rfl)
@[simp] theorem State.setFld_engineReset (z i off lo len v : Nat) : (s.setFld z i off lo len v).engineReset = s.engineReset := (rfl)
@[simp] theorem State.setFld_wrote (z i off lo len v : Nat) : (s.setFld z i off lo len v).wrote = s.wrote := (rfl)
@[simp] theorem State.setFld_mgmt (z i off lo len v : Nat) : (s.setFld z i off lo len v).mgmt = s.mgmt := (rfl)
@[simp] theorem State.setFld_fuses (z i off lo len v : Nat) : (s.setFld z i off lo len v).fuses = s.fuses := (rfl)
@[simp] theorem State.setFld_flash (z i off lo len v : Nat) : (s.setFld z i off lo len v).flash = s.flash := (rfl)
@[simp] theorem State.setFld_pins (z i off lo len v : Nat) : (s.setFld z i off lo len v).pins = s.pins := (rfl)
@[simp] theorem State.setFld_boot (z i off lo len v : Nat) : (s.setFld z i off lo len v).boot = s.boot := (rfl)

/-! ### setFlag -/

@[simp] theorem State.setFlag_pending (z i off lo : Nat) (b : Bool) : (s.setFlag z i off lo b).pending = s.pending := (rfl)
@[simp] theorem State.setFlag_fresh (z i off lo : Nat) (b : Bool) : (s.setFlag z i off lo b).fresh = s.fresh := (rfl)
@[simp] theorem State.setFlag_tick (z i off lo : Nat) (b : Bool) : (s.setFlag z i off lo b).tick = s.tick := (rfl)
@[simp] theorem State.setFlag_run (z i off lo : Nat) (b : Bool) : (s.setFlag z i off lo b).run = s.run := (rfl)
@[simp] theorem State.setFlag_startStep (z i off lo : Nat) (b : Bool) : (s.setFlag z i off lo b).startStep = s.startStep := (rfl)
@[simp] theorem State.setFlag_ready (z i off lo : Nat) (b : Bool) : (s.setFlag z i off lo b).ready = s.ready := (rfl)
@[simp] theorem State.setFlag_staged (z i off lo : Nat) (b : Bool) : (s.setFlag z i off lo b).staged = s.staged := (rfl)
@[simp] theorem State.setFlag_shadow (z i off lo : Nat) (b : Bool) : (s.setFlag z i off lo b).shadow = s.shadow := (rfl)
@[simp] theorem State.setFlag_snap (z i off lo : Nat) (b : Bool) : (s.setFlag z i off lo b).snap = s.snap := (rfl)
@[simp] theorem State.setFlag_snapHeld (z i off lo : Nat) (b : Bool) : (s.setFlag z i off lo b).snapHeld = s.snapHeld := (rfl)
@[simp] theorem State.setFlag_cntClr (z i off lo : Nat) (b : Bool) : (s.setFlag z i off lo b).cntClr = s.cntClr := (rfl)
@[simp] theorem State.setFlag_applyReq (z i off lo : Nat) (b : Bool) : (s.setFlag z i off lo b).applyReq = s.applyReq := (rfl)
@[simp] theorem State.setFlag_applyDue (z i off lo : Nat) (b : Bool) : (s.setFlag z i off lo b).applyDue = s.applyDue := (rfl)
@[simp] theorem State.setFlag_applyAt (z i off lo : Nat) (b : Bool) : (s.setFlag z i off lo b).applyAt = s.applyAt := (rfl)
@[simp] theorem State.setFlag_covered (z i off lo : Nat) (b : Bool) : (s.setFlag z i off lo b).covered = s.covered := (rfl)
@[simp] theorem State.setFlag_strobed (z i off lo : Nat) (b : Bool) : (s.setFlag z i off lo b).strobed = s.strobed := (rfl)
@[simp] theorem State.setFlag_snapReq (z i off lo : Nat) (b : Bool) : (s.setFlag z i off lo b).snapReq = s.snapReq := (rfl)
@[simp] theorem State.setFlag_snapArmed (z i off lo : Nat) (b : Bool) : (s.setFlag z i off lo b).snapArmed = s.snapArmed := (rfl)
@[simp] theorem State.setFlag_snapEdge (z i off lo : Nat) (b : Bool) : (s.setFlag z i off lo b).snapEdge = s.snapEdge := (rfl)
@[simp] theorem State.setFlag_elog (z i off lo : Nat) (b : Bool) : (s.setFlag z i off lo b).elog = s.elog := (rfl)
@[simp] theorem State.setFlag_nextSeq (z i off lo : Nat) (b : Bool) : (s.setFlag z i off lo b).nextSeq = s.nextSeq := (rfl)
@[simp] theorem State.setFlag_tickSeq (z i off lo : Nat) (b : Bool) : (s.setFlag z i off lo b).tickSeq = s.tickSeq := (rfl)
@[simp] theorem State.setFlag_through (z i off lo : Nat) (b : Bool) : (s.setFlag z i off lo b).through = s.through := (rfl)
@[simp] theorem State.setFlag_out (z i off lo : Nat) (b : Bool) : (s.setFlag z i off lo b).out = s.out := (rfl)
@[simp] theorem State.setFlag_quarters (z i off lo : Nat) (b : Bool) : (s.setFlag z i off lo b).quarters = s.quarters := (rfl)
@[simp] theorem State.setFlag_gov (z i off lo : Nat) (b : Bool) : (s.setFlag z i off lo b).gov = s.gov := (rfl)
@[simp] theorem State.setFlag_tickGen (z i off lo : Nat) (b : Bool) : (s.setFlag z i off lo b).tickGen = s.tickGen := (rfl)
@[simp] theorem State.setFlag_job (z i off lo : Nat) (b : Bool) : (s.setFlag z i off lo b).job = s.job := (rfl)
@[simp] theorem State.setFlag_cores (z i off lo : Nat) (b : Bool) : (s.setFlag z i off lo b).cores = s.cores := (rfl)
@[simp] theorem State.setFlag_stations (z i off lo : Nat) (b : Bool) : (s.setFlag z i off lo b).stations = s.stations := (rfl)
@[simp] theorem State.setFlag_mem (z i off lo : Nat) (b : Bool) : (s.setFlag z i off lo b).mem = s.mem := (rfl)
@[simp] theorem State.setFlag_memPoison (z i off lo : Nat) (b : Bool) : (s.setFlag z i off lo b).memPoison = s.memPoison := (rfl)
@[simp] theorem State.setFlag_reqs (z i off lo : Nat) (b : Bool) : (s.setFlag z i off lo b).reqs = s.reqs := (rfl)
@[simp] theorem State.setFlag_nextReq (z i off lo : Nat) (b : Bool) : (s.setFlag z i off lo b).nextReq = s.nextReq := (rfl)
@[simp] theorem State.setFlag_remotes (z i off lo : Nat) (b : Bool) : (s.setFlag z i off lo b).remotes = s.remotes := (rfl)
@[simp] theorem State.setFlag_held (z i off lo : Nat) (b : Bool) : (s.setFlag z i off lo b).held = s.held := (rfl)
@[simp] theorem State.setFlag_flight (z i off lo : Nat) (b : Bool) : (s.setFlag z i off lo b).flight = s.flight := (rfl)
@[simp] theorem State.setFlag_waiting (z i off lo : Nat) (b : Bool) : (s.setFlag z i off lo b).waiting = s.waiting := (rfl)
@[simp] theorem State.setFlag_admitted (z i off lo : Nat) (b : Bool) : (s.setFlag z i off lo b).admitted = s.admitted := (rfl)
@[simp] theorem State.setFlag_arrivals (z i off lo : Nat) (b : Bool) : (s.setFlag z i off lo b).arrivals = s.arrivals := (rfl)
@[simp] theorem State.setFlag_ctls (z i off lo : Nat) (b : Bool) : (s.setFlag z i off lo b).ctls = s.ctls := (rfl)
@[simp] theorem State.setFlag_tails (z i off lo : Nat) (b : Bool) : (s.setFlag z i off lo b).tails = s.tails := (rfl)
@[simp] theorem State.setFlag_parts (z i off lo : Nat) (b : Bool) : (s.setFlag z i off lo b).parts = s.parts := (rfl)
@[simp] theorem State.setFlag_whittle (z i off lo : Nat) (b : Bool) : (s.setFlag z i off lo b).whittle = s.whittle := (rfl)
@[simp] theorem State.setFlag_hsMail (z i off lo : Nat) (b : Bool) : (s.setFlag z i off lo b).hsMail = s.hsMail := (rfl)
@[simp] theorem State.setFlag_engines (z i off lo : Nat) (b : Bool) : (s.setFlag z i off lo b).engines = s.engines := (rfl)
@[simp] theorem State.setFlag_forwards (z i off lo : Nat) (b : Bool) : (s.setFlag z i off lo b).forwards = s.forwards := (rfl)
@[simp] theorem State.setFlag_nets (z i off lo : Nat) (b : Bool) : (s.setFlag z i off lo b).nets = s.nets := (rfl)
@[simp] theorem State.setFlag_ports (z i off lo : Nat) (b : Bool) : (s.setFlag z i off lo b).ports = s.ports := (rfl)
@[simp] theorem State.setFlag_qps (z i off lo : Nat) (b : Bool) : (s.setFlag z i off lo b).qps = s.qps := (rfl)
@[simp] theorem State.setFlag_tables (z i off lo : Nat) (b : Bool) : (s.setFlag z i off lo b).tables = s.tables := (rfl)
@[simp] theorem State.setFlag_bays (z i off lo : Nat) (b : Bool) : (s.setFlag z i off lo b).bays = s.bays := (rfl)
@[simp] theorem State.setFlag_latchOpen (z i off lo : Nat) (b : Bool) : (s.setFlag z i off lo b).latchOpen = s.latchOpen := (rfl)
@[simp] theorem State.setFlag_engineReset (z i off lo : Nat) (b : Bool) : (s.setFlag z i off lo b).engineReset = s.engineReset := (rfl)
@[simp] theorem State.setFlag_wrote (z i off lo : Nat) (b : Bool) : (s.setFlag z i off lo b).wrote = s.wrote := (rfl)
@[simp] theorem State.setFlag_mgmt (z i off lo : Nat) (b : Bool) : (s.setFlag z i off lo b).mgmt = s.mgmt := (rfl)
@[simp] theorem State.setFlag_fuses (z i off lo : Nat) (b : Bool) : (s.setFlag z i off lo b).fuses = s.fuses := (rfl)
@[simp] theorem State.setFlag_flash (z i off lo : Nat) (b : Bool) : (s.setFlag z i off lo b).flash = s.flash := (rfl)
@[simp] theorem State.setFlag_pins (z i off lo : Nat) (b : Bool) : (s.setFlag z i off lo b).pins = s.pins := (rfl)
@[simp] theorem State.setFlag_boot (z i off lo : Nat) (b : Bool) : (s.setFlag z i off lo b).boot = s.boot := (rfl)

/-! ### setPair -/

@[simp] theorem State.setPair_pending (z i off v : Nat) : (s.setPair z i off v).pending = s.pending := (rfl)
@[simp] theorem State.setPair_fresh (z i off v : Nat) : (s.setPair z i off v).fresh = s.fresh := (rfl)
@[simp] theorem State.setPair_tick (z i off v : Nat) : (s.setPair z i off v).tick = s.tick := (rfl)
@[simp] theorem State.setPair_run (z i off v : Nat) : (s.setPair z i off v).run = s.run := (rfl)
@[simp] theorem State.setPair_startStep (z i off v : Nat) : (s.setPair z i off v).startStep = s.startStep := (rfl)
@[simp] theorem State.setPair_ready (z i off v : Nat) : (s.setPair z i off v).ready = s.ready := (rfl)
@[simp] theorem State.setPair_staged (z i off v : Nat) : (s.setPair z i off v).staged = s.staged := (rfl)
@[simp] theorem State.setPair_shadow (z i off v : Nat) : (s.setPair z i off v).shadow = s.shadow := (rfl)
@[simp] theorem State.setPair_snap (z i off v : Nat) : (s.setPair z i off v).snap = s.snap := (rfl)
@[simp] theorem State.setPair_snapHeld (z i off v : Nat) : (s.setPair z i off v).snapHeld = s.snapHeld := (rfl)
@[simp] theorem State.setPair_cntClr (z i off v : Nat) : (s.setPair z i off v).cntClr = s.cntClr := (rfl)
@[simp] theorem State.setPair_applyReq (z i off v : Nat) : (s.setPair z i off v).applyReq = s.applyReq := (rfl)
@[simp] theorem State.setPair_applyDue (z i off v : Nat) : (s.setPair z i off v).applyDue = s.applyDue := (rfl)
@[simp] theorem State.setPair_applyAt (z i off v : Nat) : (s.setPair z i off v).applyAt = s.applyAt := (rfl)
@[simp] theorem State.setPair_covered (z i off v : Nat) : (s.setPair z i off v).covered = s.covered := (rfl)
@[simp] theorem State.setPair_strobed (z i off v : Nat) : (s.setPair z i off v).strobed = s.strobed := (rfl)
@[simp] theorem State.setPair_snapReq (z i off v : Nat) : (s.setPair z i off v).snapReq = s.snapReq := (rfl)
@[simp] theorem State.setPair_snapArmed (z i off v : Nat) : (s.setPair z i off v).snapArmed = s.snapArmed := (rfl)
@[simp] theorem State.setPair_snapEdge (z i off v : Nat) : (s.setPair z i off v).snapEdge = s.snapEdge := (rfl)
@[simp] theorem State.setPair_elog (z i off v : Nat) : (s.setPair z i off v).elog = s.elog := (rfl)
@[simp] theorem State.setPair_nextSeq (z i off v : Nat) : (s.setPair z i off v).nextSeq = s.nextSeq := (rfl)
@[simp] theorem State.setPair_tickSeq (z i off v : Nat) : (s.setPair z i off v).tickSeq = s.tickSeq := (rfl)
@[simp] theorem State.setPair_through (z i off v : Nat) : (s.setPair z i off v).through = s.through := (rfl)
@[simp] theorem State.setPair_out (z i off v : Nat) : (s.setPair z i off v).out = s.out := (rfl)
@[simp] theorem State.setPair_quarters (z i off v : Nat) : (s.setPair z i off v).quarters = s.quarters := (rfl)
@[simp] theorem State.setPair_gov (z i off v : Nat) : (s.setPair z i off v).gov = s.gov := (rfl)
@[simp] theorem State.setPair_tickGen (z i off v : Nat) : (s.setPair z i off v).tickGen = s.tickGen := (rfl)
@[simp] theorem State.setPair_job (z i off v : Nat) : (s.setPair z i off v).job = s.job := (rfl)
@[simp] theorem State.setPair_cores (z i off v : Nat) : (s.setPair z i off v).cores = s.cores := (rfl)
@[simp] theorem State.setPair_stations (z i off v : Nat) : (s.setPair z i off v).stations = s.stations := (rfl)
@[simp] theorem State.setPair_mem (z i off v : Nat) : (s.setPair z i off v).mem = s.mem := (rfl)
@[simp] theorem State.setPair_memPoison (z i off v : Nat) : (s.setPair z i off v).memPoison = s.memPoison := (rfl)
@[simp] theorem State.setPair_reqs (z i off v : Nat) : (s.setPair z i off v).reqs = s.reqs := (rfl)
@[simp] theorem State.setPair_nextReq (z i off v : Nat) : (s.setPair z i off v).nextReq = s.nextReq := (rfl)
@[simp] theorem State.setPair_remotes (z i off v : Nat) : (s.setPair z i off v).remotes = s.remotes := (rfl)
@[simp] theorem State.setPair_held (z i off v : Nat) : (s.setPair z i off v).held = s.held := (rfl)
@[simp] theorem State.setPair_flight (z i off v : Nat) : (s.setPair z i off v).flight = s.flight := (rfl)
@[simp] theorem State.setPair_waiting (z i off v : Nat) : (s.setPair z i off v).waiting = s.waiting := (rfl)
@[simp] theorem State.setPair_admitted (z i off v : Nat) : (s.setPair z i off v).admitted = s.admitted := (rfl)
@[simp] theorem State.setPair_arrivals (z i off v : Nat) : (s.setPair z i off v).arrivals = s.arrivals := (rfl)
@[simp] theorem State.setPair_ctls (z i off v : Nat) : (s.setPair z i off v).ctls = s.ctls := (rfl)
@[simp] theorem State.setPair_tails (z i off v : Nat) : (s.setPair z i off v).tails = s.tails := (rfl)
@[simp] theorem State.setPair_parts (z i off v : Nat) : (s.setPair z i off v).parts = s.parts := (rfl)
@[simp] theorem State.setPair_whittle (z i off v : Nat) : (s.setPair z i off v).whittle = s.whittle := (rfl)
@[simp] theorem State.setPair_hsMail (z i off v : Nat) : (s.setPair z i off v).hsMail = s.hsMail := (rfl)
@[simp] theorem State.setPair_engines (z i off v : Nat) : (s.setPair z i off v).engines = s.engines := (rfl)
@[simp] theorem State.setPair_forwards (z i off v : Nat) : (s.setPair z i off v).forwards = s.forwards := (rfl)
@[simp] theorem State.setPair_nets (z i off v : Nat) : (s.setPair z i off v).nets = s.nets := (rfl)
@[simp] theorem State.setPair_ports (z i off v : Nat) : (s.setPair z i off v).ports = s.ports := (rfl)
@[simp] theorem State.setPair_qps (z i off v : Nat) : (s.setPair z i off v).qps = s.qps := (rfl)
@[simp] theorem State.setPair_tables (z i off v : Nat) : (s.setPair z i off v).tables = s.tables := (rfl)
@[simp] theorem State.setPair_bays (z i off v : Nat) : (s.setPair z i off v).bays = s.bays := (rfl)
@[simp] theorem State.setPair_latchOpen (z i off v : Nat) : (s.setPair z i off v).latchOpen = s.latchOpen := (rfl)
@[simp] theorem State.setPair_engineReset (z i off v : Nat) : (s.setPair z i off v).engineReset = s.engineReset := (rfl)
@[simp] theorem State.setPair_wrote (z i off v : Nat) : (s.setPair z i off v).wrote = s.wrote := (rfl)
@[simp] theorem State.setPair_mgmt (z i off v : Nat) : (s.setPair z i off v).mgmt = s.mgmt := (rfl)
@[simp] theorem State.setPair_fuses (z i off v : Nat) : (s.setPair z i off v).fuses = s.fuses := (rfl)
@[simp] theorem State.setPair_flash (z i off v : Nat) : (s.setPair z i off v).flash = s.flash := (rfl)
@[simp] theorem State.setPair_pins (z i off v : Nat) : (s.setPair z i off v).pins = s.pins := (rfl)
@[simp] theorem State.setPair_boot (z i off v : Nat) : (s.setPair z i off v).boot = s.boot := (rfl)

/-! ### bump -/

@[simp] theorem State.bump_pending (z i off n : Nat) : (s.bump z i off n).pending = s.pending := by unfold State.bump; split <;> simp
@[simp] theorem State.bump_fresh (z i off n : Nat) : (s.bump z i off n).fresh = s.fresh := by unfold State.bump; split <;> simp
@[simp] theorem State.bump_tick (z i off n : Nat) : (s.bump z i off n).tick = s.tick := by unfold State.bump; split <;> simp
@[simp] theorem State.bump_run (z i off n : Nat) : (s.bump z i off n).run = s.run := by unfold State.bump; split <;> simp
@[simp] theorem State.bump_startStep (z i off n : Nat) : (s.bump z i off n).startStep = s.startStep := by unfold State.bump; split <;> simp
@[simp] theorem State.bump_ready (z i off n : Nat) : (s.bump z i off n).ready = s.ready := by unfold State.bump; split <;> simp
@[simp] theorem State.bump_staged (z i off n : Nat) : (s.bump z i off n).staged = s.staged := by unfold State.bump; split <;> simp
@[simp] theorem State.bump_shadow (z i off n : Nat) : (s.bump z i off n).shadow = s.shadow := by unfold State.bump; split <;> simp
@[simp] theorem State.bump_snap (z i off n : Nat) : (s.bump z i off n).snap = s.snap := by unfold State.bump; split <;> simp
@[simp] theorem State.bump_snapHeld (z i off n : Nat) : (s.bump z i off n).snapHeld = s.snapHeld := by unfold State.bump; split <;> simp
@[simp] theorem State.bump_cntClr (z i off n : Nat) : (s.bump z i off n).cntClr = s.cntClr := by unfold State.bump; split <;> simp
@[simp] theorem State.bump_applyReq (z i off n : Nat) : (s.bump z i off n).applyReq = s.applyReq := by unfold State.bump; split <;> simp
@[simp] theorem State.bump_applyDue (z i off n : Nat) : (s.bump z i off n).applyDue = s.applyDue := by unfold State.bump; split <;> simp
@[simp] theorem State.bump_applyAt (z i off n : Nat) : (s.bump z i off n).applyAt = s.applyAt := by unfold State.bump; split <;> simp
@[simp] theorem State.bump_covered (z i off n : Nat) : (s.bump z i off n).covered = s.covered := by unfold State.bump; split <;> simp
@[simp] theorem State.bump_strobed (z i off n : Nat) : (s.bump z i off n).strobed = s.strobed := by unfold State.bump; split <;> simp
@[simp] theorem State.bump_snapReq (z i off n : Nat) : (s.bump z i off n).snapReq = s.snapReq := by unfold State.bump; split <;> simp
@[simp] theorem State.bump_snapArmed (z i off n : Nat) : (s.bump z i off n).snapArmed = s.snapArmed := by unfold State.bump; split <;> simp
@[simp] theorem State.bump_snapEdge (z i off n : Nat) : (s.bump z i off n).snapEdge = s.snapEdge := by unfold State.bump; split <;> simp
@[simp] theorem State.bump_elog (z i off n : Nat) : (s.bump z i off n).elog = s.elog := by unfold State.bump; split <;> simp
@[simp] theorem State.bump_nextSeq (z i off n : Nat) : (s.bump z i off n).nextSeq = s.nextSeq := by unfold State.bump; split <;> simp
@[simp] theorem State.bump_tickSeq (z i off n : Nat) : (s.bump z i off n).tickSeq = s.tickSeq := by unfold State.bump; split <;> simp
@[simp] theorem State.bump_through (z i off n : Nat) : (s.bump z i off n).through = s.through := by unfold State.bump; split <;> simp
@[simp] theorem State.bump_out (z i off n : Nat) : (s.bump z i off n).out = s.out := by unfold State.bump; split <;> simp
@[simp] theorem State.bump_quarters (z i off n : Nat) : (s.bump z i off n).quarters = s.quarters := by unfold State.bump; split <;> simp
@[simp] theorem State.bump_gov (z i off n : Nat) : (s.bump z i off n).gov = s.gov := by unfold State.bump; split <;> simp
@[simp] theorem State.bump_tickGen (z i off n : Nat) : (s.bump z i off n).tickGen = s.tickGen := by unfold State.bump; split <;> simp
@[simp] theorem State.bump_job (z i off n : Nat) : (s.bump z i off n).job = s.job := by unfold State.bump; split <;> simp
@[simp] theorem State.bump_cores (z i off n : Nat) : (s.bump z i off n).cores = s.cores := by unfold State.bump; split <;> simp
@[simp] theorem State.bump_stations (z i off n : Nat) : (s.bump z i off n).stations = s.stations := by unfold State.bump; split <;> simp
@[simp] theorem State.bump_mem (z i off n : Nat) : (s.bump z i off n).mem = s.mem := by unfold State.bump; split <;> simp
@[simp] theorem State.bump_memPoison (z i off n : Nat) : (s.bump z i off n).memPoison = s.memPoison := by unfold State.bump; split <;> simp
@[simp] theorem State.bump_reqs (z i off n : Nat) : (s.bump z i off n).reqs = s.reqs := by unfold State.bump; split <;> simp
@[simp] theorem State.bump_nextReq (z i off n : Nat) : (s.bump z i off n).nextReq = s.nextReq := by unfold State.bump; split <;> simp
@[simp] theorem State.bump_remotes (z i off n : Nat) : (s.bump z i off n).remotes = s.remotes := by unfold State.bump; split <;> simp
@[simp] theorem State.bump_held (z i off n : Nat) : (s.bump z i off n).held = s.held := by unfold State.bump; split <;> simp
@[simp] theorem State.bump_flight (z i off n : Nat) : (s.bump z i off n).flight = s.flight := by unfold State.bump; split <;> simp
@[simp] theorem State.bump_waiting (z i off n : Nat) : (s.bump z i off n).waiting = s.waiting := by unfold State.bump; split <;> simp
@[simp] theorem State.bump_admitted (z i off n : Nat) : (s.bump z i off n).admitted = s.admitted := by unfold State.bump; split <;> simp
@[simp] theorem State.bump_arrivals (z i off n : Nat) : (s.bump z i off n).arrivals = s.arrivals := by unfold State.bump; split <;> simp
@[simp] theorem State.bump_ctls (z i off n : Nat) : (s.bump z i off n).ctls = s.ctls := by unfold State.bump; split <;> simp
@[simp] theorem State.bump_tails (z i off n : Nat) : (s.bump z i off n).tails = s.tails := by unfold State.bump; split <;> simp
@[simp] theorem State.bump_parts (z i off n : Nat) : (s.bump z i off n).parts = s.parts := by unfold State.bump; split <;> simp
@[simp] theorem State.bump_whittle (z i off n : Nat) : (s.bump z i off n).whittle = s.whittle := by unfold State.bump; split <;> simp
@[simp] theorem State.bump_hsMail (z i off n : Nat) : (s.bump z i off n).hsMail = s.hsMail := by unfold State.bump; split <;> simp
@[simp] theorem State.bump_engines (z i off n : Nat) : (s.bump z i off n).engines = s.engines := by unfold State.bump; split <;> simp
@[simp] theorem State.bump_forwards (z i off n : Nat) : (s.bump z i off n).forwards = s.forwards := by unfold State.bump; split <;> simp
@[simp] theorem State.bump_nets (z i off n : Nat) : (s.bump z i off n).nets = s.nets := by unfold State.bump; split <;> simp
@[simp] theorem State.bump_ports (z i off n : Nat) : (s.bump z i off n).ports = s.ports := by unfold State.bump; split <;> simp
@[simp] theorem State.bump_qps (z i off n : Nat) : (s.bump z i off n).qps = s.qps := by unfold State.bump; split <;> simp
@[simp] theorem State.bump_tables (z i off n : Nat) : (s.bump z i off n).tables = s.tables := by unfold State.bump; split <;> simp
@[simp] theorem State.bump_bays (z i off n : Nat) : (s.bump z i off n).bays = s.bays := by unfold State.bump; split <;> simp
@[simp] theorem State.bump_latchOpen (z i off n : Nat) : (s.bump z i off n).latchOpen = s.latchOpen := by unfold State.bump; split <;> simp
@[simp] theorem State.bump_engineReset (z i off n : Nat) : (s.bump z i off n).engineReset = s.engineReset := by unfold State.bump; split <;> simp
@[simp] theorem State.bump_wrote (z i off n : Nat) : (s.bump z i off n).wrote = s.wrote := by unfold State.bump; split <;> simp
@[simp] theorem State.bump_mgmt (z i off n : Nat) : (s.bump z i off n).mgmt = s.mgmt := by unfold State.bump; split <;> simp
@[simp] theorem State.bump_fuses (z i off n : Nat) : (s.bump z i off n).fuses = s.fuses := by unfold State.bump; split <;> simp
@[simp] theorem State.bump_flash (z i off n : Nat) : (s.bump z i off n).flash = s.flash := by unfold State.bump; split <;> simp
@[simp] theorem State.bump_pins (z i off n : Nat) : (s.bump z i off n).pins = s.pins := by unfold State.bump; split <;> simp
@[simp] theorem State.bump_boot (z i off n : Nat) : (s.bump z i off n).boot = s.boot := by unfold State.bump; split <;> simp

/-! ### setQuarter -/

@[simp] theorem State.setQuarter_pending (d q : Nat) (x : Quarter) : (s.setQuarter d q x).pending = s.pending := (rfl)
@[simp] theorem State.setQuarter_fresh (d q : Nat) (x : Quarter) : (s.setQuarter d q x).fresh = s.fresh := (rfl)
@[simp] theorem State.setQuarter_tick (d q : Nat) (x : Quarter) : (s.setQuarter d q x).tick = s.tick := (rfl)
@[simp] theorem State.setQuarter_run (d q : Nat) (x : Quarter) : (s.setQuarter d q x).run = s.run := (rfl)
@[simp] theorem State.setQuarter_startStep (d q : Nat) (x : Quarter) : (s.setQuarter d q x).startStep = s.startStep := (rfl)
@[simp] theorem State.setQuarter_ready (d q : Nat) (x : Quarter) : (s.setQuarter d q x).ready = s.ready := (rfl)
@[simp] theorem State.setQuarter_regs (d q : Nat) (x : Quarter) : (s.setQuarter d q x).regs = s.regs := (rfl)
@[simp] theorem State.setQuarter_staged (d q : Nat) (x : Quarter) : (s.setQuarter d q x).staged = s.staged := (rfl)
@[simp] theorem State.setQuarter_shadow (d q : Nat) (x : Quarter) : (s.setQuarter d q x).shadow = s.shadow := (rfl)
@[simp] theorem State.setQuarter_snap (d q : Nat) (x : Quarter) : (s.setQuarter d q x).snap = s.snap := (rfl)
@[simp] theorem State.setQuarter_snapHeld (d q : Nat) (x : Quarter) : (s.setQuarter d q x).snapHeld = s.snapHeld := (rfl)
@[simp] theorem State.setQuarter_cntClr (d q : Nat) (x : Quarter) : (s.setQuarter d q x).cntClr = s.cntClr := (rfl)
@[simp] theorem State.setQuarter_applyReq (d q : Nat) (x : Quarter) : (s.setQuarter d q x).applyReq = s.applyReq := (rfl)
@[simp] theorem State.setQuarter_applyDue (d q : Nat) (x : Quarter) : (s.setQuarter d q x).applyDue = s.applyDue := (rfl)
@[simp] theorem State.setQuarter_applyAt (d q : Nat) (x : Quarter) : (s.setQuarter d q x).applyAt = s.applyAt := (rfl)
@[simp] theorem State.setQuarter_covered (d q : Nat) (x : Quarter) : (s.setQuarter d q x).covered = s.covered := (rfl)
@[simp] theorem State.setQuarter_strobed (d q : Nat) (x : Quarter) : (s.setQuarter d q x).strobed = s.strobed := (rfl)
@[simp] theorem State.setQuarter_snapReq (d q : Nat) (x : Quarter) : (s.setQuarter d q x).snapReq = s.snapReq := (rfl)
@[simp] theorem State.setQuarter_snapArmed (d q : Nat) (x : Quarter) : (s.setQuarter d q x).snapArmed = s.snapArmed := (rfl)
@[simp] theorem State.setQuarter_snapEdge (d q : Nat) (x : Quarter) : (s.setQuarter d q x).snapEdge = s.snapEdge := (rfl)
@[simp] theorem State.setQuarter_elog (d q : Nat) (x : Quarter) : (s.setQuarter d q x).elog = s.elog := (rfl)
@[simp] theorem State.setQuarter_nextSeq (d q : Nat) (x : Quarter) : (s.setQuarter d q x).nextSeq = s.nextSeq := (rfl)
@[simp] theorem State.setQuarter_tickSeq (d q : Nat) (x : Quarter) : (s.setQuarter d q x).tickSeq = s.tickSeq := (rfl)
@[simp] theorem State.setQuarter_through (d q : Nat) (x : Quarter) : (s.setQuarter d q x).through = s.through := (rfl)
@[simp] theorem State.setQuarter_out (d q : Nat) (x : Quarter) : (s.setQuarter d q x).out = s.out := (rfl)
@[simp] theorem State.setQuarter_gov (d q : Nat) (x : Quarter) : (s.setQuarter d q x).gov = s.gov := (rfl)
@[simp] theorem State.setQuarter_tickGen (d q : Nat) (x : Quarter) : (s.setQuarter d q x).tickGen = s.tickGen := (rfl)
@[simp] theorem State.setQuarter_job (d q : Nat) (x : Quarter) : (s.setQuarter d q x).job = s.job := (rfl)
@[simp] theorem State.setQuarter_cores (d q : Nat) (x : Quarter) : (s.setQuarter d q x).cores = s.cores := (rfl)
@[simp] theorem State.setQuarter_stations (d q : Nat) (x : Quarter) : (s.setQuarter d q x).stations = s.stations := (rfl)
@[simp] theorem State.setQuarter_mem (d q : Nat) (x : Quarter) : (s.setQuarter d q x).mem = s.mem := (rfl)
@[simp] theorem State.setQuarter_memPoison (d q : Nat) (x : Quarter) : (s.setQuarter d q x).memPoison = s.memPoison := (rfl)
@[simp] theorem State.setQuarter_reqs (d q : Nat) (x : Quarter) : (s.setQuarter d q x).reqs = s.reqs := (rfl)
@[simp] theorem State.setQuarter_nextReq (d q : Nat) (x : Quarter) : (s.setQuarter d q x).nextReq = s.nextReq := (rfl)
@[simp] theorem State.setQuarter_remotes (d q : Nat) (x : Quarter) : (s.setQuarter d q x).remotes = s.remotes := (rfl)
@[simp] theorem State.setQuarter_held (d q : Nat) (x : Quarter) : (s.setQuarter d q x).held = s.held := (rfl)
@[simp] theorem State.setQuarter_flight (d q : Nat) (x : Quarter) : (s.setQuarter d q x).flight = s.flight := (rfl)
@[simp] theorem State.setQuarter_waiting (d q : Nat) (x : Quarter) : (s.setQuarter d q x).waiting = s.waiting := (rfl)
@[simp] theorem State.setQuarter_admitted (d q : Nat) (x : Quarter) : (s.setQuarter d q x).admitted = s.admitted := (rfl)
@[simp] theorem State.setQuarter_arrivals (d q : Nat) (x : Quarter) : (s.setQuarter d q x).arrivals = s.arrivals := (rfl)
@[simp] theorem State.setQuarter_ctls (d q : Nat) (x : Quarter) : (s.setQuarter d q x).ctls = s.ctls := (rfl)
@[simp] theorem State.setQuarter_tails (d q : Nat) (x : Quarter) : (s.setQuarter d q x).tails = s.tails := (rfl)
@[simp] theorem State.setQuarter_parts (d q : Nat) (x : Quarter) : (s.setQuarter d q x).parts = s.parts := (rfl)
@[simp] theorem State.setQuarter_whittle (d q : Nat) (x : Quarter) : (s.setQuarter d q x).whittle = s.whittle := (rfl)
@[simp] theorem State.setQuarter_hsMail (d q : Nat) (x : Quarter) : (s.setQuarter d q x).hsMail = s.hsMail := (rfl)
@[simp] theorem State.setQuarter_engines (d q : Nat) (x : Quarter) : (s.setQuarter d q x).engines = s.engines := (rfl)
@[simp] theorem State.setQuarter_forwards (d q : Nat) (x : Quarter) : (s.setQuarter d q x).forwards = s.forwards := (rfl)
@[simp] theorem State.setQuarter_nets (d q : Nat) (x : Quarter) : (s.setQuarter d q x).nets = s.nets := (rfl)
@[simp] theorem State.setQuarter_ports (d q : Nat) (x : Quarter) : (s.setQuarter d q x).ports = s.ports := (rfl)
@[simp] theorem State.setQuarter_qps (d q : Nat) (x : Quarter) : (s.setQuarter d q x).qps = s.qps := (rfl)
@[simp] theorem State.setQuarter_tables (d q : Nat) (x : Quarter) : (s.setQuarter d q x).tables = s.tables := (rfl)
@[simp] theorem State.setQuarter_bays (d q : Nat) (x : Quarter) : (s.setQuarter d q x).bays = s.bays := (rfl)
@[simp] theorem State.setQuarter_latchOpen (d q : Nat) (x : Quarter) : (s.setQuarter d q x).latchOpen = s.latchOpen := (rfl)
@[simp] theorem State.setQuarter_engineReset (d q : Nat) (x : Quarter) : (s.setQuarter d q x).engineReset = s.engineReset := (rfl)
@[simp] theorem State.setQuarter_wrote (d q : Nat) (x : Quarter) : (s.setQuarter d q x).wrote = s.wrote := (rfl)
@[simp] theorem State.setQuarter_mgmt (d q : Nat) (x : Quarter) : (s.setQuarter d q x).mgmt = s.mgmt := (rfl)
@[simp] theorem State.setQuarter_fuses (d q : Nat) (x : Quarter) : (s.setQuarter d q x).fuses = s.fuses := (rfl)
@[simp] theorem State.setQuarter_flash (d q : Nat) (x : Quarter) : (s.setQuarter d q x).flash = s.flash := (rfl)
@[simp] theorem State.setQuarter_pins (d q : Nat) (x : Quarter) : (s.setQuarter d q x).pins = s.pins := (rfl)
@[simp] theorem State.setQuarter_boot (d q : Nat) (x : Quarter) : (s.setQuarter d q x).boot = s.boot := (rfl)

/-! ### setCore -/

@[simp] theorem State.setCore_pending (d c : Nat) (x : Core) : (s.setCore d c x).pending = s.pending := (rfl)
@[simp] theorem State.setCore_fresh (d c : Nat) (x : Core) : (s.setCore d c x).fresh = s.fresh := (rfl)
@[simp] theorem State.setCore_tick (d c : Nat) (x : Core) : (s.setCore d c x).tick = s.tick := (rfl)
@[simp] theorem State.setCore_run (d c : Nat) (x : Core) : (s.setCore d c x).run = s.run := (rfl)
@[simp] theorem State.setCore_startStep (d c : Nat) (x : Core) : (s.setCore d c x).startStep = s.startStep := (rfl)
@[simp] theorem State.setCore_ready (d c : Nat) (x : Core) : (s.setCore d c x).ready = s.ready := (rfl)
@[simp] theorem State.setCore_regs (d c : Nat) (x : Core) : (s.setCore d c x).regs = s.regs := (rfl)
@[simp] theorem State.setCore_staged (d c : Nat) (x : Core) : (s.setCore d c x).staged = s.staged := (rfl)
@[simp] theorem State.setCore_shadow (d c : Nat) (x : Core) : (s.setCore d c x).shadow = s.shadow := (rfl)
@[simp] theorem State.setCore_snap (d c : Nat) (x : Core) : (s.setCore d c x).snap = s.snap := (rfl)
@[simp] theorem State.setCore_snapHeld (d c : Nat) (x : Core) : (s.setCore d c x).snapHeld = s.snapHeld := (rfl)
@[simp] theorem State.setCore_cntClr (d c : Nat) (x : Core) : (s.setCore d c x).cntClr = s.cntClr := (rfl)
@[simp] theorem State.setCore_applyReq (d c : Nat) (x : Core) : (s.setCore d c x).applyReq = s.applyReq := (rfl)
@[simp] theorem State.setCore_applyDue (d c : Nat) (x : Core) : (s.setCore d c x).applyDue = s.applyDue := (rfl)
@[simp] theorem State.setCore_applyAt (d c : Nat) (x : Core) : (s.setCore d c x).applyAt = s.applyAt := (rfl)
@[simp] theorem State.setCore_covered (d c : Nat) (x : Core) : (s.setCore d c x).covered = s.covered := (rfl)
@[simp] theorem State.setCore_strobed (d c : Nat) (x : Core) : (s.setCore d c x).strobed = s.strobed := (rfl)
@[simp] theorem State.setCore_snapReq (d c : Nat) (x : Core) : (s.setCore d c x).snapReq = s.snapReq := (rfl)
@[simp] theorem State.setCore_snapArmed (d c : Nat) (x : Core) : (s.setCore d c x).snapArmed = s.snapArmed := (rfl)
@[simp] theorem State.setCore_snapEdge (d c : Nat) (x : Core) : (s.setCore d c x).snapEdge = s.snapEdge := (rfl)
@[simp] theorem State.setCore_elog (d c : Nat) (x : Core) : (s.setCore d c x).elog = s.elog := (rfl)
@[simp] theorem State.setCore_nextSeq (d c : Nat) (x : Core) : (s.setCore d c x).nextSeq = s.nextSeq := (rfl)
@[simp] theorem State.setCore_tickSeq (d c : Nat) (x : Core) : (s.setCore d c x).tickSeq = s.tickSeq := (rfl)
@[simp] theorem State.setCore_through (d c : Nat) (x : Core) : (s.setCore d c x).through = s.through := (rfl)
@[simp] theorem State.setCore_out (d c : Nat) (x : Core) : (s.setCore d c x).out = s.out := (rfl)
@[simp] theorem State.setCore_quarters (d c : Nat) (x : Core) : (s.setCore d c x).quarters = s.quarters := (rfl)
@[simp] theorem State.setCore_gov (d c : Nat) (x : Core) : (s.setCore d c x).gov = s.gov := (rfl)
@[simp] theorem State.setCore_tickGen (d c : Nat) (x : Core) : (s.setCore d c x).tickGen = s.tickGen := (rfl)
@[simp] theorem State.setCore_job (d c : Nat) (x : Core) : (s.setCore d c x).job = s.job := (rfl)
@[simp] theorem State.setCore_stations (d c : Nat) (x : Core) : (s.setCore d c x).stations = s.stations := (rfl)
@[simp] theorem State.setCore_mem (d c : Nat) (x : Core) : (s.setCore d c x).mem = s.mem := (rfl)
@[simp] theorem State.setCore_memPoison (d c : Nat) (x : Core) : (s.setCore d c x).memPoison = s.memPoison := (rfl)
@[simp] theorem State.setCore_reqs (d c : Nat) (x : Core) : (s.setCore d c x).reqs = s.reqs := (rfl)
@[simp] theorem State.setCore_nextReq (d c : Nat) (x : Core) : (s.setCore d c x).nextReq = s.nextReq := (rfl)
@[simp] theorem State.setCore_remotes (d c : Nat) (x : Core) : (s.setCore d c x).remotes = s.remotes := (rfl)
@[simp] theorem State.setCore_held (d c : Nat) (x : Core) : (s.setCore d c x).held = s.held := (rfl)
@[simp] theorem State.setCore_flight (d c : Nat) (x : Core) : (s.setCore d c x).flight = s.flight := (rfl)
@[simp] theorem State.setCore_waiting (d c : Nat) (x : Core) : (s.setCore d c x).waiting = s.waiting := (rfl)
@[simp] theorem State.setCore_admitted (d c : Nat) (x : Core) : (s.setCore d c x).admitted = s.admitted := (rfl)
@[simp] theorem State.setCore_arrivals (d c : Nat) (x : Core) : (s.setCore d c x).arrivals = s.arrivals := (rfl)
@[simp] theorem State.setCore_ctls (d c : Nat) (x : Core) : (s.setCore d c x).ctls = s.ctls := (rfl)
@[simp] theorem State.setCore_tails (d c : Nat) (x : Core) : (s.setCore d c x).tails = s.tails := (rfl)
@[simp] theorem State.setCore_parts (d c : Nat) (x : Core) : (s.setCore d c x).parts = s.parts := (rfl)
@[simp] theorem State.setCore_whittle (d c : Nat) (x : Core) : (s.setCore d c x).whittle = s.whittle := (rfl)
@[simp] theorem State.setCore_hsMail (d c : Nat) (x : Core) : (s.setCore d c x).hsMail = s.hsMail := (rfl)
@[simp] theorem State.setCore_engines (d c : Nat) (x : Core) : (s.setCore d c x).engines = s.engines := (rfl)
@[simp] theorem State.setCore_forwards (d c : Nat) (x : Core) : (s.setCore d c x).forwards = s.forwards := (rfl)
@[simp] theorem State.setCore_nets (d c : Nat) (x : Core) : (s.setCore d c x).nets = s.nets := (rfl)
@[simp] theorem State.setCore_ports (d c : Nat) (x : Core) : (s.setCore d c x).ports = s.ports := (rfl)
@[simp] theorem State.setCore_qps (d c : Nat) (x : Core) : (s.setCore d c x).qps = s.qps := (rfl)
@[simp] theorem State.setCore_tables (d c : Nat) (x : Core) : (s.setCore d c x).tables = s.tables := (rfl)
@[simp] theorem State.setCore_bays (d c : Nat) (x : Core) : (s.setCore d c x).bays = s.bays := (rfl)
@[simp] theorem State.setCore_latchOpen (d c : Nat) (x : Core) : (s.setCore d c x).latchOpen = s.latchOpen := (rfl)
@[simp] theorem State.setCore_engineReset (d c : Nat) (x : Core) : (s.setCore d c x).engineReset = s.engineReset := (rfl)
@[simp] theorem State.setCore_wrote (d c : Nat) (x : Core) : (s.setCore d c x).wrote = s.wrote := (rfl)
@[simp] theorem State.setCore_mgmt (d c : Nat) (x : Core) : (s.setCore d c x).mgmt = s.mgmt := (rfl)
@[simp] theorem State.setCore_fuses (d c : Nat) (x : Core) : (s.setCore d c x).fuses = s.fuses := (rfl)
@[simp] theorem State.setCore_flash (d c : Nat) (x : Core) : (s.setCore d c x).flash = s.flash := (rfl)
@[simp] theorem State.setCore_pins (d c : Nat) (x : Core) : (s.setCore d c x).pins = s.pins := (rfl)
@[simp] theorem State.setCore_boot (d c : Nat) (x : Core) : (s.setCore d c x).boot = s.boot := (rfl)

/-! ### setStation -/

@[simp] theorem State.setStation_pending (d t : Nat) (x : Station) : (s.setStation d t x).pending = s.pending := (rfl)
@[simp] theorem State.setStation_fresh (d t : Nat) (x : Station) : (s.setStation d t x).fresh = s.fresh := (rfl)
@[simp] theorem State.setStation_tick (d t : Nat) (x : Station) : (s.setStation d t x).tick = s.tick := (rfl)
@[simp] theorem State.setStation_run (d t : Nat) (x : Station) : (s.setStation d t x).run = s.run := (rfl)
@[simp] theorem State.setStation_startStep (d t : Nat) (x : Station) : (s.setStation d t x).startStep = s.startStep := (rfl)
@[simp] theorem State.setStation_ready (d t : Nat) (x : Station) : (s.setStation d t x).ready = s.ready := (rfl)
@[simp] theorem State.setStation_regs (d t : Nat) (x : Station) : (s.setStation d t x).regs = s.regs := (rfl)
@[simp] theorem State.setStation_staged (d t : Nat) (x : Station) : (s.setStation d t x).staged = s.staged := (rfl)
@[simp] theorem State.setStation_shadow (d t : Nat) (x : Station) : (s.setStation d t x).shadow = s.shadow := (rfl)
@[simp] theorem State.setStation_snap (d t : Nat) (x : Station) : (s.setStation d t x).snap = s.snap := (rfl)
@[simp] theorem State.setStation_snapHeld (d t : Nat) (x : Station) : (s.setStation d t x).snapHeld = s.snapHeld := (rfl)
@[simp] theorem State.setStation_cntClr (d t : Nat) (x : Station) : (s.setStation d t x).cntClr = s.cntClr := (rfl)
@[simp] theorem State.setStation_applyReq (d t : Nat) (x : Station) : (s.setStation d t x).applyReq = s.applyReq := (rfl)
@[simp] theorem State.setStation_applyDue (d t : Nat) (x : Station) : (s.setStation d t x).applyDue = s.applyDue := (rfl)
@[simp] theorem State.setStation_applyAt (d t : Nat) (x : Station) : (s.setStation d t x).applyAt = s.applyAt := (rfl)
@[simp] theorem State.setStation_covered (d t : Nat) (x : Station) : (s.setStation d t x).covered = s.covered := (rfl)
@[simp] theorem State.setStation_strobed (d t : Nat) (x : Station) : (s.setStation d t x).strobed = s.strobed := (rfl)
@[simp] theorem State.setStation_snapReq (d t : Nat) (x : Station) : (s.setStation d t x).snapReq = s.snapReq := (rfl)
@[simp] theorem State.setStation_snapArmed (d t : Nat) (x : Station) : (s.setStation d t x).snapArmed = s.snapArmed := (rfl)
@[simp] theorem State.setStation_snapEdge (d t : Nat) (x : Station) : (s.setStation d t x).snapEdge = s.snapEdge := (rfl)
@[simp] theorem State.setStation_elog (d t : Nat) (x : Station) : (s.setStation d t x).elog = s.elog := (rfl)
@[simp] theorem State.setStation_nextSeq (d t : Nat) (x : Station) : (s.setStation d t x).nextSeq = s.nextSeq := (rfl)
@[simp] theorem State.setStation_tickSeq (d t : Nat) (x : Station) : (s.setStation d t x).tickSeq = s.tickSeq := (rfl)
@[simp] theorem State.setStation_through (d t : Nat) (x : Station) : (s.setStation d t x).through = s.through := (rfl)
@[simp] theorem State.setStation_out (d t : Nat) (x : Station) : (s.setStation d t x).out = s.out := (rfl)
@[simp] theorem State.setStation_quarters (d t : Nat) (x : Station) : (s.setStation d t x).quarters = s.quarters := (rfl)
@[simp] theorem State.setStation_gov (d t : Nat) (x : Station) : (s.setStation d t x).gov = s.gov := (rfl)
@[simp] theorem State.setStation_tickGen (d t : Nat) (x : Station) : (s.setStation d t x).tickGen = s.tickGen := (rfl)
@[simp] theorem State.setStation_job (d t : Nat) (x : Station) : (s.setStation d t x).job = s.job := (rfl)
@[simp] theorem State.setStation_cores (d t : Nat) (x : Station) : (s.setStation d t x).cores = s.cores := (rfl)
@[simp] theorem State.setStation_mem (d t : Nat) (x : Station) : (s.setStation d t x).mem = s.mem := (rfl)
@[simp] theorem State.setStation_memPoison (d t : Nat) (x : Station) : (s.setStation d t x).memPoison = s.memPoison := (rfl)
@[simp] theorem State.setStation_reqs (d t : Nat) (x : Station) : (s.setStation d t x).reqs = s.reqs := (rfl)
@[simp] theorem State.setStation_nextReq (d t : Nat) (x : Station) : (s.setStation d t x).nextReq = s.nextReq := (rfl)
@[simp] theorem State.setStation_remotes (d t : Nat) (x : Station) : (s.setStation d t x).remotes = s.remotes := (rfl)
@[simp] theorem State.setStation_held (d t : Nat) (x : Station) : (s.setStation d t x).held = s.held := (rfl)
@[simp] theorem State.setStation_flight (d t : Nat) (x : Station) : (s.setStation d t x).flight = s.flight := (rfl)
@[simp] theorem State.setStation_waiting (d t : Nat) (x : Station) : (s.setStation d t x).waiting = s.waiting := (rfl)
@[simp] theorem State.setStation_admitted (d t : Nat) (x : Station) : (s.setStation d t x).admitted = s.admitted := (rfl)
@[simp] theorem State.setStation_arrivals (d t : Nat) (x : Station) : (s.setStation d t x).arrivals = s.arrivals := (rfl)
@[simp] theorem State.setStation_ctls (d t : Nat) (x : Station) : (s.setStation d t x).ctls = s.ctls := (rfl)
@[simp] theorem State.setStation_tails (d t : Nat) (x : Station) : (s.setStation d t x).tails = s.tails := (rfl)
@[simp] theorem State.setStation_parts (d t : Nat) (x : Station) : (s.setStation d t x).parts = s.parts := (rfl)
@[simp] theorem State.setStation_whittle (d t : Nat) (x : Station) : (s.setStation d t x).whittle = s.whittle := (rfl)
@[simp] theorem State.setStation_hsMail (d t : Nat) (x : Station) : (s.setStation d t x).hsMail = s.hsMail := (rfl)
@[simp] theorem State.setStation_engines (d t : Nat) (x : Station) : (s.setStation d t x).engines = s.engines := (rfl)
@[simp] theorem State.setStation_forwards (d t : Nat) (x : Station) : (s.setStation d t x).forwards = s.forwards := (rfl)
@[simp] theorem State.setStation_nets (d t : Nat) (x : Station) : (s.setStation d t x).nets = s.nets := (rfl)
@[simp] theorem State.setStation_ports (d t : Nat) (x : Station) : (s.setStation d t x).ports = s.ports := (rfl)
@[simp] theorem State.setStation_qps (d t : Nat) (x : Station) : (s.setStation d t x).qps = s.qps := (rfl)
@[simp] theorem State.setStation_tables (d t : Nat) (x : Station) : (s.setStation d t x).tables = s.tables := (rfl)
@[simp] theorem State.setStation_bays (d t : Nat) (x : Station) : (s.setStation d t x).bays = s.bays := (rfl)
@[simp] theorem State.setStation_latchOpen (d t : Nat) (x : Station) : (s.setStation d t x).latchOpen = s.latchOpen := (rfl)
@[simp] theorem State.setStation_engineReset (d t : Nat) (x : Station) : (s.setStation d t x).engineReset = s.engineReset := (rfl)
@[simp] theorem State.setStation_wrote (d t : Nat) (x : Station) : (s.setStation d t x).wrote = s.wrote := (rfl)
@[simp] theorem State.setStation_mgmt (d t : Nat) (x : Station) : (s.setStation d t x).mgmt = s.mgmt := (rfl)
@[simp] theorem State.setStation_fuses (d t : Nat) (x : Station) : (s.setStation d t x).fuses = s.fuses := (rfl)
@[simp] theorem State.setStation_flash (d t : Nat) (x : Station) : (s.setStation d t x).flash = s.flash := (rfl)
@[simp] theorem State.setStation_pins (d t : Nat) (x : Station) : (s.setStation d t x).pins = s.pins := (rfl)
@[simp] theorem State.setStation_boot (d t : Nat) (x : Station) : (s.setStation d t x).boot = s.boot := (rfl)

/-! ### setPart -/

@[simp] theorem State.setPart_pending (d q : Nat) (x : Parting) : (s.setPart d q x).pending = s.pending := (rfl)
@[simp] theorem State.setPart_fresh (d q : Nat) (x : Parting) : (s.setPart d q x).fresh = s.fresh := (rfl)
@[simp] theorem State.setPart_tick (d q : Nat) (x : Parting) : (s.setPart d q x).tick = s.tick := (rfl)
@[simp] theorem State.setPart_run (d q : Nat) (x : Parting) : (s.setPart d q x).run = s.run := (rfl)
@[simp] theorem State.setPart_startStep (d q : Nat) (x : Parting) : (s.setPart d q x).startStep = s.startStep := (rfl)
@[simp] theorem State.setPart_ready (d q : Nat) (x : Parting) : (s.setPart d q x).ready = s.ready := (rfl)
@[simp] theorem State.setPart_regs (d q : Nat) (x : Parting) : (s.setPart d q x).regs = s.regs := (rfl)
@[simp] theorem State.setPart_staged (d q : Nat) (x : Parting) : (s.setPart d q x).staged = s.staged := (rfl)
@[simp] theorem State.setPart_shadow (d q : Nat) (x : Parting) : (s.setPart d q x).shadow = s.shadow := (rfl)
@[simp] theorem State.setPart_snap (d q : Nat) (x : Parting) : (s.setPart d q x).snap = s.snap := (rfl)
@[simp] theorem State.setPart_snapHeld (d q : Nat) (x : Parting) : (s.setPart d q x).snapHeld = s.snapHeld := (rfl)
@[simp] theorem State.setPart_cntClr (d q : Nat) (x : Parting) : (s.setPart d q x).cntClr = s.cntClr := (rfl)
@[simp] theorem State.setPart_applyReq (d q : Nat) (x : Parting) : (s.setPart d q x).applyReq = s.applyReq := (rfl)
@[simp] theorem State.setPart_applyDue (d q : Nat) (x : Parting) : (s.setPart d q x).applyDue = s.applyDue := (rfl)
@[simp] theorem State.setPart_applyAt (d q : Nat) (x : Parting) : (s.setPart d q x).applyAt = s.applyAt := (rfl)
@[simp] theorem State.setPart_covered (d q : Nat) (x : Parting) : (s.setPart d q x).covered = s.covered := (rfl)
@[simp] theorem State.setPart_strobed (d q : Nat) (x : Parting) : (s.setPart d q x).strobed = s.strobed := (rfl)
@[simp] theorem State.setPart_snapReq (d q : Nat) (x : Parting) : (s.setPart d q x).snapReq = s.snapReq := (rfl)
@[simp] theorem State.setPart_snapArmed (d q : Nat) (x : Parting) : (s.setPart d q x).snapArmed = s.snapArmed := (rfl)
@[simp] theorem State.setPart_snapEdge (d q : Nat) (x : Parting) : (s.setPart d q x).snapEdge = s.snapEdge := (rfl)
@[simp] theorem State.setPart_elog (d q : Nat) (x : Parting) : (s.setPart d q x).elog = s.elog := (rfl)
@[simp] theorem State.setPart_nextSeq (d q : Nat) (x : Parting) : (s.setPart d q x).nextSeq = s.nextSeq := (rfl)
@[simp] theorem State.setPart_tickSeq (d q : Nat) (x : Parting) : (s.setPart d q x).tickSeq = s.tickSeq := (rfl)
@[simp] theorem State.setPart_through (d q : Nat) (x : Parting) : (s.setPart d q x).through = s.through := (rfl)
@[simp] theorem State.setPart_out (d q : Nat) (x : Parting) : (s.setPart d q x).out = s.out := (rfl)
@[simp] theorem State.setPart_quarters (d q : Nat) (x : Parting) : (s.setPart d q x).quarters = s.quarters := (rfl)
@[simp] theorem State.setPart_gov (d q : Nat) (x : Parting) : (s.setPart d q x).gov = s.gov := (rfl)
@[simp] theorem State.setPart_tickGen (d q : Nat) (x : Parting) : (s.setPart d q x).tickGen = s.tickGen := (rfl)
@[simp] theorem State.setPart_job (d q : Nat) (x : Parting) : (s.setPart d q x).job = s.job := (rfl)
@[simp] theorem State.setPart_cores (d q : Nat) (x : Parting) : (s.setPart d q x).cores = s.cores := (rfl)
@[simp] theorem State.setPart_stations (d q : Nat) (x : Parting) : (s.setPart d q x).stations = s.stations := (rfl)
@[simp] theorem State.setPart_mem (d q : Nat) (x : Parting) : (s.setPart d q x).mem = s.mem := (rfl)
@[simp] theorem State.setPart_memPoison (d q : Nat) (x : Parting) : (s.setPart d q x).memPoison = s.memPoison := (rfl)
@[simp] theorem State.setPart_reqs (d q : Nat) (x : Parting) : (s.setPart d q x).reqs = s.reqs := (rfl)
@[simp] theorem State.setPart_nextReq (d q : Nat) (x : Parting) : (s.setPart d q x).nextReq = s.nextReq := (rfl)
@[simp] theorem State.setPart_remotes (d q : Nat) (x : Parting) : (s.setPart d q x).remotes = s.remotes := (rfl)
@[simp] theorem State.setPart_held (d q : Nat) (x : Parting) : (s.setPart d q x).held = s.held := (rfl)
@[simp] theorem State.setPart_flight (d q : Nat) (x : Parting) : (s.setPart d q x).flight = s.flight := (rfl)
@[simp] theorem State.setPart_waiting (d q : Nat) (x : Parting) : (s.setPart d q x).waiting = s.waiting := (rfl)
@[simp] theorem State.setPart_admitted (d q : Nat) (x : Parting) : (s.setPart d q x).admitted = s.admitted := (rfl)
@[simp] theorem State.setPart_arrivals (d q : Nat) (x : Parting) : (s.setPart d q x).arrivals = s.arrivals := (rfl)
@[simp] theorem State.setPart_ctls (d q : Nat) (x : Parting) : (s.setPart d q x).ctls = s.ctls := (rfl)
@[simp] theorem State.setPart_tails (d q : Nat) (x : Parting) : (s.setPart d q x).tails = s.tails := (rfl)
@[simp] theorem State.setPart_whittle (d q : Nat) (x : Parting) : (s.setPart d q x).whittle = s.whittle := (rfl)
@[simp] theorem State.setPart_hsMail (d q : Nat) (x : Parting) : (s.setPart d q x).hsMail = s.hsMail := (rfl)
@[simp] theorem State.setPart_engines (d q : Nat) (x : Parting) : (s.setPart d q x).engines = s.engines := (rfl)
@[simp] theorem State.setPart_forwards (d q : Nat) (x : Parting) : (s.setPart d q x).forwards = s.forwards := (rfl)
@[simp] theorem State.setPart_nets (d q : Nat) (x : Parting) : (s.setPart d q x).nets = s.nets := (rfl)
@[simp] theorem State.setPart_ports (d q : Nat) (x : Parting) : (s.setPart d q x).ports = s.ports := (rfl)
@[simp] theorem State.setPart_qps (d q : Nat) (x : Parting) : (s.setPart d q x).qps = s.qps := (rfl)
@[simp] theorem State.setPart_tables (d q : Nat) (x : Parting) : (s.setPart d q x).tables = s.tables := (rfl)
@[simp] theorem State.setPart_bays (d q : Nat) (x : Parting) : (s.setPart d q x).bays = s.bays := (rfl)
@[simp] theorem State.setPart_latchOpen (d q : Nat) (x : Parting) : (s.setPart d q x).latchOpen = s.latchOpen := (rfl)
@[simp] theorem State.setPart_engineReset (d q : Nat) (x : Parting) : (s.setPart d q x).engineReset = s.engineReset := (rfl)
@[simp] theorem State.setPart_wrote (d q : Nat) (x : Parting) : (s.setPart d q x).wrote = s.wrote := (rfl)
@[simp] theorem State.setPart_mgmt (d q : Nat) (x : Parting) : (s.setPart d q x).mgmt = s.mgmt := (rfl)
@[simp] theorem State.setPart_fuses (d q : Nat) (x : Parting) : (s.setPart d q x).fuses = s.fuses := (rfl)
@[simp] theorem State.setPart_flash (d q : Nat) (x : Parting) : (s.setPart d q x).flash = s.flash := (rfl)
@[simp] theorem State.setPart_pins (d q : Nat) (x : Parting) : (s.setPart d q x).pins = s.pins := (rfl)
@[simp] theorem State.setPart_boot (d q : Nat) (x : Parting) : (s.setPart d q x).boot = s.boot := (rfl)

/-! ### setCtl -/

@[simp] theorem State.setCtl_pending (d c : Nat) (x : Ctl) : (s.setCtl d c x).pending = s.pending := (rfl)
@[simp] theorem State.setCtl_fresh (d c : Nat) (x : Ctl) : (s.setCtl d c x).fresh = s.fresh := (rfl)
@[simp] theorem State.setCtl_tick (d c : Nat) (x : Ctl) : (s.setCtl d c x).tick = s.tick := (rfl)
@[simp] theorem State.setCtl_run (d c : Nat) (x : Ctl) : (s.setCtl d c x).run = s.run := (rfl)
@[simp] theorem State.setCtl_startStep (d c : Nat) (x : Ctl) : (s.setCtl d c x).startStep = s.startStep := (rfl)
@[simp] theorem State.setCtl_ready (d c : Nat) (x : Ctl) : (s.setCtl d c x).ready = s.ready := (rfl)
@[simp] theorem State.setCtl_regs (d c : Nat) (x : Ctl) : (s.setCtl d c x).regs = s.regs := (rfl)
@[simp] theorem State.setCtl_staged (d c : Nat) (x : Ctl) : (s.setCtl d c x).staged = s.staged := (rfl)
@[simp] theorem State.setCtl_shadow (d c : Nat) (x : Ctl) : (s.setCtl d c x).shadow = s.shadow := (rfl)
@[simp] theorem State.setCtl_snap (d c : Nat) (x : Ctl) : (s.setCtl d c x).snap = s.snap := (rfl)
@[simp] theorem State.setCtl_snapHeld (d c : Nat) (x : Ctl) : (s.setCtl d c x).snapHeld = s.snapHeld := (rfl)
@[simp] theorem State.setCtl_cntClr (d c : Nat) (x : Ctl) : (s.setCtl d c x).cntClr = s.cntClr := (rfl)
@[simp] theorem State.setCtl_applyReq (d c : Nat) (x : Ctl) : (s.setCtl d c x).applyReq = s.applyReq := (rfl)
@[simp] theorem State.setCtl_applyDue (d c : Nat) (x : Ctl) : (s.setCtl d c x).applyDue = s.applyDue := (rfl)
@[simp] theorem State.setCtl_applyAt (d c : Nat) (x : Ctl) : (s.setCtl d c x).applyAt = s.applyAt := (rfl)
@[simp] theorem State.setCtl_covered (d c : Nat) (x : Ctl) : (s.setCtl d c x).covered = s.covered := (rfl)
@[simp] theorem State.setCtl_strobed (d c : Nat) (x : Ctl) : (s.setCtl d c x).strobed = s.strobed := (rfl)
@[simp] theorem State.setCtl_snapReq (d c : Nat) (x : Ctl) : (s.setCtl d c x).snapReq = s.snapReq := (rfl)
@[simp] theorem State.setCtl_snapArmed (d c : Nat) (x : Ctl) : (s.setCtl d c x).snapArmed = s.snapArmed := (rfl)
@[simp] theorem State.setCtl_snapEdge (d c : Nat) (x : Ctl) : (s.setCtl d c x).snapEdge = s.snapEdge := (rfl)
@[simp] theorem State.setCtl_elog (d c : Nat) (x : Ctl) : (s.setCtl d c x).elog = s.elog := (rfl)
@[simp] theorem State.setCtl_nextSeq (d c : Nat) (x : Ctl) : (s.setCtl d c x).nextSeq = s.nextSeq := (rfl)
@[simp] theorem State.setCtl_tickSeq (d c : Nat) (x : Ctl) : (s.setCtl d c x).tickSeq = s.tickSeq := (rfl)
@[simp] theorem State.setCtl_through (d c : Nat) (x : Ctl) : (s.setCtl d c x).through = s.through := (rfl)
@[simp] theorem State.setCtl_out (d c : Nat) (x : Ctl) : (s.setCtl d c x).out = s.out := (rfl)
@[simp] theorem State.setCtl_quarters (d c : Nat) (x : Ctl) : (s.setCtl d c x).quarters = s.quarters := (rfl)
@[simp] theorem State.setCtl_gov (d c : Nat) (x : Ctl) : (s.setCtl d c x).gov = s.gov := (rfl)
@[simp] theorem State.setCtl_tickGen (d c : Nat) (x : Ctl) : (s.setCtl d c x).tickGen = s.tickGen := (rfl)
@[simp] theorem State.setCtl_job (d c : Nat) (x : Ctl) : (s.setCtl d c x).job = s.job := (rfl)
@[simp] theorem State.setCtl_cores (d c : Nat) (x : Ctl) : (s.setCtl d c x).cores = s.cores := (rfl)
@[simp] theorem State.setCtl_stations (d c : Nat) (x : Ctl) : (s.setCtl d c x).stations = s.stations := (rfl)
@[simp] theorem State.setCtl_mem (d c : Nat) (x : Ctl) : (s.setCtl d c x).mem = s.mem := (rfl)
@[simp] theorem State.setCtl_memPoison (d c : Nat) (x : Ctl) : (s.setCtl d c x).memPoison = s.memPoison := (rfl)
@[simp] theorem State.setCtl_reqs (d c : Nat) (x : Ctl) : (s.setCtl d c x).reqs = s.reqs := (rfl)
@[simp] theorem State.setCtl_nextReq (d c : Nat) (x : Ctl) : (s.setCtl d c x).nextReq = s.nextReq := (rfl)
@[simp] theorem State.setCtl_remotes (d c : Nat) (x : Ctl) : (s.setCtl d c x).remotes = s.remotes := (rfl)
@[simp] theorem State.setCtl_held (d c : Nat) (x : Ctl) : (s.setCtl d c x).held = s.held := (rfl)
@[simp] theorem State.setCtl_flight (d c : Nat) (x : Ctl) : (s.setCtl d c x).flight = s.flight := (rfl)
@[simp] theorem State.setCtl_waiting (d c : Nat) (x : Ctl) : (s.setCtl d c x).waiting = s.waiting := (rfl)
@[simp] theorem State.setCtl_admitted (d c : Nat) (x : Ctl) : (s.setCtl d c x).admitted = s.admitted := (rfl)
@[simp] theorem State.setCtl_arrivals (d c : Nat) (x : Ctl) : (s.setCtl d c x).arrivals = s.arrivals := (rfl)
@[simp] theorem State.setCtl_tails (d c : Nat) (x : Ctl) : (s.setCtl d c x).tails = s.tails := (rfl)
@[simp] theorem State.setCtl_parts (d c : Nat) (x : Ctl) : (s.setCtl d c x).parts = s.parts := (rfl)
@[simp] theorem State.setCtl_whittle (d c : Nat) (x : Ctl) : (s.setCtl d c x).whittle = s.whittle := (rfl)
@[simp] theorem State.setCtl_hsMail (d c : Nat) (x : Ctl) : (s.setCtl d c x).hsMail = s.hsMail := (rfl)
@[simp] theorem State.setCtl_engines (d c : Nat) (x : Ctl) : (s.setCtl d c x).engines = s.engines := (rfl)
@[simp] theorem State.setCtl_forwards (d c : Nat) (x : Ctl) : (s.setCtl d c x).forwards = s.forwards := (rfl)
@[simp] theorem State.setCtl_nets (d c : Nat) (x : Ctl) : (s.setCtl d c x).nets = s.nets := (rfl)
@[simp] theorem State.setCtl_ports (d c : Nat) (x : Ctl) : (s.setCtl d c x).ports = s.ports := (rfl)
@[simp] theorem State.setCtl_qps (d c : Nat) (x : Ctl) : (s.setCtl d c x).qps = s.qps := (rfl)
@[simp] theorem State.setCtl_tables (d c : Nat) (x : Ctl) : (s.setCtl d c x).tables = s.tables := (rfl)
@[simp] theorem State.setCtl_bays (d c : Nat) (x : Ctl) : (s.setCtl d c x).bays = s.bays := (rfl)
@[simp] theorem State.setCtl_latchOpen (d c : Nat) (x : Ctl) : (s.setCtl d c x).latchOpen = s.latchOpen := (rfl)
@[simp] theorem State.setCtl_engineReset (d c : Nat) (x : Ctl) : (s.setCtl d c x).engineReset = s.engineReset := (rfl)
@[simp] theorem State.setCtl_wrote (d c : Nat) (x : Ctl) : (s.setCtl d c x).wrote = s.wrote := (rfl)
@[simp] theorem State.setCtl_mgmt (d c : Nat) (x : Ctl) : (s.setCtl d c x).mgmt = s.mgmt := (rfl)
@[simp] theorem State.setCtl_fuses (d c : Nat) (x : Ctl) : (s.setCtl d c x).fuses = s.fuses := (rfl)
@[simp] theorem State.setCtl_flash (d c : Nat) (x : Ctl) : (s.setCtl d c x).flash = s.flash := (rfl)
@[simp] theorem State.setCtl_pins (d c : Nat) (x : Ctl) : (s.setCtl d c x).pins = s.pins := (rfl)
@[simp] theorem State.setCtl_boot (d c : Nat) (x : Ctl) : (s.setCtl d c x).boot = s.boot := (rfl)

/-! ### setTail -/

@[simp] theorem State.setTail_pending (t : Nat) (x : Tail) : (s.setTail t x).pending = s.pending := (rfl)
@[simp] theorem State.setTail_fresh (t : Nat) (x : Tail) : (s.setTail t x).fresh = s.fresh := (rfl)
@[simp] theorem State.setTail_tick (t : Nat) (x : Tail) : (s.setTail t x).tick = s.tick := (rfl)
@[simp] theorem State.setTail_run (t : Nat) (x : Tail) : (s.setTail t x).run = s.run := (rfl)
@[simp] theorem State.setTail_startStep (t : Nat) (x : Tail) : (s.setTail t x).startStep = s.startStep := (rfl)
@[simp] theorem State.setTail_ready (t : Nat) (x : Tail) : (s.setTail t x).ready = s.ready := (rfl)
@[simp] theorem State.setTail_regs (t : Nat) (x : Tail) : (s.setTail t x).regs = s.regs := (rfl)
@[simp] theorem State.setTail_staged (t : Nat) (x : Tail) : (s.setTail t x).staged = s.staged := (rfl)
@[simp] theorem State.setTail_shadow (t : Nat) (x : Tail) : (s.setTail t x).shadow = s.shadow := (rfl)
@[simp] theorem State.setTail_snap (t : Nat) (x : Tail) : (s.setTail t x).snap = s.snap := (rfl)
@[simp] theorem State.setTail_snapHeld (t : Nat) (x : Tail) : (s.setTail t x).snapHeld = s.snapHeld := (rfl)
@[simp] theorem State.setTail_cntClr (t : Nat) (x : Tail) : (s.setTail t x).cntClr = s.cntClr := (rfl)
@[simp] theorem State.setTail_applyReq (t : Nat) (x : Tail) : (s.setTail t x).applyReq = s.applyReq := (rfl)
@[simp] theorem State.setTail_applyDue (t : Nat) (x : Tail) : (s.setTail t x).applyDue = s.applyDue := (rfl)
@[simp] theorem State.setTail_applyAt (t : Nat) (x : Tail) : (s.setTail t x).applyAt = s.applyAt := (rfl)
@[simp] theorem State.setTail_covered (t : Nat) (x : Tail) : (s.setTail t x).covered = s.covered := (rfl)
@[simp] theorem State.setTail_strobed (t : Nat) (x : Tail) : (s.setTail t x).strobed = s.strobed := (rfl)
@[simp] theorem State.setTail_snapReq (t : Nat) (x : Tail) : (s.setTail t x).snapReq = s.snapReq := (rfl)
@[simp] theorem State.setTail_snapArmed (t : Nat) (x : Tail) : (s.setTail t x).snapArmed = s.snapArmed := (rfl)
@[simp] theorem State.setTail_snapEdge (t : Nat) (x : Tail) : (s.setTail t x).snapEdge = s.snapEdge := (rfl)
@[simp] theorem State.setTail_elog (t : Nat) (x : Tail) : (s.setTail t x).elog = s.elog := (rfl)
@[simp] theorem State.setTail_nextSeq (t : Nat) (x : Tail) : (s.setTail t x).nextSeq = s.nextSeq := (rfl)
@[simp] theorem State.setTail_tickSeq (t : Nat) (x : Tail) : (s.setTail t x).tickSeq = s.tickSeq := (rfl)
@[simp] theorem State.setTail_through (t : Nat) (x : Tail) : (s.setTail t x).through = s.through := (rfl)
@[simp] theorem State.setTail_out (t : Nat) (x : Tail) : (s.setTail t x).out = s.out := (rfl)
@[simp] theorem State.setTail_quarters (t : Nat) (x : Tail) : (s.setTail t x).quarters = s.quarters := (rfl)
@[simp] theorem State.setTail_gov (t : Nat) (x : Tail) : (s.setTail t x).gov = s.gov := (rfl)
@[simp] theorem State.setTail_tickGen (t : Nat) (x : Tail) : (s.setTail t x).tickGen = s.tickGen := (rfl)
@[simp] theorem State.setTail_job (t : Nat) (x : Tail) : (s.setTail t x).job = s.job := (rfl)
@[simp] theorem State.setTail_cores (t : Nat) (x : Tail) : (s.setTail t x).cores = s.cores := (rfl)
@[simp] theorem State.setTail_stations (t : Nat) (x : Tail) : (s.setTail t x).stations = s.stations := (rfl)
@[simp] theorem State.setTail_mem (t : Nat) (x : Tail) : (s.setTail t x).mem = s.mem := (rfl)
@[simp] theorem State.setTail_memPoison (t : Nat) (x : Tail) : (s.setTail t x).memPoison = s.memPoison := (rfl)
@[simp] theorem State.setTail_reqs (t : Nat) (x : Tail) : (s.setTail t x).reqs = s.reqs := (rfl)
@[simp] theorem State.setTail_nextReq (t : Nat) (x : Tail) : (s.setTail t x).nextReq = s.nextReq := (rfl)
@[simp] theorem State.setTail_remotes (t : Nat) (x : Tail) : (s.setTail t x).remotes = s.remotes := (rfl)
@[simp] theorem State.setTail_held (t : Nat) (x : Tail) : (s.setTail t x).held = s.held := (rfl)
@[simp] theorem State.setTail_flight (t : Nat) (x : Tail) : (s.setTail t x).flight = s.flight := (rfl)
@[simp] theorem State.setTail_waiting (t : Nat) (x : Tail) : (s.setTail t x).waiting = s.waiting := (rfl)
@[simp] theorem State.setTail_admitted (t : Nat) (x : Tail) : (s.setTail t x).admitted = s.admitted := (rfl)
@[simp] theorem State.setTail_arrivals (t : Nat) (x : Tail) : (s.setTail t x).arrivals = s.arrivals := (rfl)
@[simp] theorem State.setTail_ctls (t : Nat) (x : Tail) : (s.setTail t x).ctls = s.ctls := (rfl)
@[simp] theorem State.setTail_parts (t : Nat) (x : Tail) : (s.setTail t x).parts = s.parts := (rfl)
@[simp] theorem State.setTail_whittle (t : Nat) (x : Tail) : (s.setTail t x).whittle = s.whittle := (rfl)
@[simp] theorem State.setTail_hsMail (t : Nat) (x : Tail) : (s.setTail t x).hsMail = s.hsMail := (rfl)
@[simp] theorem State.setTail_engines (t : Nat) (x : Tail) : (s.setTail t x).engines = s.engines := (rfl)
@[simp] theorem State.setTail_forwards (t : Nat) (x : Tail) : (s.setTail t x).forwards = s.forwards := (rfl)
@[simp] theorem State.setTail_nets (t : Nat) (x : Tail) : (s.setTail t x).nets = s.nets := (rfl)
@[simp] theorem State.setTail_ports (t : Nat) (x : Tail) : (s.setTail t x).ports = s.ports := (rfl)
@[simp] theorem State.setTail_qps (t : Nat) (x : Tail) : (s.setTail t x).qps = s.qps := (rfl)
@[simp] theorem State.setTail_tables (t : Nat) (x : Tail) : (s.setTail t x).tables = s.tables := (rfl)
@[simp] theorem State.setTail_bays (t : Nat) (x : Tail) : (s.setTail t x).bays = s.bays := (rfl)
@[simp] theorem State.setTail_latchOpen (t : Nat) (x : Tail) : (s.setTail t x).latchOpen = s.latchOpen := (rfl)
@[simp] theorem State.setTail_engineReset (t : Nat) (x : Tail) : (s.setTail t x).engineReset = s.engineReset := (rfl)
@[simp] theorem State.setTail_wrote (t : Nat) (x : Tail) : (s.setTail t x).wrote = s.wrote := (rfl)
@[simp] theorem State.setTail_mgmt (t : Nat) (x : Tail) : (s.setTail t x).mgmt = s.mgmt := (rfl)
@[simp] theorem State.setTail_fuses (t : Nat) (x : Tail) : (s.setTail t x).fuses = s.fuses := (rfl)
@[simp] theorem State.setTail_flash (t : Nat) (x : Tail) : (s.setTail t x).flash = s.flash := (rfl)
@[simp] theorem State.setTail_pins (t : Nat) (x : Tail) : (s.setTail t x).pins = s.pins := (rfl)
@[simp] theorem State.setTail_boot (t : Nat) (x : Tail) : (s.setTail t x).boot = s.boot := (rfl)

/-! ### setPort -/

@[simp] theorem State.setPort_pending (p : Nat) (x : Port) : (s.setPort p x).pending = s.pending := (rfl)
@[simp] theorem State.setPort_fresh (p : Nat) (x : Port) : (s.setPort p x).fresh = s.fresh := (rfl)
@[simp] theorem State.setPort_tick (p : Nat) (x : Port) : (s.setPort p x).tick = s.tick := (rfl)
@[simp] theorem State.setPort_run (p : Nat) (x : Port) : (s.setPort p x).run = s.run := (rfl)
@[simp] theorem State.setPort_startStep (p : Nat) (x : Port) : (s.setPort p x).startStep = s.startStep := (rfl)
@[simp] theorem State.setPort_ready (p : Nat) (x : Port) : (s.setPort p x).ready = s.ready := (rfl)
@[simp] theorem State.setPort_regs (p : Nat) (x : Port) : (s.setPort p x).regs = s.regs := (rfl)
@[simp] theorem State.setPort_staged (p : Nat) (x : Port) : (s.setPort p x).staged = s.staged := (rfl)
@[simp] theorem State.setPort_shadow (p : Nat) (x : Port) : (s.setPort p x).shadow = s.shadow := (rfl)
@[simp] theorem State.setPort_snap (p : Nat) (x : Port) : (s.setPort p x).snap = s.snap := (rfl)
@[simp] theorem State.setPort_snapHeld (p : Nat) (x : Port) : (s.setPort p x).snapHeld = s.snapHeld := (rfl)
@[simp] theorem State.setPort_cntClr (p : Nat) (x : Port) : (s.setPort p x).cntClr = s.cntClr := (rfl)
@[simp] theorem State.setPort_applyReq (p : Nat) (x : Port) : (s.setPort p x).applyReq = s.applyReq := (rfl)
@[simp] theorem State.setPort_applyDue (p : Nat) (x : Port) : (s.setPort p x).applyDue = s.applyDue := (rfl)
@[simp] theorem State.setPort_applyAt (p : Nat) (x : Port) : (s.setPort p x).applyAt = s.applyAt := (rfl)
@[simp] theorem State.setPort_covered (p : Nat) (x : Port) : (s.setPort p x).covered = s.covered := (rfl)
@[simp] theorem State.setPort_strobed (p : Nat) (x : Port) : (s.setPort p x).strobed = s.strobed := (rfl)
@[simp] theorem State.setPort_snapReq (p : Nat) (x : Port) : (s.setPort p x).snapReq = s.snapReq := (rfl)
@[simp] theorem State.setPort_snapArmed (p : Nat) (x : Port) : (s.setPort p x).snapArmed = s.snapArmed := (rfl)
@[simp] theorem State.setPort_snapEdge (p : Nat) (x : Port) : (s.setPort p x).snapEdge = s.snapEdge := (rfl)
@[simp] theorem State.setPort_elog (p : Nat) (x : Port) : (s.setPort p x).elog = s.elog := (rfl)
@[simp] theorem State.setPort_nextSeq (p : Nat) (x : Port) : (s.setPort p x).nextSeq = s.nextSeq := (rfl)
@[simp] theorem State.setPort_tickSeq (p : Nat) (x : Port) : (s.setPort p x).tickSeq = s.tickSeq := (rfl)
@[simp] theorem State.setPort_through (p : Nat) (x : Port) : (s.setPort p x).through = s.through := (rfl)
@[simp] theorem State.setPort_out (p : Nat) (x : Port) : (s.setPort p x).out = s.out := (rfl)
@[simp] theorem State.setPort_quarters (p : Nat) (x : Port) : (s.setPort p x).quarters = s.quarters := (rfl)
@[simp] theorem State.setPort_gov (p : Nat) (x : Port) : (s.setPort p x).gov = s.gov := (rfl)
@[simp] theorem State.setPort_tickGen (p : Nat) (x : Port) : (s.setPort p x).tickGen = s.tickGen := (rfl)
@[simp] theorem State.setPort_job (p : Nat) (x : Port) : (s.setPort p x).job = s.job := (rfl)
@[simp] theorem State.setPort_cores (p : Nat) (x : Port) : (s.setPort p x).cores = s.cores := (rfl)
@[simp] theorem State.setPort_stations (p : Nat) (x : Port) : (s.setPort p x).stations = s.stations := (rfl)
@[simp] theorem State.setPort_mem (p : Nat) (x : Port) : (s.setPort p x).mem = s.mem := (rfl)
@[simp] theorem State.setPort_memPoison (p : Nat) (x : Port) : (s.setPort p x).memPoison = s.memPoison := (rfl)
@[simp] theorem State.setPort_reqs (p : Nat) (x : Port) : (s.setPort p x).reqs = s.reqs := (rfl)
@[simp] theorem State.setPort_nextReq (p : Nat) (x : Port) : (s.setPort p x).nextReq = s.nextReq := (rfl)
@[simp] theorem State.setPort_remotes (p : Nat) (x : Port) : (s.setPort p x).remotes = s.remotes := (rfl)
@[simp] theorem State.setPort_held (p : Nat) (x : Port) : (s.setPort p x).held = s.held := (rfl)
@[simp] theorem State.setPort_flight (p : Nat) (x : Port) : (s.setPort p x).flight = s.flight := (rfl)
@[simp] theorem State.setPort_waiting (p : Nat) (x : Port) : (s.setPort p x).waiting = s.waiting := (rfl)
@[simp] theorem State.setPort_admitted (p : Nat) (x : Port) : (s.setPort p x).admitted = s.admitted := (rfl)
@[simp] theorem State.setPort_arrivals (p : Nat) (x : Port) : (s.setPort p x).arrivals = s.arrivals := (rfl)
@[simp] theorem State.setPort_ctls (p : Nat) (x : Port) : (s.setPort p x).ctls = s.ctls := (rfl)
@[simp] theorem State.setPort_tails (p : Nat) (x : Port) : (s.setPort p x).tails = s.tails := (rfl)
@[simp] theorem State.setPort_parts (p : Nat) (x : Port) : (s.setPort p x).parts = s.parts := (rfl)
@[simp] theorem State.setPort_whittle (p : Nat) (x : Port) : (s.setPort p x).whittle = s.whittle := (rfl)
@[simp] theorem State.setPort_hsMail (p : Nat) (x : Port) : (s.setPort p x).hsMail = s.hsMail := (rfl)
@[simp] theorem State.setPort_engines (p : Nat) (x : Port) : (s.setPort p x).engines = s.engines := (rfl)
@[simp] theorem State.setPort_forwards (p : Nat) (x : Port) : (s.setPort p x).forwards = s.forwards := (rfl)
@[simp] theorem State.setPort_nets (p : Nat) (x : Port) : (s.setPort p x).nets = s.nets := (rfl)
@[simp] theorem State.setPort_qps (p : Nat) (x : Port) : (s.setPort p x).qps = s.qps := (rfl)
@[simp] theorem State.setPort_tables (p : Nat) (x : Port) : (s.setPort p x).tables = s.tables := (rfl)
@[simp] theorem State.setPort_bays (p : Nat) (x : Port) : (s.setPort p x).bays = s.bays := (rfl)
@[simp] theorem State.setPort_latchOpen (p : Nat) (x : Port) : (s.setPort p x).latchOpen = s.latchOpen := (rfl)
@[simp] theorem State.setPort_engineReset (p : Nat) (x : Port) : (s.setPort p x).engineReset = s.engineReset := (rfl)
@[simp] theorem State.setPort_wrote (p : Nat) (x : Port) : (s.setPort p x).wrote = s.wrote := (rfl)
@[simp] theorem State.setPort_mgmt (p : Nat) (x : Port) : (s.setPort p x).mgmt = s.mgmt := (rfl)
@[simp] theorem State.setPort_fuses (p : Nat) (x : Port) : (s.setPort p x).fuses = s.fuses := (rfl)
@[simp] theorem State.setPort_flash (p : Nat) (x : Port) : (s.setPort p x).flash = s.flash := (rfl)
@[simp] theorem State.setPort_pins (p : Nat) (x : Port) : (s.setPort p x).pins = s.pins := (rfl)
@[simp] theorem State.setPort_boot (p : Nat) (x : Port) : (s.setPort p x).boot = s.boot := (rfl)

/-! ### setNet -/

@[simp] theorem State.setNet_pending (d : Nat) (x : Net) : (s.setNet d x).pending = s.pending := (rfl)
@[simp] theorem State.setNet_fresh (d : Nat) (x : Net) : (s.setNet d x).fresh = s.fresh := (rfl)
@[simp] theorem State.setNet_tick (d : Nat) (x : Net) : (s.setNet d x).tick = s.tick := (rfl)
@[simp] theorem State.setNet_run (d : Nat) (x : Net) : (s.setNet d x).run = s.run := (rfl)
@[simp] theorem State.setNet_startStep (d : Nat) (x : Net) : (s.setNet d x).startStep = s.startStep := (rfl)
@[simp] theorem State.setNet_ready (d : Nat) (x : Net) : (s.setNet d x).ready = s.ready := (rfl)
@[simp] theorem State.setNet_regs (d : Nat) (x : Net) : (s.setNet d x).regs = s.regs := (rfl)
@[simp] theorem State.setNet_staged (d : Nat) (x : Net) : (s.setNet d x).staged = s.staged := (rfl)
@[simp] theorem State.setNet_shadow (d : Nat) (x : Net) : (s.setNet d x).shadow = s.shadow := (rfl)
@[simp] theorem State.setNet_snap (d : Nat) (x : Net) : (s.setNet d x).snap = s.snap := (rfl)
@[simp] theorem State.setNet_snapHeld (d : Nat) (x : Net) : (s.setNet d x).snapHeld = s.snapHeld := (rfl)
@[simp] theorem State.setNet_cntClr (d : Nat) (x : Net) : (s.setNet d x).cntClr = s.cntClr := (rfl)
@[simp] theorem State.setNet_applyReq (d : Nat) (x : Net) : (s.setNet d x).applyReq = s.applyReq := (rfl)
@[simp] theorem State.setNet_applyDue (d : Nat) (x : Net) : (s.setNet d x).applyDue = s.applyDue := (rfl)
@[simp] theorem State.setNet_applyAt (d : Nat) (x : Net) : (s.setNet d x).applyAt = s.applyAt := (rfl)
@[simp] theorem State.setNet_covered (d : Nat) (x : Net) : (s.setNet d x).covered = s.covered := (rfl)
@[simp] theorem State.setNet_strobed (d : Nat) (x : Net) : (s.setNet d x).strobed = s.strobed := (rfl)
@[simp] theorem State.setNet_snapReq (d : Nat) (x : Net) : (s.setNet d x).snapReq = s.snapReq := (rfl)
@[simp] theorem State.setNet_snapArmed (d : Nat) (x : Net) : (s.setNet d x).snapArmed = s.snapArmed := (rfl)
@[simp] theorem State.setNet_snapEdge (d : Nat) (x : Net) : (s.setNet d x).snapEdge = s.snapEdge := (rfl)
@[simp] theorem State.setNet_elog (d : Nat) (x : Net) : (s.setNet d x).elog = s.elog := (rfl)
@[simp] theorem State.setNet_nextSeq (d : Nat) (x : Net) : (s.setNet d x).nextSeq = s.nextSeq := (rfl)
@[simp] theorem State.setNet_tickSeq (d : Nat) (x : Net) : (s.setNet d x).tickSeq = s.tickSeq := (rfl)
@[simp] theorem State.setNet_through (d : Nat) (x : Net) : (s.setNet d x).through = s.through := (rfl)
@[simp] theorem State.setNet_out (d : Nat) (x : Net) : (s.setNet d x).out = s.out := (rfl)
@[simp] theorem State.setNet_quarters (d : Nat) (x : Net) : (s.setNet d x).quarters = s.quarters := (rfl)
@[simp] theorem State.setNet_gov (d : Nat) (x : Net) : (s.setNet d x).gov = s.gov := (rfl)
@[simp] theorem State.setNet_tickGen (d : Nat) (x : Net) : (s.setNet d x).tickGen = s.tickGen := (rfl)
@[simp] theorem State.setNet_job (d : Nat) (x : Net) : (s.setNet d x).job = s.job := (rfl)
@[simp] theorem State.setNet_cores (d : Nat) (x : Net) : (s.setNet d x).cores = s.cores := (rfl)
@[simp] theorem State.setNet_stations (d : Nat) (x : Net) : (s.setNet d x).stations = s.stations := (rfl)
@[simp] theorem State.setNet_mem (d : Nat) (x : Net) : (s.setNet d x).mem = s.mem := (rfl)
@[simp] theorem State.setNet_memPoison (d : Nat) (x : Net) : (s.setNet d x).memPoison = s.memPoison := (rfl)
@[simp] theorem State.setNet_reqs (d : Nat) (x : Net) : (s.setNet d x).reqs = s.reqs := (rfl)
@[simp] theorem State.setNet_nextReq (d : Nat) (x : Net) : (s.setNet d x).nextReq = s.nextReq := (rfl)
@[simp] theorem State.setNet_remotes (d : Nat) (x : Net) : (s.setNet d x).remotes = s.remotes := (rfl)
@[simp] theorem State.setNet_held (d : Nat) (x : Net) : (s.setNet d x).held = s.held := (rfl)
@[simp] theorem State.setNet_flight (d : Nat) (x : Net) : (s.setNet d x).flight = s.flight := (rfl)
@[simp] theorem State.setNet_waiting (d : Nat) (x : Net) : (s.setNet d x).waiting = s.waiting := (rfl)
@[simp] theorem State.setNet_admitted (d : Nat) (x : Net) : (s.setNet d x).admitted = s.admitted := (rfl)
@[simp] theorem State.setNet_arrivals (d : Nat) (x : Net) : (s.setNet d x).arrivals = s.arrivals := (rfl)
@[simp] theorem State.setNet_ctls (d : Nat) (x : Net) : (s.setNet d x).ctls = s.ctls := (rfl)
@[simp] theorem State.setNet_tails (d : Nat) (x : Net) : (s.setNet d x).tails = s.tails := (rfl)
@[simp] theorem State.setNet_parts (d : Nat) (x : Net) : (s.setNet d x).parts = s.parts := (rfl)
@[simp] theorem State.setNet_whittle (d : Nat) (x : Net) : (s.setNet d x).whittle = s.whittle := (rfl)
@[simp] theorem State.setNet_hsMail (d : Nat) (x : Net) : (s.setNet d x).hsMail = s.hsMail := (rfl)
@[simp] theorem State.setNet_engines (d : Nat) (x : Net) : (s.setNet d x).engines = s.engines := (rfl)
@[simp] theorem State.setNet_forwards (d : Nat) (x : Net) : (s.setNet d x).forwards = s.forwards := (rfl)
@[simp] theorem State.setNet_ports (d : Nat) (x : Net) : (s.setNet d x).ports = s.ports := (rfl)
@[simp] theorem State.setNet_qps (d : Nat) (x : Net) : (s.setNet d x).qps = s.qps := (rfl)
@[simp] theorem State.setNet_tables (d : Nat) (x : Net) : (s.setNet d x).tables = s.tables := (rfl)
@[simp] theorem State.setNet_bays (d : Nat) (x : Net) : (s.setNet d x).bays = s.bays := (rfl)
@[simp] theorem State.setNet_latchOpen (d : Nat) (x : Net) : (s.setNet d x).latchOpen = s.latchOpen := (rfl)
@[simp] theorem State.setNet_engineReset (d : Nat) (x : Net) : (s.setNet d x).engineReset = s.engineReset := (rfl)
@[simp] theorem State.setNet_wrote (d : Nat) (x : Net) : (s.setNet d x).wrote = s.wrote := (rfl)
@[simp] theorem State.setNet_mgmt (d : Nat) (x : Net) : (s.setNet d x).mgmt = s.mgmt := (rfl)
@[simp] theorem State.setNet_fuses (d : Nat) (x : Net) : (s.setNet d x).fuses = s.fuses := (rfl)
@[simp] theorem State.setNet_flash (d : Nat) (x : Net) : (s.setNet d x).flash = s.flash := (rfl)
@[simp] theorem State.setNet_pins (d : Nat) (x : Net) : (s.setNet d x).pins = s.pins := (rfl)
@[simp] theorem State.setNet_boot (d : Nat) (x : Net) : (s.setNet d x).boot = s.boot := (rfl)

/-! ### setEngine -/

@[simp] theorem State.setEngine_pending (d : Nat) (x : Engine) : (s.setEngine d x).pending = s.pending := (rfl)
@[simp] theorem State.setEngine_fresh (d : Nat) (x : Engine) : (s.setEngine d x).fresh = s.fresh := (rfl)
@[simp] theorem State.setEngine_tick (d : Nat) (x : Engine) : (s.setEngine d x).tick = s.tick := (rfl)
@[simp] theorem State.setEngine_run (d : Nat) (x : Engine) : (s.setEngine d x).run = s.run := (rfl)
@[simp] theorem State.setEngine_startStep (d : Nat) (x : Engine) : (s.setEngine d x).startStep = s.startStep := (rfl)
@[simp] theorem State.setEngine_ready (d : Nat) (x : Engine) : (s.setEngine d x).ready = s.ready := (rfl)
@[simp] theorem State.setEngine_regs (d : Nat) (x : Engine) : (s.setEngine d x).regs = s.regs := (rfl)
@[simp] theorem State.setEngine_staged (d : Nat) (x : Engine) : (s.setEngine d x).staged = s.staged := (rfl)
@[simp] theorem State.setEngine_shadow (d : Nat) (x : Engine) : (s.setEngine d x).shadow = s.shadow := (rfl)
@[simp] theorem State.setEngine_snap (d : Nat) (x : Engine) : (s.setEngine d x).snap = s.snap := (rfl)
@[simp] theorem State.setEngine_snapHeld (d : Nat) (x : Engine) : (s.setEngine d x).snapHeld = s.snapHeld := (rfl)
@[simp] theorem State.setEngine_cntClr (d : Nat) (x : Engine) : (s.setEngine d x).cntClr = s.cntClr := (rfl)
@[simp] theorem State.setEngine_applyReq (d : Nat) (x : Engine) : (s.setEngine d x).applyReq = s.applyReq := (rfl)
@[simp] theorem State.setEngine_applyDue (d : Nat) (x : Engine) : (s.setEngine d x).applyDue = s.applyDue := (rfl)
@[simp] theorem State.setEngine_applyAt (d : Nat) (x : Engine) : (s.setEngine d x).applyAt = s.applyAt := (rfl)
@[simp] theorem State.setEngine_covered (d : Nat) (x : Engine) : (s.setEngine d x).covered = s.covered := (rfl)
@[simp] theorem State.setEngine_strobed (d : Nat) (x : Engine) : (s.setEngine d x).strobed = s.strobed := (rfl)
@[simp] theorem State.setEngine_snapReq (d : Nat) (x : Engine) : (s.setEngine d x).snapReq = s.snapReq := (rfl)
@[simp] theorem State.setEngine_snapArmed (d : Nat) (x : Engine) : (s.setEngine d x).snapArmed = s.snapArmed := (rfl)
@[simp] theorem State.setEngine_snapEdge (d : Nat) (x : Engine) : (s.setEngine d x).snapEdge = s.snapEdge := (rfl)
@[simp] theorem State.setEngine_elog (d : Nat) (x : Engine) : (s.setEngine d x).elog = s.elog := (rfl)
@[simp] theorem State.setEngine_nextSeq (d : Nat) (x : Engine) : (s.setEngine d x).nextSeq = s.nextSeq := (rfl)
@[simp] theorem State.setEngine_tickSeq (d : Nat) (x : Engine) : (s.setEngine d x).tickSeq = s.tickSeq := (rfl)
@[simp] theorem State.setEngine_through (d : Nat) (x : Engine) : (s.setEngine d x).through = s.through := (rfl)
@[simp] theorem State.setEngine_out (d : Nat) (x : Engine) : (s.setEngine d x).out = s.out := (rfl)
@[simp] theorem State.setEngine_quarters (d : Nat) (x : Engine) : (s.setEngine d x).quarters = s.quarters := (rfl)
@[simp] theorem State.setEngine_gov (d : Nat) (x : Engine) : (s.setEngine d x).gov = s.gov := (rfl)
@[simp] theorem State.setEngine_tickGen (d : Nat) (x : Engine) : (s.setEngine d x).tickGen = s.tickGen := (rfl)
@[simp] theorem State.setEngine_job (d : Nat) (x : Engine) : (s.setEngine d x).job = s.job := (rfl)
@[simp] theorem State.setEngine_cores (d : Nat) (x : Engine) : (s.setEngine d x).cores = s.cores := (rfl)
@[simp] theorem State.setEngine_stations (d : Nat) (x : Engine) : (s.setEngine d x).stations = s.stations := (rfl)
@[simp] theorem State.setEngine_mem (d : Nat) (x : Engine) : (s.setEngine d x).mem = s.mem := (rfl)
@[simp] theorem State.setEngine_memPoison (d : Nat) (x : Engine) : (s.setEngine d x).memPoison = s.memPoison := (rfl)
@[simp] theorem State.setEngine_reqs (d : Nat) (x : Engine) : (s.setEngine d x).reqs = s.reqs := (rfl)
@[simp] theorem State.setEngine_nextReq (d : Nat) (x : Engine) : (s.setEngine d x).nextReq = s.nextReq := (rfl)
@[simp] theorem State.setEngine_remotes (d : Nat) (x : Engine) : (s.setEngine d x).remotes = s.remotes := (rfl)
@[simp] theorem State.setEngine_held (d : Nat) (x : Engine) : (s.setEngine d x).held = s.held := (rfl)
@[simp] theorem State.setEngine_flight (d : Nat) (x : Engine) : (s.setEngine d x).flight = s.flight := (rfl)
@[simp] theorem State.setEngine_waiting (d : Nat) (x : Engine) : (s.setEngine d x).waiting = s.waiting := (rfl)
@[simp] theorem State.setEngine_admitted (d : Nat) (x : Engine) : (s.setEngine d x).admitted = s.admitted := (rfl)
@[simp] theorem State.setEngine_arrivals (d : Nat) (x : Engine) : (s.setEngine d x).arrivals = s.arrivals := (rfl)
@[simp] theorem State.setEngine_ctls (d : Nat) (x : Engine) : (s.setEngine d x).ctls = s.ctls := (rfl)
@[simp] theorem State.setEngine_tails (d : Nat) (x : Engine) : (s.setEngine d x).tails = s.tails := (rfl)
@[simp] theorem State.setEngine_parts (d : Nat) (x : Engine) : (s.setEngine d x).parts = s.parts := (rfl)
@[simp] theorem State.setEngine_whittle (d : Nat) (x : Engine) : (s.setEngine d x).whittle = s.whittle := (rfl)
@[simp] theorem State.setEngine_hsMail (d : Nat) (x : Engine) : (s.setEngine d x).hsMail = s.hsMail := (rfl)
@[simp] theorem State.setEngine_forwards (d : Nat) (x : Engine) : (s.setEngine d x).forwards = s.forwards := (rfl)
@[simp] theorem State.setEngine_nets (d : Nat) (x : Engine) : (s.setEngine d x).nets = s.nets := (rfl)
@[simp] theorem State.setEngine_ports (d : Nat) (x : Engine) : (s.setEngine d x).ports = s.ports := (rfl)
@[simp] theorem State.setEngine_qps (d : Nat) (x : Engine) : (s.setEngine d x).qps = s.qps := (rfl)
@[simp] theorem State.setEngine_tables (d : Nat) (x : Engine) : (s.setEngine d x).tables = s.tables := (rfl)
@[simp] theorem State.setEngine_bays (d : Nat) (x : Engine) : (s.setEngine d x).bays = s.bays := (rfl)
@[simp] theorem State.setEngine_latchOpen (d : Nat) (x : Engine) : (s.setEngine d x).latchOpen = s.latchOpen := (rfl)
@[simp] theorem State.setEngine_engineReset (d : Nat) (x : Engine) : (s.setEngine d x).engineReset = s.engineReset := (rfl)
@[simp] theorem State.setEngine_wrote (d : Nat) (x : Engine) : (s.setEngine d x).wrote = s.wrote := (rfl)
@[simp] theorem State.setEngine_mgmt (d : Nat) (x : Engine) : (s.setEngine d x).mgmt = s.mgmt := (rfl)
@[simp] theorem State.setEngine_fuses (d : Nat) (x : Engine) : (s.setEngine d x).fuses = s.fuses := (rfl)
@[simp] theorem State.setEngine_flash (d : Nat) (x : Engine) : (s.setEngine d x).flash = s.flash := (rfl)
@[simp] theorem State.setEngine_pins (d : Nat) (x : Engine) : (s.setEngine d x).pins = s.pins := (rfl)
@[simp] theorem State.setEngine_boot (d : Nat) (x : Engine) : (s.setEngine d x).boot = s.boot := (rfl)

/-! ### setQp -/

@[simp] theorem State.setQp_pending (d q : Nat) (x : Qp) : (s.setQp d q x).pending = s.pending := (rfl)
@[simp] theorem State.setQp_fresh (d q : Nat) (x : Qp) : (s.setQp d q x).fresh = s.fresh := (rfl)
@[simp] theorem State.setQp_tick (d q : Nat) (x : Qp) : (s.setQp d q x).tick = s.tick := (rfl)
@[simp] theorem State.setQp_run (d q : Nat) (x : Qp) : (s.setQp d q x).run = s.run := (rfl)
@[simp] theorem State.setQp_startStep (d q : Nat) (x : Qp) : (s.setQp d q x).startStep = s.startStep := (rfl)
@[simp] theorem State.setQp_ready (d q : Nat) (x : Qp) : (s.setQp d q x).ready = s.ready := (rfl)
@[simp] theorem State.setQp_regs (d q : Nat) (x : Qp) : (s.setQp d q x).regs = s.regs := (rfl)
@[simp] theorem State.setQp_staged (d q : Nat) (x : Qp) : (s.setQp d q x).staged = s.staged := (rfl)
@[simp] theorem State.setQp_shadow (d q : Nat) (x : Qp) : (s.setQp d q x).shadow = s.shadow := (rfl)
@[simp] theorem State.setQp_snap (d q : Nat) (x : Qp) : (s.setQp d q x).snap = s.snap := (rfl)
@[simp] theorem State.setQp_snapHeld (d q : Nat) (x : Qp) : (s.setQp d q x).snapHeld = s.snapHeld := (rfl)
@[simp] theorem State.setQp_cntClr (d q : Nat) (x : Qp) : (s.setQp d q x).cntClr = s.cntClr := (rfl)
@[simp] theorem State.setQp_applyReq (d q : Nat) (x : Qp) : (s.setQp d q x).applyReq = s.applyReq := (rfl)
@[simp] theorem State.setQp_applyDue (d q : Nat) (x : Qp) : (s.setQp d q x).applyDue = s.applyDue := (rfl)
@[simp] theorem State.setQp_applyAt (d q : Nat) (x : Qp) : (s.setQp d q x).applyAt = s.applyAt := (rfl)
@[simp] theorem State.setQp_covered (d q : Nat) (x : Qp) : (s.setQp d q x).covered = s.covered := (rfl)
@[simp] theorem State.setQp_strobed (d q : Nat) (x : Qp) : (s.setQp d q x).strobed = s.strobed := (rfl)
@[simp] theorem State.setQp_snapReq (d q : Nat) (x : Qp) : (s.setQp d q x).snapReq = s.snapReq := (rfl)
@[simp] theorem State.setQp_snapArmed (d q : Nat) (x : Qp) : (s.setQp d q x).snapArmed = s.snapArmed := (rfl)
@[simp] theorem State.setQp_snapEdge (d q : Nat) (x : Qp) : (s.setQp d q x).snapEdge = s.snapEdge := (rfl)
@[simp] theorem State.setQp_elog (d q : Nat) (x : Qp) : (s.setQp d q x).elog = s.elog := (rfl)
@[simp] theorem State.setQp_nextSeq (d q : Nat) (x : Qp) : (s.setQp d q x).nextSeq = s.nextSeq := (rfl)
@[simp] theorem State.setQp_tickSeq (d q : Nat) (x : Qp) : (s.setQp d q x).tickSeq = s.tickSeq := (rfl)
@[simp] theorem State.setQp_through (d q : Nat) (x : Qp) : (s.setQp d q x).through = s.through := (rfl)
@[simp] theorem State.setQp_out (d q : Nat) (x : Qp) : (s.setQp d q x).out = s.out := (rfl)
@[simp] theorem State.setQp_quarters (d q : Nat) (x : Qp) : (s.setQp d q x).quarters = s.quarters := (rfl)
@[simp] theorem State.setQp_gov (d q : Nat) (x : Qp) : (s.setQp d q x).gov = s.gov := (rfl)
@[simp] theorem State.setQp_tickGen (d q : Nat) (x : Qp) : (s.setQp d q x).tickGen = s.tickGen := (rfl)
@[simp] theorem State.setQp_job (d q : Nat) (x : Qp) : (s.setQp d q x).job = s.job := (rfl)
@[simp] theorem State.setQp_cores (d q : Nat) (x : Qp) : (s.setQp d q x).cores = s.cores := (rfl)
@[simp] theorem State.setQp_stations (d q : Nat) (x : Qp) : (s.setQp d q x).stations = s.stations := (rfl)
@[simp] theorem State.setQp_mem (d q : Nat) (x : Qp) : (s.setQp d q x).mem = s.mem := (rfl)
@[simp] theorem State.setQp_memPoison (d q : Nat) (x : Qp) : (s.setQp d q x).memPoison = s.memPoison := (rfl)
@[simp] theorem State.setQp_reqs (d q : Nat) (x : Qp) : (s.setQp d q x).reqs = s.reqs := (rfl)
@[simp] theorem State.setQp_nextReq (d q : Nat) (x : Qp) : (s.setQp d q x).nextReq = s.nextReq := (rfl)
@[simp] theorem State.setQp_remotes (d q : Nat) (x : Qp) : (s.setQp d q x).remotes = s.remotes := (rfl)
@[simp] theorem State.setQp_held (d q : Nat) (x : Qp) : (s.setQp d q x).held = s.held := (rfl)
@[simp] theorem State.setQp_flight (d q : Nat) (x : Qp) : (s.setQp d q x).flight = s.flight := (rfl)
@[simp] theorem State.setQp_waiting (d q : Nat) (x : Qp) : (s.setQp d q x).waiting = s.waiting := (rfl)
@[simp] theorem State.setQp_admitted (d q : Nat) (x : Qp) : (s.setQp d q x).admitted = s.admitted := (rfl)
@[simp] theorem State.setQp_arrivals (d q : Nat) (x : Qp) : (s.setQp d q x).arrivals = s.arrivals := (rfl)
@[simp] theorem State.setQp_ctls (d q : Nat) (x : Qp) : (s.setQp d q x).ctls = s.ctls := (rfl)
@[simp] theorem State.setQp_tails (d q : Nat) (x : Qp) : (s.setQp d q x).tails = s.tails := (rfl)
@[simp] theorem State.setQp_parts (d q : Nat) (x : Qp) : (s.setQp d q x).parts = s.parts := (rfl)
@[simp] theorem State.setQp_whittle (d q : Nat) (x : Qp) : (s.setQp d q x).whittle = s.whittle := (rfl)
@[simp] theorem State.setQp_hsMail (d q : Nat) (x : Qp) : (s.setQp d q x).hsMail = s.hsMail := (rfl)
@[simp] theorem State.setQp_engines (d q : Nat) (x : Qp) : (s.setQp d q x).engines = s.engines := (rfl)
@[simp] theorem State.setQp_forwards (d q : Nat) (x : Qp) : (s.setQp d q x).forwards = s.forwards := (rfl)
@[simp] theorem State.setQp_nets (d q : Nat) (x : Qp) : (s.setQp d q x).nets = s.nets := (rfl)
@[simp] theorem State.setQp_ports (d q : Nat) (x : Qp) : (s.setQp d q x).ports = s.ports := (rfl)
@[simp] theorem State.setQp_tables (d q : Nat) (x : Qp) : (s.setQp d q x).tables = s.tables := (rfl)
@[simp] theorem State.setQp_bays (d q : Nat) (x : Qp) : (s.setQp d q x).bays = s.bays := (rfl)
@[simp] theorem State.setQp_latchOpen (d q : Nat) (x : Qp) : (s.setQp d q x).latchOpen = s.latchOpen := (rfl)
@[simp] theorem State.setQp_engineReset (d q : Nat) (x : Qp) : (s.setQp d q x).engineReset = s.engineReset := (rfl)
@[simp] theorem State.setQp_wrote (d q : Nat) (x : Qp) : (s.setQp d q x).wrote = s.wrote := (rfl)
@[simp] theorem State.setQp_mgmt (d q : Nat) (x : Qp) : (s.setQp d q x).mgmt = s.mgmt := (rfl)
@[simp] theorem State.setQp_fuses (d q : Nat) (x : Qp) : (s.setQp d q x).fuses = s.fuses := (rfl)
@[simp] theorem State.setQp_flash (d q : Nat) (x : Qp) : (s.setQp d q x).flash = s.flash := (rfl)
@[simp] theorem State.setQp_pins (d q : Nat) (x : Qp) : (s.setQp d q x).pins = s.pins := (rfl)
@[simp] theorem State.setQp_boot (d q : Nat) (x : Qp) : (s.setQp d q x).boot = s.boot := (rfl)

/-! ### setTable -/

@[simp] theorem State.setTable_pending (e t i v : Nat) : (s.setTable e t i v).pending = s.pending := (rfl)
@[simp] theorem State.setTable_fresh (e t i v : Nat) : (s.setTable e t i v).fresh = s.fresh := (rfl)
@[simp] theorem State.setTable_tick (e t i v : Nat) : (s.setTable e t i v).tick = s.tick := (rfl)
@[simp] theorem State.setTable_run (e t i v : Nat) : (s.setTable e t i v).run = s.run := (rfl)
@[simp] theorem State.setTable_startStep (e t i v : Nat) : (s.setTable e t i v).startStep = s.startStep := (rfl)
@[simp] theorem State.setTable_ready (e t i v : Nat) : (s.setTable e t i v).ready = s.ready := (rfl)
@[simp] theorem State.setTable_regs (e t i v : Nat) : (s.setTable e t i v).regs = s.regs := (rfl)
@[simp] theorem State.setTable_staged (e t i v : Nat) : (s.setTable e t i v).staged = s.staged := (rfl)
@[simp] theorem State.setTable_shadow (e t i v : Nat) : (s.setTable e t i v).shadow = s.shadow := (rfl)
@[simp] theorem State.setTable_snap (e t i v : Nat) : (s.setTable e t i v).snap = s.snap := (rfl)
@[simp] theorem State.setTable_snapHeld (e t i v : Nat) : (s.setTable e t i v).snapHeld = s.snapHeld := (rfl)
@[simp] theorem State.setTable_cntClr (e t i v : Nat) : (s.setTable e t i v).cntClr = s.cntClr := (rfl)
@[simp] theorem State.setTable_applyReq (e t i v : Nat) : (s.setTable e t i v).applyReq = s.applyReq := (rfl)
@[simp] theorem State.setTable_applyDue (e t i v : Nat) : (s.setTable e t i v).applyDue = s.applyDue := (rfl)
@[simp] theorem State.setTable_applyAt (e t i v : Nat) : (s.setTable e t i v).applyAt = s.applyAt := (rfl)
@[simp] theorem State.setTable_covered (e t i v : Nat) : (s.setTable e t i v).covered = s.covered := (rfl)
@[simp] theorem State.setTable_strobed (e t i v : Nat) : (s.setTable e t i v).strobed = s.strobed := (rfl)
@[simp] theorem State.setTable_snapReq (e t i v : Nat) : (s.setTable e t i v).snapReq = s.snapReq := (rfl)
@[simp] theorem State.setTable_snapArmed (e t i v : Nat) : (s.setTable e t i v).snapArmed = s.snapArmed := (rfl)
@[simp] theorem State.setTable_snapEdge (e t i v : Nat) : (s.setTable e t i v).snapEdge = s.snapEdge := (rfl)
@[simp] theorem State.setTable_elog (e t i v : Nat) : (s.setTable e t i v).elog = s.elog := (rfl)
@[simp] theorem State.setTable_nextSeq (e t i v : Nat) : (s.setTable e t i v).nextSeq = s.nextSeq := (rfl)
@[simp] theorem State.setTable_tickSeq (e t i v : Nat) : (s.setTable e t i v).tickSeq = s.tickSeq := (rfl)
@[simp] theorem State.setTable_through (e t i v : Nat) : (s.setTable e t i v).through = s.through := (rfl)
@[simp] theorem State.setTable_out (e t i v : Nat) : (s.setTable e t i v).out = s.out := (rfl)
@[simp] theorem State.setTable_quarters (e t i v : Nat) : (s.setTable e t i v).quarters = s.quarters := (rfl)
@[simp] theorem State.setTable_gov (e t i v : Nat) : (s.setTable e t i v).gov = s.gov := (rfl)
@[simp] theorem State.setTable_tickGen (e t i v : Nat) : (s.setTable e t i v).tickGen = s.tickGen := (rfl)
@[simp] theorem State.setTable_job (e t i v : Nat) : (s.setTable e t i v).job = s.job := (rfl)
@[simp] theorem State.setTable_cores (e t i v : Nat) : (s.setTable e t i v).cores = s.cores := (rfl)
@[simp] theorem State.setTable_stations (e t i v : Nat) : (s.setTable e t i v).stations = s.stations := (rfl)
@[simp] theorem State.setTable_mem (e t i v : Nat) : (s.setTable e t i v).mem = s.mem := (rfl)
@[simp] theorem State.setTable_memPoison (e t i v : Nat) : (s.setTable e t i v).memPoison = s.memPoison := (rfl)
@[simp] theorem State.setTable_reqs (e t i v : Nat) : (s.setTable e t i v).reqs = s.reqs := (rfl)
@[simp] theorem State.setTable_nextReq (e t i v : Nat) : (s.setTable e t i v).nextReq = s.nextReq := (rfl)
@[simp] theorem State.setTable_remotes (e t i v : Nat) : (s.setTable e t i v).remotes = s.remotes := (rfl)
@[simp] theorem State.setTable_held (e t i v : Nat) : (s.setTable e t i v).held = s.held := (rfl)
@[simp] theorem State.setTable_flight (e t i v : Nat) : (s.setTable e t i v).flight = s.flight := (rfl)
@[simp] theorem State.setTable_waiting (e t i v : Nat) : (s.setTable e t i v).waiting = s.waiting := (rfl)
@[simp] theorem State.setTable_admitted (e t i v : Nat) : (s.setTable e t i v).admitted = s.admitted := (rfl)
@[simp] theorem State.setTable_arrivals (e t i v : Nat) : (s.setTable e t i v).arrivals = s.arrivals := (rfl)
@[simp] theorem State.setTable_ctls (e t i v : Nat) : (s.setTable e t i v).ctls = s.ctls := (rfl)
@[simp] theorem State.setTable_tails (e t i v : Nat) : (s.setTable e t i v).tails = s.tails := (rfl)
@[simp] theorem State.setTable_parts (e t i v : Nat) : (s.setTable e t i v).parts = s.parts := (rfl)
@[simp] theorem State.setTable_whittle (e t i v : Nat) : (s.setTable e t i v).whittle = s.whittle := (rfl)
@[simp] theorem State.setTable_hsMail (e t i v : Nat) : (s.setTable e t i v).hsMail = s.hsMail := (rfl)
@[simp] theorem State.setTable_engines (e t i v : Nat) : (s.setTable e t i v).engines = s.engines := (rfl)
@[simp] theorem State.setTable_forwards (e t i v : Nat) : (s.setTable e t i v).forwards = s.forwards := (rfl)
@[simp] theorem State.setTable_nets (e t i v : Nat) : (s.setTable e t i v).nets = s.nets := (rfl)
@[simp] theorem State.setTable_ports (e t i v : Nat) : (s.setTable e t i v).ports = s.ports := (rfl)
@[simp] theorem State.setTable_qps (e t i v : Nat) : (s.setTable e t i v).qps = s.qps := (rfl)
@[simp] theorem State.setTable_bays (e t i v : Nat) : (s.setTable e t i v).bays = s.bays := (rfl)
@[simp] theorem State.setTable_latchOpen (e t i v : Nat) : (s.setTable e t i v).latchOpen = s.latchOpen := (rfl)
@[simp] theorem State.setTable_engineReset (e t i v : Nat) : (s.setTable e t i v).engineReset = s.engineReset := (rfl)
@[simp] theorem State.setTable_wrote (e t i v : Nat) : (s.setTable e t i v).wrote = s.wrote := (rfl)
@[simp] theorem State.setTable_mgmt (e t i v : Nat) : (s.setTable e t i v).mgmt = s.mgmt := (rfl)
@[simp] theorem State.setTable_fuses (e t i v : Nat) : (s.setTable e t i v).fuses = s.fuses := (rfl)
@[simp] theorem State.setTable_flash (e t i v : Nat) : (s.setTable e t i v).flash = s.flash := (rfl)
@[simp] theorem State.setTable_pins (e t i v : Nat) : (s.setTable e t i v).pins = s.pins := (rfl)
@[simp] theorem State.setTable_boot (e t i v : Nat) : (s.setTable e t i v).boot = s.boot := (rfl)

/-! ### emit -/

@[simp] theorem State.emit_pending (e : Emit) : (s.emit e).pending = s.pending := (rfl)
@[simp] theorem State.emit_fresh (e : Emit) : (s.emit e).fresh = s.fresh := (rfl)
@[simp] theorem State.emit_tick (e : Emit) : (s.emit e).tick = s.tick := (rfl)
@[simp] theorem State.emit_run (e : Emit) : (s.emit e).run = s.run := (rfl)
@[simp] theorem State.emit_startStep (e : Emit) : (s.emit e).startStep = s.startStep := (rfl)
@[simp] theorem State.emit_ready (e : Emit) : (s.emit e).ready = s.ready := (rfl)
@[simp] theorem State.emit_regs (e : Emit) : (s.emit e).regs = s.regs := (rfl)
@[simp] theorem State.emit_staged (e : Emit) : (s.emit e).staged = s.staged := (rfl)
@[simp] theorem State.emit_shadow (e : Emit) : (s.emit e).shadow = s.shadow := (rfl)
@[simp] theorem State.emit_snap (e : Emit) : (s.emit e).snap = s.snap := (rfl)
@[simp] theorem State.emit_snapHeld (e : Emit) : (s.emit e).snapHeld = s.snapHeld := (rfl)
@[simp] theorem State.emit_cntClr (e : Emit) : (s.emit e).cntClr = s.cntClr := (rfl)
@[simp] theorem State.emit_applyReq (e : Emit) : (s.emit e).applyReq = s.applyReq := (rfl)
@[simp] theorem State.emit_applyDue (e : Emit) : (s.emit e).applyDue = s.applyDue := (rfl)
@[simp] theorem State.emit_applyAt (e : Emit) : (s.emit e).applyAt = s.applyAt := (rfl)
@[simp] theorem State.emit_covered (e : Emit) : (s.emit e).covered = s.covered := (rfl)
@[simp] theorem State.emit_strobed (e : Emit) : (s.emit e).strobed = s.strobed := (rfl)
@[simp] theorem State.emit_snapReq (e : Emit) : (s.emit e).snapReq = s.snapReq := (rfl)
@[simp] theorem State.emit_snapArmed (e : Emit) : (s.emit e).snapArmed = s.snapArmed := (rfl)
@[simp] theorem State.emit_snapEdge (e : Emit) : (s.emit e).snapEdge = s.snapEdge := (rfl)
@[simp] theorem State.emit_elog (e : Emit) : (s.emit e).elog = s.elog := (rfl)
@[simp] theorem State.emit_nextSeq (e : Emit) : (s.emit e).nextSeq = s.nextSeq := (rfl)
@[simp] theorem State.emit_tickSeq (e : Emit) : (s.emit e).tickSeq = s.tickSeq := (rfl)
@[simp] theorem State.emit_through (e : Emit) : (s.emit e).through = s.through := (rfl)
@[simp] theorem State.emit_quarters (e : Emit) : (s.emit e).quarters = s.quarters := (rfl)
@[simp] theorem State.emit_gov (e : Emit) : (s.emit e).gov = s.gov := (rfl)
@[simp] theorem State.emit_tickGen (e : Emit) : (s.emit e).tickGen = s.tickGen := (rfl)
@[simp] theorem State.emit_job (e : Emit) : (s.emit e).job = s.job := (rfl)
@[simp] theorem State.emit_cores (e : Emit) : (s.emit e).cores = s.cores := (rfl)
@[simp] theorem State.emit_stations (e : Emit) : (s.emit e).stations = s.stations := (rfl)
@[simp] theorem State.emit_mem (e : Emit) : (s.emit e).mem = s.mem := (rfl)
@[simp] theorem State.emit_memPoison (e : Emit) : (s.emit e).memPoison = s.memPoison := (rfl)
@[simp] theorem State.emit_reqs (e : Emit) : (s.emit e).reqs = s.reqs := (rfl)
@[simp] theorem State.emit_nextReq (e : Emit) : (s.emit e).nextReq = s.nextReq := (rfl)
@[simp] theorem State.emit_remotes (e : Emit) : (s.emit e).remotes = s.remotes := (rfl)
@[simp] theorem State.emit_held (e : Emit) : (s.emit e).held = s.held := (rfl)
@[simp] theorem State.emit_flight (e : Emit) : (s.emit e).flight = s.flight := (rfl)
@[simp] theorem State.emit_waiting (e : Emit) : (s.emit e).waiting = s.waiting := (rfl)
@[simp] theorem State.emit_admitted (e : Emit) : (s.emit e).admitted = s.admitted := (rfl)
@[simp] theorem State.emit_arrivals (e : Emit) : (s.emit e).arrivals = s.arrivals := (rfl)
@[simp] theorem State.emit_ctls (e : Emit) : (s.emit e).ctls = s.ctls := (rfl)
@[simp] theorem State.emit_tails (e : Emit) : (s.emit e).tails = s.tails := (rfl)
@[simp] theorem State.emit_parts (e : Emit) : (s.emit e).parts = s.parts := (rfl)
@[simp] theorem State.emit_whittle (e : Emit) : (s.emit e).whittle = s.whittle := (rfl)
@[simp] theorem State.emit_hsMail (e : Emit) : (s.emit e).hsMail = s.hsMail := (rfl)
@[simp] theorem State.emit_engines (e : Emit) : (s.emit e).engines = s.engines := (rfl)
@[simp] theorem State.emit_forwards (e : Emit) : (s.emit e).forwards = s.forwards := (rfl)
@[simp] theorem State.emit_nets (e : Emit) : (s.emit e).nets = s.nets := (rfl)
@[simp] theorem State.emit_ports (e : Emit) : (s.emit e).ports = s.ports := (rfl)
@[simp] theorem State.emit_qps (e : Emit) : (s.emit e).qps = s.qps := (rfl)
@[simp] theorem State.emit_tables (e : Emit) : (s.emit e).tables = s.tables := (rfl)
@[simp] theorem State.emit_bays (e : Emit) : (s.emit e).bays = s.bays := (rfl)
@[simp] theorem State.emit_latchOpen (e : Emit) : (s.emit e).latchOpen = s.latchOpen := (rfl)
@[simp] theorem State.emit_engineReset (e : Emit) : (s.emit e).engineReset = s.engineReset := (rfl)
@[simp] theorem State.emit_wrote (e : Emit) : (s.emit e).wrote = s.wrote := (rfl)
@[simp] theorem State.emit_mgmt (e : Emit) : (s.emit e).mgmt = s.mgmt := (rfl)
@[simp] theorem State.emit_fuses (e : Emit) : (s.emit e).fuses = s.fuses := (rfl)
@[simp] theorem State.emit_flash (e : Emit) : (s.emit e).flash = s.flash := (rfl)
@[simp] theorem State.emit_pins (e : Emit) : (s.emit e).pins = s.pins := (rfl)
@[simp] theorem State.emit_boot (e : Emit) : (s.emit e).boot = s.boot := (rfl)

/-! ### freeNat -/

@[simp] theorem State.freeNat_pending (w : Nat) : (s.freeNat w).2.pending = s.pending := (rfl)
@[simp] theorem State.freeNat_tick (w : Nat) : (s.freeNat w).2.tick = s.tick := (rfl)
@[simp] theorem State.freeNat_run (w : Nat) : (s.freeNat w).2.run = s.run := (rfl)
@[simp] theorem State.freeNat_startStep (w : Nat) : (s.freeNat w).2.startStep = s.startStep := (rfl)
@[simp] theorem State.freeNat_ready (w : Nat) : (s.freeNat w).2.ready = s.ready := (rfl)
@[simp] theorem State.freeNat_regs (w : Nat) : (s.freeNat w).2.regs = s.regs := (rfl)
@[simp] theorem State.freeNat_staged (w : Nat) : (s.freeNat w).2.staged = s.staged := (rfl)
@[simp] theorem State.freeNat_shadow (w : Nat) : (s.freeNat w).2.shadow = s.shadow := (rfl)
@[simp] theorem State.freeNat_snap (w : Nat) : (s.freeNat w).2.snap = s.snap := (rfl)
@[simp] theorem State.freeNat_snapHeld (w : Nat) : (s.freeNat w).2.snapHeld = s.snapHeld := (rfl)
@[simp] theorem State.freeNat_cntClr (w : Nat) : (s.freeNat w).2.cntClr = s.cntClr := (rfl)
@[simp] theorem State.freeNat_applyReq (w : Nat) : (s.freeNat w).2.applyReq = s.applyReq := (rfl)
@[simp] theorem State.freeNat_applyDue (w : Nat) : (s.freeNat w).2.applyDue = s.applyDue := (rfl)
@[simp] theorem State.freeNat_applyAt (w : Nat) : (s.freeNat w).2.applyAt = s.applyAt := (rfl)
@[simp] theorem State.freeNat_covered (w : Nat) : (s.freeNat w).2.covered = s.covered := (rfl)
@[simp] theorem State.freeNat_strobed (w : Nat) : (s.freeNat w).2.strobed = s.strobed := (rfl)
@[simp] theorem State.freeNat_snapReq (w : Nat) : (s.freeNat w).2.snapReq = s.snapReq := (rfl)
@[simp] theorem State.freeNat_snapArmed (w : Nat) : (s.freeNat w).2.snapArmed = s.snapArmed := (rfl)
@[simp] theorem State.freeNat_snapEdge (w : Nat) : (s.freeNat w).2.snapEdge = s.snapEdge := (rfl)
@[simp] theorem State.freeNat_elog (w : Nat) : (s.freeNat w).2.elog = s.elog := (rfl)
@[simp] theorem State.freeNat_nextSeq (w : Nat) : (s.freeNat w).2.nextSeq = s.nextSeq := (rfl)
@[simp] theorem State.freeNat_tickSeq (w : Nat) : (s.freeNat w).2.tickSeq = s.tickSeq := (rfl)
@[simp] theorem State.freeNat_through (w : Nat) : (s.freeNat w).2.through = s.through := (rfl)
@[simp] theorem State.freeNat_out (w : Nat) : (s.freeNat w).2.out = s.out := (rfl)
@[simp] theorem State.freeNat_quarters (w : Nat) : (s.freeNat w).2.quarters = s.quarters := (rfl)
@[simp] theorem State.freeNat_gov (w : Nat) : (s.freeNat w).2.gov = s.gov := (rfl)
@[simp] theorem State.freeNat_tickGen (w : Nat) : (s.freeNat w).2.tickGen = s.tickGen := (rfl)
@[simp] theorem State.freeNat_job (w : Nat) : (s.freeNat w).2.job = s.job := (rfl)
@[simp] theorem State.freeNat_cores (w : Nat) : (s.freeNat w).2.cores = s.cores := (rfl)
@[simp] theorem State.freeNat_stations (w : Nat) : (s.freeNat w).2.stations = s.stations := (rfl)
@[simp] theorem State.freeNat_mem (w : Nat) : (s.freeNat w).2.mem = s.mem := (rfl)
@[simp] theorem State.freeNat_memPoison (w : Nat) : (s.freeNat w).2.memPoison = s.memPoison := (rfl)
@[simp] theorem State.freeNat_reqs (w : Nat) : (s.freeNat w).2.reqs = s.reqs := (rfl)
@[simp] theorem State.freeNat_nextReq (w : Nat) : (s.freeNat w).2.nextReq = s.nextReq := (rfl)
@[simp] theorem State.freeNat_remotes (w : Nat) : (s.freeNat w).2.remotes = s.remotes := (rfl)
@[simp] theorem State.freeNat_held (w : Nat) : (s.freeNat w).2.held = s.held := (rfl)
@[simp] theorem State.freeNat_flight (w : Nat) : (s.freeNat w).2.flight = s.flight := (rfl)
@[simp] theorem State.freeNat_waiting (w : Nat) : (s.freeNat w).2.waiting = s.waiting := (rfl)
@[simp] theorem State.freeNat_admitted (w : Nat) : (s.freeNat w).2.admitted = s.admitted := (rfl)
@[simp] theorem State.freeNat_arrivals (w : Nat) : (s.freeNat w).2.arrivals = s.arrivals := (rfl)
@[simp] theorem State.freeNat_ctls (w : Nat) : (s.freeNat w).2.ctls = s.ctls := (rfl)
@[simp] theorem State.freeNat_tails (w : Nat) : (s.freeNat w).2.tails = s.tails := (rfl)
@[simp] theorem State.freeNat_parts (w : Nat) : (s.freeNat w).2.parts = s.parts := (rfl)
@[simp] theorem State.freeNat_whittle (w : Nat) : (s.freeNat w).2.whittle = s.whittle := (rfl)
@[simp] theorem State.freeNat_hsMail (w : Nat) : (s.freeNat w).2.hsMail = s.hsMail := (rfl)
@[simp] theorem State.freeNat_engines (w : Nat) : (s.freeNat w).2.engines = s.engines := (rfl)
@[simp] theorem State.freeNat_forwards (w : Nat) : (s.freeNat w).2.forwards = s.forwards := (rfl)
@[simp] theorem State.freeNat_nets (w : Nat) : (s.freeNat w).2.nets = s.nets := (rfl)
@[simp] theorem State.freeNat_ports (w : Nat) : (s.freeNat w).2.ports = s.ports := (rfl)
@[simp] theorem State.freeNat_qps (w : Nat) : (s.freeNat w).2.qps = s.qps := (rfl)
@[simp] theorem State.freeNat_tables (w : Nat) : (s.freeNat w).2.tables = s.tables := (rfl)
@[simp] theorem State.freeNat_bays (w : Nat) : (s.freeNat w).2.bays = s.bays := (rfl)
@[simp] theorem State.freeNat_latchOpen (w : Nat) : (s.freeNat w).2.latchOpen = s.latchOpen := (rfl)
@[simp] theorem State.freeNat_engineReset (w : Nat) : (s.freeNat w).2.engineReset = s.engineReset := (rfl)
@[simp] theorem State.freeNat_wrote (w : Nat) : (s.freeNat w).2.wrote = s.wrote := (rfl)
@[simp] theorem State.freeNat_mgmt (w : Nat) : (s.freeNat w).2.mgmt = s.mgmt := (rfl)
@[simp] theorem State.freeNat_fuses (w : Nat) : (s.freeNat w).2.fuses = s.fuses := (rfl)
@[simp] theorem State.freeNat_flash (w : Nat) : (s.freeNat w).2.flash = s.flash := (rfl)
@[simp] theorem State.freeNat_pins (w : Nat) : (s.freeNat w).2.pins = s.pins := (rfl)
@[simp] theorem State.freeNat_boot (w : Nat) : (s.freeNat w).2.boot = s.boot := (rfl)

end Sys2Proof.Machine
end

