-- ==== Sys2Proof/Laws/Registers.lean ====
section
/-!
SUPPORT. The register file: what a write of a register, a field or a pair leaves every register, field and pair reading as.
-/
namespace Sys2Proof

/-! ### Bit fields of a number -/

theorem bitsOf_lt (n lo len : Nat) : bitsOf n lo len < 2 ^ len := Nat.mod_lt _ (Nat.two_pow_pos _)

/-- A field inside a number is at most the number. -/
theorem bitsOf_mul_le (n lo len : Nat) : bitsOf n lo len * 2 ^ lo ≤ n :=
  Nat.le_trans (Nat.mul_le_mul_right _ (Nat.mod_le _ _)) (Nat.div_mul_le_self _ _)

theorem testBit_bitsOf (n lo len j : Nat) : (bitsOf n lo len).testBit j = (decide (j < len) && n.testBit (lo + j)) := by
  rw [bitsOf, Nat.testBit_mod_two_pow, Nat.testBit_div_two_pow, Nat.add_comm]

/-- Taking a field out of a number clears its bits. -/
theorem sub_bitsOf (n lo len : Nat) : n - bitsOf n lo len * 2 ^ lo = n % 2 ^ lo + n / 2 ^ (lo + len) * 2 ^ (lo + len) := by
  have h1 := Nat.div_add_mod n (2 ^ lo)
  have h2 := Nat.div_add_mod (n / 2 ^ lo) (2 ^ len)
  rw [Nat.div_div_eq_div_mul, ← Nat.pow_add] at h2
  have h3 : n = n % 2 ^ lo + n / 2 ^ (lo + len) * 2 ^ (lo + len) + bitsOf n lo len * 2 ^ lo := by
    unfold bitsOf
    calc n = 2 ^ lo * (n / 2 ^ lo) + n % 2 ^ lo := h1.symm
      _ = 2 ^ lo * (2 ^ len * (n / 2 ^ (lo + len)) + n / 2 ^ lo % 2 ^ len) + n % 2 ^ lo := by rw [h2]
      _ = _ := by
        rw [Nat.mul_add, ← Nat.mul_assoc, ← Nat.pow_add, Nat.mul_comm (2 ^ (lo + len)), Nat.mul_comm (2 ^ lo) (n / 2 ^ lo % 2 ^ len)]
        omega
  omega

/-- A number with a field replaced, by its parts below, in and above the field. -/
theorem withBits_eq (n lo len v : Nat) :
    withBits n lo len v = n % 2 ^ lo + (v % 2 ^ len) * 2 ^ lo + n / 2 ^ (lo + len) * 2 ^ (lo + len) := by
  rw [withBits, sub_bitsOf]; omega

theorem testBit_withBits (n lo len v j : Nat) :
    (withBits n lo len v).testBit j = if j < lo then n.testBit j else if j < lo + len then v.testBit (j - lo) else n.testBit j := by
  have e : withBits n lo len v = 2 ^ lo * (2 ^ len * (n / 2 ^ (lo + len)) + v % 2 ^ len) + n % 2 ^ lo := by
    rw [withBits_eq, Nat.mul_add, ← Nat.mul_assoc, ← Nat.pow_add, Nat.mul_comm (2 ^ (lo + len)), Nat.mul_comm (2 ^ lo) (v % 2 ^ len)]
    omega
  rw [e, Nat.testBit_two_pow_mul_add _ (Nat.mod_lt _ (Nat.two_pow_pos _))]
  split
  · next h => rw [Nat.testBit_mod_two_pow]; simp [h]
  · next h =>
    rw [Nat.testBit_two_pow_mul_add _ (Nat.mod_lt _ (Nat.two_pow_pos _))]
    by_cases h' : j < lo + len
    · have : j - lo < len := by omega
      rw [if_pos this, if_pos h', Nat.testBit_mod_two_pow]; simp [this]
    · have : ¬ j - lo < len := by omega
      rw [if_neg this, if_neg h', Nat.testBit_div_two_pow]
      congr 1; omega

theorem withBits_lt (n lo len v w : Nat) (hn : n < 2 ^ w) (h : lo + len ≤ w) : withBits n lo len v < 2 ^ w := by
  apply Nat.lt_pow_two_of_testBit
  intro j hj
  rw [testBit_withBits, if_neg (by omega), if_neg (by omega)]
  exact Nat.testBit_lt_two_pow (Nat.lt_of_lt_of_le hn (Nat.pow_le_pow_right (by decide) hj))

/-- A field just replaced reads as its new value. -/
theorem bitsOf_withBits_same (n lo len v : Nat) : bitsOf (withBits n lo len v) lo len = v % 2 ^ len := by
  apply Nat.eq_of_testBit_eq
  intro j
  rw [testBit_bitsOf, testBit_withBits, Nat.testBit_mod_two_pow]
  by_cases h : j < len
  · rw [if_neg (by omega), if_pos (by omega), Nat.add_sub_cancel_left]
  · simp [h]

/-- A field apart from the one replaced reads as before. -/
theorem bitsOf_withBits_ne (n lo len v lo' len' : Nat) (h : lo' + len' ≤ lo ∨ lo + len ≤ lo') :
    bitsOf (withBits n lo len v) lo' len' = bitsOf n lo' len' := by
  apply Nat.eq_of_testBit_eq
  intro j
  rw [testBit_bitsOf, testBit_bitsOf, testBit_withBits]
  by_cases hj : j < len'
  · rcases h with h | h
    · rw [if_pos (by omega)]
    · rw [if_neg (by omega), if_neg (by omega)]
  · simp [hj]

namespace Machine

variable (s : State)

/-! ### Keys -/

/-- Registers have one key each. -/
theorem rkey_inj {z i off z' i' off' : Nat} (hi : i < 4096) (ho : off < 4096) (hi' : i' < 4096) (ho' : off' < 4096) :
    rkey z i off = rkey z' i' off' ↔ z = z' ∧ i = i' ∧ off = off' := by
  unfold rkey
  omega

/-! ### Whole registers -/

@[simp] theorem State.rg_setRg_same (z i off : Nat) (v : W32) : (s.setRg z i off v).rg z i off = v := by
  simp [State.rg, State.setRg]

theorem State.rg_setRg_ne {z i off z' i' off' : Nat} (v : W32) (h : rkey z' i' off' ≠ rkey z i off) :
    (s.setRg z i off v).rg z' i' off' = s.rg z' i' off' := Sparse.get_put_ne _ _ h

theorem State.rg_setRg (z i off z' i' off' : Nat) (v : W32) :
    (s.setRg z i off v).rg z' i' off' = if rkey z' i' off' = rkey z i off then v else s.rg z' i' off' := Sparse.get_put _ _ _ _

/-! ### Fields -/

theorem State.rg_setFld_ne {z i off lo len v z' i' off' : Nat} (h : rkey z' i' off' ≠ rkey z i off) :
    (s.setFld z i off lo len v).rg z' i' off' = s.rg z' i' off' := s.rg_setRg_ne _ h

theorem State.rg_setFld_same_toNat {z i off lo len v : Nat} (h : lo + len ≤ 32) :
    ((s.setFld z i off lo len v).rg z i off).toNat = withBits (s.rg z i off).toNat lo len v := by
  rw [State.setFld, State.rg_setRg_same, BitVec.toNat_ofNat]
  exact Nat.mod_eq_of_lt (withBits_lt _ _ _ _ 32 (s.rg z i off).isLt h)

/-- A field just written reads as what was written, in its width. -/
theorem State.fld_setFld_same {z i off lo len v : Nat} (h : lo + len ≤ 32) :
    (s.setFld z i off lo len v).fld z i off lo len = v % 2 ^ len := by
  rw [State.fld, State.rg_setFld_same_toNat _ h, bitsOf_withBits_same]

/-- Another field of the register reads as before. -/
theorem State.fld_setFld_apart {z i off lo len v lo' len' : Nat} (h : lo + len ≤ 32) (ha : lo' + len' ≤ lo ∨ lo + len ≤ lo') :
    (s.setFld z i off lo len v).fld z i off lo' len' = s.fld z i off lo' len' := by
  rw [State.fld, State.rg_setFld_same_toNat _ h, bitsOf_withBits_ne _ _ _ _ _ _ ha, State.fld]

/-- A field of another register reads as before. -/
theorem State.fld_setFld_ne {z i off lo len v z' i' off' lo' len' : Nat} (h : rkey z' i' off' ≠ rkey z i off) :
    (s.setFld z i off lo len v).fld z' i' off' lo' len' = s.fld z' i' off' lo' len' := by
  rw [State.fld, State.rg_setFld_ne _ h, State.fld]

theorem State.fld_setRg_same (z i off lo len : Nat) (v : W32) : (s.setRg z i off v).fld z i off lo len = bitsOf v.toNat lo len := by
  rw [State.fld, State.rg_setRg_same]

theorem State.fld_setRg_ne {z i off z' i' off' lo len : Nat} (v : W32) (h : rkey z' i' off' ≠ rkey z i off) :
    (s.setRg z i off v).fld z' i' off' lo len = s.fld z' i' off' lo len := by
  rw [State.fld, State.rg_setRg_ne _ _ h, State.fld]

/-! ### Flags -/

theorem State.flag_setFlag_same {z i off lo : Nat} {b : Bool} (h : lo < 32) : (s.setFlag z i off lo b).flag z i off lo = b := by
  rw [State.flag, State.setFlag, State.fld_setFld_same _ (by omega)]
  cases b <;> rfl

theorem State.flag_setFlag_apart {z i off lo lo' : Nat} {b : Bool} (h : lo < 32) (ha : lo' ≠ lo) :
    (s.setFlag z i off lo b).flag z i off lo' = s.flag z i off lo' := by
  rw [State.flag, State.setFlag, State.fld_setFld_apart _ (by omega) (by omega), State.flag]

theorem State.flag_setFlag_ne {z i off lo z' i' off' lo' : Nat} {b : Bool} (h : rkey z' i' off' ≠ rkey z i off) :
    (s.setFlag z i off lo b).flag z' i' off' lo' = s.flag z' i' off' lo' := by
  rw [State.flag, State.setFlag, State.fld_setFld_ne _ h, State.flag]

theorem State.rg_setFlag_ne {z i off lo z' i' off' : Nat} {b : Bool} (h : rkey z' i' off' ≠ rkey z i off) :
    (s.setFlag z i off lo b).rg z' i' off' = s.rg z' i' off' := s.rg_setFld_ne h

theorem State.fld_setFlag_ne {z i off lo z' i' off' lo' len' : Nat} {b : Bool} (h : rkey z' i' off' ≠ rkey z i off) :
    (s.setFlag z i off lo b).fld z' i' off' lo' len' = s.fld z' i' off' lo' len' := s.fld_setFld_ne h

theorem State.fld_setFlag_apart {z i off lo lo' len' : Nat} {b : Bool} (h : lo < 32) (ha : lo' + len' ≤ lo ∨ lo < lo') :
    (s.setFlag z i off lo b).fld z i off lo' len' = s.fld z i off lo' len' := by
  rw [State.setFlag]; exact s.fld_setFld_apart (by omega) (by omega)

/-! ### Pairs and counters -/

theorem State.rg_setPair_ne {z i off v z' i' off' : Nat} (h : rkey z' i' off' ≠ rkey z i off) (h' : rkey z' i' off' ≠ rkey z i (off + 4)) :
    (s.setPair z i off v).rg z' i' off' = s.rg z' i' off' := by
  rw [State.setPair, State.rg_setRg_ne _ _ h', State.rg_setRg_ne _ _ h]

/-- A pair just written reads as what was written, modulo 2^64. -/
theorem State.pair_setPair_same (z i off v : Nat) : (s.setPair z i off v).pair z i off = v % 2 ^ 64 := by
  have h : rkey z i off ≠ rkey z i (off + 4) := by unfold rkey; omega
  rw [State.pair, State.setPair, State.rg_setRg_same, State.rg_setRg_ne _ _ h, State.rg_setRg_same]
  simp only [BitVec.toNat_ofNat]
  omega

theorem State.pair_bump_same (z i off n : Nat) : (s.bump z i off n).pair z i off = (s.pair z i off + n) % 2 ^ 64 := by
  unfold State.bump
  split
  · next h =>
    subst h
    have h1 := (s.rg z i off).isLt
    have h2 := (s.rg z i (off + 4)).isLt
    unfold State.pair
    omega
  · exact s.pair_setPair_same ..

theorem State.rg_bump_ne {z i off n z' i' off' : Nat} (h : rkey z' i' off' ≠ rkey z i off) (h' : rkey z' i' off' ≠ rkey z i (off + 4)) :
    (s.bump z i off n).rg z' i' off' = s.rg z' i' off' := by
  unfold State.bump
  split
  · rfl
  · exact s.rg_setPair_ne h h'

/-! ### Registers under the other updates -/

@[simp] theorem State.setQuarter_rg (d q : Nat) (x : Quarter) (z i off : Nat) : (s.setQuarter d q x).rg z i off = s.rg z i off := (rfl)
@[simp] theorem State.setQuarter_fld (d q : Nat) (x : Quarter) (z i off lo len : Nat) : (s.setQuarter d q x).fld z i off lo len = s.fld z i off lo len := (rfl)
@[simp] theorem State.setQuarter_flag (d q : Nat) (x : Quarter) (z i off lo : Nat) : (s.setQuarter d q x).flag z i off lo = s.flag z i off lo := (rfl)
@[simp] theorem State.setCore_rg (d c : Nat) (x : Core) (z i off : Nat) : (s.setCore d c x).rg z i off = s.rg z i off := (rfl)
@[simp] theorem State.setCore_fld (d c : Nat) (x : Core) (z i off lo len : Nat) : (s.setCore d c x).fld z i off lo len = s.fld z i off lo len := (rfl)
@[simp] theorem State.setCore_flag (d c : Nat) (x : Core) (z i off lo : Nat) : (s.setCore d c x).flag z i off lo = s.flag z i off lo := (rfl)
@[simp] theorem State.setStation_rg (d t : Nat) (x : Station) (z i off : Nat) : (s.setStation d t x).rg z i off = s.rg z i off := (rfl)
@[simp] theorem State.setStation_fld (d t : Nat) (x : Station) (z i off lo len : Nat) : (s.setStation d t x).fld z i off lo len = s.fld z i off lo len := (rfl)
@[simp] theorem State.setStation_flag (d t : Nat) (x : Station) (z i off lo : Nat) : (s.setStation d t x).flag z i off lo = s.flag z i off lo := (rfl)
@[simp] theorem State.setPart_rg (d q : Nat) (x : Parting) (z i off : Nat) : (s.setPart d q x).rg z i off = s.rg z i off := (rfl)
@[simp] theorem State.setPart_fld (d q : Nat) (x : Parting) (z i off lo len : Nat) : (s.setPart d q x).fld z i off lo len = s.fld z i off lo len := (rfl)
@[simp] theorem State.setPart_flag (d q : Nat) (x : Parting) (z i off lo : Nat) : (s.setPart d q x).flag z i off lo = s.flag z i off lo := (rfl)
@[simp] theorem State.setCtl_rg (d c : Nat) (x : Ctl) (z i off : Nat) : (s.setCtl d c x).rg z i off = s.rg z i off := (rfl)
@[simp] theorem State.setCtl_fld (d c : Nat) (x : Ctl) (z i off lo len : Nat) : (s.setCtl d c x).fld z i off lo len = s.fld z i off lo len := (rfl)
@[simp] theorem State.setCtl_flag (d c : Nat) (x : Ctl) (z i off lo : Nat) : (s.setCtl d c x).flag z i off lo = s.flag z i off lo := (rfl)
@[simp] theorem State.setTail_rg (t : Nat) (x : Tail) (z i off : Nat) : (s.setTail t x).rg z i off = s.rg z i off := (rfl)
@[simp] theorem State.setTail_fld (t : Nat) (x : Tail) (z i off lo len : Nat) : (s.setTail t x).fld z i off lo len = s.fld z i off lo len := (rfl)
@[simp] theorem State.setTail_flag (t : Nat) (x : Tail) (z i off lo : Nat) : (s.setTail t x).flag z i off lo = s.flag z i off lo := (rfl)
@[simp] theorem State.setPort_rg (p : Nat) (x : Port) (z i off : Nat) : (s.setPort p x).rg z i off = s.rg z i off := (rfl)
@[simp] theorem State.setPort_fld (p : Nat) (x : Port) (z i off lo len : Nat) : (s.setPort p x).fld z i off lo len = s.fld z i off lo len := (rfl)
@[simp] theorem State.setPort_flag (p : Nat) (x : Port) (z i off lo : Nat) : (s.setPort p x).flag z i off lo = s.flag z i off lo := (rfl)
@[simp] theorem State.setNet_rg (d : Nat) (x : Net) (z i off : Nat) : (s.setNet d x).rg z i off = s.rg z i off := (rfl)
@[simp] theorem State.setNet_fld (d : Nat) (x : Net) (z i off lo len : Nat) : (s.setNet d x).fld z i off lo len = s.fld z i off lo len := (rfl)
@[simp] theorem State.setNet_flag (d : Nat) (x : Net) (z i off lo : Nat) : (s.setNet d x).flag z i off lo = s.flag z i off lo := (rfl)
@[simp] theorem State.setEngine_rg (d : Nat) (x : Engine) (z i off : Nat) : (s.setEngine d x).rg z i off = s.rg z i off := (rfl)
@[simp] theorem State.setEngine_fld (d : Nat) (x : Engine) (z i off lo len : Nat) : (s.setEngine d x).fld z i off lo len = s.fld z i off lo len := (rfl)
@[simp] theorem State.setEngine_flag (d : Nat) (x : Engine) (z i off lo : Nat) : (s.setEngine d x).flag z i off lo = s.flag z i off lo := (rfl)
@[simp] theorem State.setQp_rg (d q : Nat) (x : Qp) (z i off : Nat) : (s.setQp d q x).rg z i off = s.rg z i off := (rfl)
@[simp] theorem State.setQp_fld (d q : Nat) (x : Qp) (z i off lo len : Nat) : (s.setQp d q x).fld z i off lo len = s.fld z i off lo len := (rfl)
@[simp] theorem State.setQp_flag (d q : Nat) (x : Qp) (z i off lo : Nat) : (s.setQp d q x).flag z i off lo = s.flag z i off lo := (rfl)
@[simp] theorem State.setTable_rg (e t n v : Nat) (z i off : Nat) : (s.setTable e t n v).rg z i off = s.rg z i off := (rfl)
@[simp] theorem State.setTable_fld (e t n v : Nat) (z i off lo len : Nat) : (s.setTable e t n v).fld z i off lo len = s.fld z i off lo len := (rfl)
@[simp] theorem State.setTable_flag (e t n v : Nat) (z i off lo : Nat) : (s.setTable e t n v).flag z i off lo = s.flag z i off lo := (rfl)
@[simp] theorem State.emit_rg (e : Emit) (z i off : Nat) : (s.emit e).rg z i off = s.rg z i off := (rfl)
@[simp] theorem State.emit_fld (e : Emit) (z i off lo len : Nat) : (s.emit e).fld z i off lo len = s.fld z i off lo len := (rfl)
@[simp] theorem State.emit_flag (e : Emit) (z i off lo : Nat) : (s.emit e).flag z i off lo = s.flag z i off lo := (rfl)
@[simp] theorem State.freeNat_rg (w : Nat) (z i off : Nat) : (s.freeNat w).2.rg z i off = s.rg z i off := (rfl)
@[simp] theorem State.freeNat_fld (w : Nat) (z i off lo len : Nat) : (s.freeNat w).2.fld z i off lo len = s.fld z i off lo len := (rfl)
@[simp] theorem State.freeNat_flag (w : Nat) (z i off lo : Nat) : (s.freeNat w).2.flag z i off lo = s.flag z i off lo := (rfl)

/-! ### Entries of the other stores -/

@[simp] theorem State.quarter_setQuarter (d q : Nat) (x : Quarter) : (s.setQuarter d q x).quarter d q = x := Sparse.get_put_same _ _ _
@[simp] theorem State.core_setCore (d c : Nat) (x : Core) : (s.setCore d c x).core d c = x := Sparse.get_put_same _ _ _
@[simp] theorem State.station_setStation (d t : Nat) (x : Station) : (s.setStation d t x).station d t = x := Sparse.get_put_same _ _ _
@[simp] theorem State.part_setPart (d q : Nat) (x : Parting) : (s.setPart d q x).part d q = x := Sparse.get_put_same _ _ _
@[simp] theorem State.ctl_setCtl (d c : Nat) (x : Ctl) : (s.setCtl d c x).ctl d c = x := Sparse.get_put_same _ _ _
@[simp] theorem State.tail_setTail (t : Nat) (x : Tail) : (s.setTail t x).tail t = x := Sparse.get_put_same _ _ _
@[simp] theorem State.port_setPort (p : Nat) (x : Port) : (s.setPort p x).port p = x := Sparse.get_put_same _ _ _
@[simp] theorem State.net_setNet (d : Nat) (x : Net) : (s.setNet d x).net d = x := Sparse.get_put_same _ _ _
@[simp] theorem State.engine_setEngine (d : Nat) (x : Engine) : (s.setEngine d x).engine d = x := Sparse.get_put_same _ _ _
@[simp] theorem State.qp_setQp (d q : Nat) (x : Qp) : (s.setQp d q x).qp d q = x := Sparse.get_put_same _ _ _
theorem State.quarter_setQuarter_ne {d q d' q' : Nat} (x : Quarter) (h : 4 * d' + q' ≠ 4 * d + q) : (s.setQuarter d q x).quarter d' q' = s.quarter d' q' :=
  Sparse.get_put_ne _ _ h
theorem State.core_setCore_ne {d c d' c' : Nat} (x : Core) (h : 24 * d' + c' ≠ 24 * d + c) : (s.setCore d c x).core d' c' = s.core d' c' :=
  Sparse.get_put_ne _ _ h
theorem State.station_setStation_ne {d t d' t' : Nat} (x : Station) (h : 30 * d' + t' ≠ 30 * d + t) : (s.setStation d t x).station d' t' = s.station d' t' :=
  Sparse.get_put_ne _ _ h
theorem State.part_setPart_ne {d q d' q' : Nat} (x : Parting) (h : 4 * d' + q' ≠ 4 * d + q) : (s.setPart d q x).part d' q' = s.part d' q' :=
  Sparse.get_put_ne _ _ h
theorem State.ctl_setCtl_ne {d c d' c' : Nat} (x : Ctl) (h : 24 * d' + c' ≠ 24 * d + c) : (s.setCtl d c x).ctl d' c' = s.ctl d' c' :=
  Sparse.get_put_ne _ _ h
theorem State.tail_setTail_ne {t t' : Nat} (x : Tail) (h : t' ≠ t) : (s.setTail t x).tail t' = s.tail t' :=
  Sparse.get_put_ne _ _ h
theorem State.port_setPort_ne {p p' : Nat} (x : Port) (h : p' ≠ p) : (s.setPort p x).port p' = s.port p' :=
  Sparse.get_put_ne _ _ h
theorem State.net_setNet_ne {d d' : Nat} (x : Net) (h : d' ≠ d) : (s.setNet d x).net d' = s.net d' :=
  Sparse.get_put_ne _ _ h
theorem State.engine_setEngine_ne {d d' : Nat} (x : Engine) (h : d' ≠ d) : (s.setEngine d x).engine d' = s.engine d' :=
  Sparse.get_put_ne _ _ h
theorem State.qp_setQp_ne {d q d' q' : Nat} (x : Qp) (h : 1024 * d' + q' ≠ 1024 * d + q) : (s.setQp d q x).qp d' q' = s.qp d' q' :=
  Sparse.get_put_ne _ _ h

end Machine
end Sys2Proof
end

