-- ==== Sys2Proof/Tests/Slice0.lean ====
section
/-!
SUPPORT. Tests: words of engine instructions written out from the encoding tables, ill-formed terms that the checks refuse, and values
that the spec or a standard gives.
-/
namespace Sys2Proof
set_option Elab.async false

/-! ### Decoding: fields placed by the tables' bit ranges -/

/-- Table 8.2, 0x01. -/
theorem test_decode_end : decodeEng true 0 0x0100000000000000 0 0 =
    some (.endProg) := by decide +kernel

/-- Table 8.2: LEVEL [51:50], TARGET [49:36], COUNT [35:20]. -/
theorem test_decode_loop : decodeEng false 9 0x020C005FFFF00000 0 0 =
    some (.loop 3 5 65535) := by decide +kernel

/-- Table 8.2: N [51:32]. -/
theorem test_decode_delay : decodeEng true 0 0x030FFFFF00000000 0 0 =
    some (.delay 1048575) := by decide +kernel

/-- Table 8.2: C 55, DRAIN 54, DIE [51:49], SLOT [48:33], COUNT [32:17]. -/
theorem test_decode_tsig : decodeEng true 0 0x048E034A00040000 0 0 =
    some (.tsig true false 7 0x1A5 2) := by decide +kernel

/-- Table 8.2: FORM [53:52], SLOT [51:43], COUNT [42:27]. -/
theorem test_decode_twait_count : decodeEng true 0 0x050FF80008000000 0 0 =
    some (.twaitCount 511 1) := by decide +kernel

/-- Table 8.2: TICK [26:0]. -/
theorem test_decode_twait_tick : decodeEng true 0 0x0510200005000000 0 0 =
    some (.twaitTick 4 0 0x5000000) := by decide +kernel

/-- Table 8.2: TILE_ID [51:36]. -/
theorem test_decode_twait_land : decodeEng false 0 0x052BEEF000000000 0 0 =
    some (.twaitLand 0xBEEF) := by decide +kernel

/-- Table 8.2: QUEUE [51:48], LOCAL [47:31], LEN_M1 [30:25]; ADDR [55:8], AXEN 7, AX [6:5]. -/
theorem test_decode_qreq : decodeEng true 0 0x060BFFFFFE000000 0xFF123456789AC0C0 0 =
    some (.qreq 11 0x1FFFF 63 0x123456789AC0 true 2) := by decide +kernel

/-- Table 8.2: QUEUE [51:48], NUM [47:32]. -/
theorem test_decode_qwait : decodeEng true 0 0x0708004D00000000 0 0 =
    some (.qwait 8 77) := by decide +kernel

/-- Table 8.2: W 55, N [51:32]. -/
theorem test_decode_bubble : decodeEng true 0 0x0880004000000000 0 0 =
    some (.bubble true 64) := by decide +kernel

/-- Table 8.2: ARRAYS [51:48], LEAD [47:28], LENGTH [27:12], VEC 11. -/
theorem test_decode_hint : decodeEng true 0 0x090C000030009800 0 0 =
    some (.hint 12 3 9 true) := by decide +kernel

/-- Table 8.2: POINT [51:49]. -/
theorem test_decode_setop : decodeEng false 0 0x0A0C000000000000 0 0 =
    some (.setop 6) := by decide +kernel

/-- Table 8.2: C 55, MODE 54, DIR 53, NEAR 52, SRC [51:35], XFER_LAST [34:27], RETIRE [26:22]; BUF_LINE [55:42], TILE_ID [41:26]. -/
theorem test_decode_send : decodeEng true 0 0x0BCFFFC7FF400000 0xFFFFFC48D0000000 0 =
    some (.send true true false false 0x1FFF8 255 29 0x3FFF 0x1234) := by decide +kernel

/-- Table 8.2: ADD 55, REG [51:50], VALUE [47:0]. -/
theorem test_decode_axset : decodeEng true 0 0x0C88FFFFFFFFFFFF 0 0 =
    some (.axset true 2 0xFFFFFFFFFFFF) := by decide +kernel

/-- Table 8.4: TRANSPOSE 55, ARRAY [51:50], FMT [49:42], K_M1 [41:35], NCODE [34:33], SRC [32:16], PITCH [15:6]; SCALE [55:39]. -/
theorem test_decode_wld : decodeEng true 0 0x10881EFD0001FFC0 0xFF00AA8000000000 0 =
    some (.wld true 2 7 95 2 0x10001 1023 0x155) := by decide +kernel

/-- Table 8.4: MASK [51:48]. -/
theorem test_decode_wswap : decodeEng true 0 0x1109000000000000 0 0 =
    some (.wswap 9) := by decide +kernel

/-- Table 8.4: SWAP 55, TRANSPOSE 54, EPI 53, MASK [51:48], MODE [47:46], M [45:30], ROW [29:13], PITCH [12:3]; FMT [55:48], WBASE [47:34], SCALE [33:17], TILE_ID [16:1]; DESC [55:39]. -/
theorem test_decode_rs : decodeEng true 0 0x12A5C04B10000108 0xFF018004000195FC 0xFF00200000000000 =
    some (.rs true false (some 0x40) 5 3 300 0x8000 33 1 0x2001 0 0xCAFE) := by decide +kernel

/-- Table 8.4: INT 55, C 54, MASK [51:48], WBASE [47:34], M [33:18], NCODE [17:16]; DESC [55:39], TILE_ID [38:23]. -/
theorem test_decode_epi : decodeEng true 0 0x1341001C02010000 0xFF000F8001000000 0 =
    some (.epi false true 1 7 128 1 0x1F 2) := by decide +kernel

/-- Table 8.4: SLOT [51:50], SRC [49:33]. -/
theorem test_decode_tbld : decodeEng true 0 0x140C020000000000 0 0 =
    some (.tbld 3 0x100) := by decide +kernel

/-- Table 8.6: SAT 55, VD [51:46], VA [45:40], VB [39:34], VC [33:28], FUNC [27:22], VL_M1 [21:10]. -/
theorem test_decode_vint : decodeEng false 0 0x228FC108325FFC00 0 0 =
    some (.vint true 63 1 2 3 9 2047) := by decide +kernel

/-- Table 8.6: PACKED 55, VD [51:46], VA [45:40], FUNC [27:22], VL_M1 [21:10]. -/
theorem test_decode_vsfu : decodeEng false 0 0x2381050000C03C00 0 0 =
    some (.vsfu true 4 5 3 15) := by decide +kernel

/-- Table 8.6: SAT 55, SR 54, VD, VA, SRC_FMT [39:32], DST_FMT [31:24], VL_M1 [21:10]; TILE_ID [55:40]. -/
theorem test_decode_vcvt : decodeEng false 0 0x264209000407FC00 0xFF00030000000000 0 =
    some (.vcvt false true 8 9 0 4 511 3) := by decide +kernel

/-- Table 8.6: V [51:46], UNIT [45:30], VL_M1 [21:10]. -/
theorem test_decode_sst : decodeEng false 0 0x2801E00000018C00 0 0 =
    some (.sst 7 0x8000 99) := by decide +kernel

/-- Table 8.6: UNIT [51:36], COUNT_M1 [35:29]; TAG [55:40], OFFSET [39:8]. -/
theorem test_decode_spush : decodeEng false 0 0x2900008800000000 0xFFABCD0000008000 0 =
    some (.spush 8 64 0xABCD 0x80) := by decide +kernel

/-- Table 8.6: VD [51:46], IMM [45:14], VL_M1 [13:2]. -/
theorem test_decode_vimm : decodeEng false 0 0x2A004FE000000014 0 0 =
    some (.vimm 1 0x3F800000 5) := by decide +kernel

/-! ### Illegal encodings (R201) -/

/-- END with a reserved bit. -/
theorem test_illegal_reserved_bit : decodeEng true 0 0x0100000000000001 0 0 = none := by decide +kernel

/-- opcode 0x00. -/
theorem test_illegal_zero_word : decodeEng true 0 0 0 0 = none := by decide +kernel

/-- a Skew opcode on a Gouge core. -/
theorem test_illegal_other_core : decodeEng true 0 0x2000000000000000 0 0 = none := by decide +kernel

/-- LOOP to its own word. -/
theorem test_illegal_loop_forward : decodeEng true 5 0x0200005000100000 0 0 = none := by decide +kernel

/-- DELAY of 0. -/
theorem test_illegal_delay_zero : decodeEng true 0 0x0300000000000000 0 0 = none := by decide +kernel

/-- TWAIT form 3. -/
theorem test_illegal_twait_form3 : decodeEng true 0 0x0530000000000000 0 0 = none := by decide +kernel

/-- QREQ without its extension word. -/
theorem test_illegal_qreq_no_extension : decodeEng true 0 0x0600000000000000 0x0100000000000000 0 = none := by decide +kernel

/-- QREQ address bits [5:0] not zero. -/
theorem test_illegal_qreq_misaligned : decodeEng true 0 0x0600000000000000 0xFF00000000002000 0 = none := by decide +kernel

/-- RS with EPI and MODE 0. -/
theorem test_illegal_rs_epi_start : decodeEng true 0 0x1221000040000008 0xFF01000000000000 0xFF00000000000000 = none := by decide +kernel

/-! ### Well-formedness: one ill-formed term for each check -/

theorem test_wf_control :
    (([.loop 4 0 1, .loop 0 0 0, .loop 0 7 1, .delay 0, .delay 0x100000, .tsig true false 8 0 1, .tsig true false 0 0x10000 1,
      .tsig true false 0 0 0, .twaitCount 512 1, .twaitCount 0 0, .twaitTick 0 0x10000 0, .twaitTick 0 0 0x8000000, .twaitLand 0x10000,
      .qreq 12 0 0 0 false 0, .qreq 0 0x20000 0 0 false 0, .qreq 0 0 64 0 false 0, .qreq 0 0 0 32 false 0, .qreq 0 0 0 0 false 4,
      .qwait 12 0, .qwait 0 0x10000, .bubble false 63, .bubble false 0x100000, .hint 13 0 0 false, .hint 0 0x100000 0 false,
      .hint 0 0 0x10000 false, .setop 8] : List EngInstr).all fun i => !i.wf true 7) = true := by decide +kernel

theorem test_wf_transfers :
    (([.send true false false false 1 0 0 0 0, .send true false false false 0 256 0 0 0, .send true false false false 0 0 32 0 0,
      .send true false false false 0 0 0 0x4000 0, .send true false false false 0 0 0 0 0x10000, .send true true false true 0 0 0 0 0,
      .send true false false true 0 0 1 0 0, .axset true 4 0, .axset true 0 (2 ^ 48), .cexp 4 0 0, .cexp 0 0x10000 0,
      .cexp 0 0 0x100000] : List EngInstr).all fun i => !i.wf true 7) = true := by decide +kernel

theorem test_wf_gouge :
    (([.wld false 4 1 0 0 0 1 0, .wld false 0 1 128 0 0 1 0, .wld false 0 1 0 3 0 1 0, .wld false 0 1 0 0 0x20000 1 0,
      .wld false 0 1 0 0 0 0 0, .wld false 0 1 0 0 0 1 5, .wswap 0, .wswap 16, .rs false false none 0 0 1 0 1 1 0 0 0,
      .rs false false none 1 0 0 0 1 1 0 0 0, .rs false false none 1 0 1 0 0 1 0 0 0, .rs false false (some 0) 1 1 1 0 1 1 0 0 0,
      .rs false false none 1 0 1 0 1 1 0x4000 0 0, .rs false false none 1 0 1 0 1 1 0 9 0, .epi false false 0 0 1 0 0 0,
      .epi false false 1 0 0 0 0 0, .epi false false 1 0 1 3 0 0, .tbld 4 0, .tbld 0 0x20000, .chout false 4 0 1 0 0 0 0 false 0 0,
      .chout false 0 0 1 3 0 0 0 false 0 0, .chout false 0 0 1 0 4 0 0 false 0 0, .chin false 0 0 1 3 0 0,
      .chin false 0 0x4000 1 0 0 0, .vimm 0 0 0] : List EngInstr).all fun i => !i.wf true 7) = true := by decide +kernel

theorem test_wf_skew :
    (([.vfp 64 0 0 0 0 0, .vfp 0 0 0 0 12 0, .vbf 0 0 0 0 12 0, .vint false 0 0 0 0 10 0, .vsfu false 0 0 6 0, .vred 0 0 3 0,
      .vperm 0 0 16 1 0, .vperm 0 0 0 3 0, .vcvt false false 0 0 256 0 0 0, .vcvt false false 0 0 0 0 4096 0, .sld 64 0 0,
      .sst 0 0x10000 0, .spush 1 0 0 0, .spush 0 128 0 0, .spush 0 0 0x10000 0, .spush 0 0 0 64, .vimm 64 0 0, .vimm 0 (2 ^ 32) 0,
      .qreq 0 0x10000 0 0 false 0, .wswap 1] : List EngInstr).all fun i => !i.wf false 7) = true := by decide +kernel

/-! ### Checks and conversions whose values are known elsewhere -/

open Sys2Proof.Machine

/-- The check value of CRC-16/CCITT-FALSE. -/
theorem test_crc16 : crc16 ([0x31, 0x32, 0x33, 0x34, 0x35, 0x36, 0x37, 0x38, 0x39] : List Byte) = 0x29B1 := by decide +kernel

/-- The check value of CRC-32C. -/
theorem test_crc32c : crc32c ([0x31, 0x32, 0x33, 0x34, 0x35, 0x36, 0x37, 0x38, 0x39] : List Byte) = 0xE3069283 := by decide +kernel

/-- ADDI x1, x2, -1 and C.ADDI x8, 1, from the RISC-V base and compressed formats. -/
theorem test_rv_addi : rvDecode 0xFFF10093 = some (.alui false 0 false 1 2 (BitVec.ofInt 64 (-1))) ∧
    rvcDecode 0x0405 = some (.alui false 0 false 8 8 1) := by decide +kernel

/-- Table 13.2's note: both pairs of an engine lie in slots 0 to 3 of connector J(4e); and the worked example of P27, slot 1 of J4. -/
theorem test_connectors :
    ((List.range 8).all fun n => (Machine.pairPorts n).all fun p => (Machine.portSlot p).1 == 4 * (n / 2) && (Machine.portSlot p).2 / 2 == n % 2) = true ∧
      Machine.portSlot 27 = (4, 1) ∧ Machine.slotFibres 1 = (2, 15) := by decide +kernel

end Sys2Proof
end

