-- ==== Sys2Proof/Tests/States.lean ====
section
/-!
SUPPORT. Small states from which the witnesses of the statements' hypotheses are built.
-/
namespace Sys2Proof.Witness
open Sys2Proof.Machine

/-- A ready module, with no laser module fitted. -/
def rdy : State := { State.reset with run := .ready, startStep := 8, ready := 2 ^ 32 - 1, bays := [] }

/-- A ready module at a tick. -/
def rdyAt (n : Nat) : State := { rdy with tick := n }

/-- A core of die 0 whose main program runs the words of its store. -/
def eng (k : Nat) (ws : List Nat) (x : Core) : State :=
  (rdy.setCore 0 k { x with store := Sparse.putRange nat0 [] 0 ws }).setProgState 0 k 1

/-- The same with one instruction at word `pc`. -/
def engI (k pc : Nat) (i : EngInstr) (x : Core) : State := (eng k (List.replicate pc 0 ++ encodeEng i) x).setProgPc 0 k pc

theorem meets_of {s : State} {d c pc : Nat} {i : EngInstr}
    (h : (s.fetch d c == .ok false pc ((encodeEng i).headD 0) i && !s.dispatchBad d c false i) = true) : Meets s d c false pc i := by
  rw [Bool.and_eq_true, beq_iff_eq, Bool.not_eq_true'] at h
  exact ⟨⟨_, h.1⟩, h.2⟩

theorem hart_meets {s : State} {op : QOp} {one : Bool} {f3 f7 : Nat}
    (h : (s.hartReady 0 0 0 && ((s.part 0 0).fetch (s.hart 0 0 0).pc == .instr (.custom one f3 f7 3 1 2) 4) &&
      (queueOp one f3 f7 == some op)) = true) :
    HartMeets s 0 0 0 op 4 ⟨f7, 3, (s.hart 0 0 0).reg 1, (s.hart 0 0 0).reg 2⟩ := by
  rw [Bool.and_eq_true, Bool.and_eq_true, beq_iff_eq, beq_iff_eq] at h
  exact ⟨h.1.1, one, f3, 1, 2, h.1.2, h.2, rfl, rfl⟩

/-- Hart 0 of quarter 0 of die 0, running from address 0 of its instruction memory. -/
def hartAt (code dm : List Byte) (x : Hart) (p : Parting) : State :=
  ((rdy.setPart 0 0 { p with imem := Sparse.putRange byte0 [] 0 code, dmem := Sparse.putRange byte0 [] 0 dm }).setHart 0 0 0 x).setHartState
    0 0 0 1

/-- An operation of the queue extension with rd = x3, rs1 = x1, rs2 = x2 (R221). -/
def qop (one : Bool) (f3 f7 : Nat) : List Byte :=
  bytesOf 4 (f7 * 2 ^ 25 + 2 * 2 ^ 20 + 1 * 2 ^ 15 + f3 * 2 ^ 12 + 3 * 2 ^ 7 + if one then 0x2B else 0x0B)

/-- Registers x1 and x2. -/
def regs12 (a b : W64) : Sparse W64 := [(1, a), (2, b)]

/-- First address of data memory, as a register holds it. -/
def base : W64 := BitVec.ofNat 64 Config.dmemBase

theorem dmemBase_lt : Config.dmemBase < 2 ^ 48 := by
  have h := Config.dmemPage.isLt
  have h' : Config.dmemPage.toNat * 2 ^ 18 < 2 ^ 30 * 2 ^ 18 := (Nat.mul_lt_mul_right (by decide)).mpr h
  exact Nat.lt_of_lt_of_eq h' (by decide)

theorem base_toNat : base.toNat = Config.dmemBase := by
  have h := dmemBase_lt
  unfold base
  rw [BitVec.toNat_ofNat]
  exact Nat.mod_eq_of_lt (Nat.lt_of_lt_of_le h (by decide))

theorem dataOffset_base {n : Nat} (h : n ≤ dmemBytes) : dataOffset base.toNat n = some 0 := by
  rw [base_toNat]
  unfold dataOffset
  rw [if_pos ⟨Nat.le_refl _, by omega⟩, Nat.sub_self]

theorem base_mod {k : Nat} (hk : k ∣ 2 ^ 18) : base.toNat % k = 0 := by
  rw [base_toNat]
  unfold Config.dmemBase
  obtain ⟨m, hm⟩ := hk
  rw [hm, Nat.mul_left_comm, Nat.mul_mod_right]

theorem dataPlace_base {n k : Nat} (st : Bool) (h : n ≤ dmemBytes) (hk : k ∣ 2 ^ 18) : dataPlace base.toNat n k st = .ok 0 := by
  simp only [dataPlace, base_mod hk, ne_eq, not_true_eq_false, if_false, dataOffset_base h]

theorem dataOffset_top : dataOffset (2 ^ 64 - 1) 16 = none := by
  unfold dataOffset
  exact if_neg fun k => absurd (Nat.lt_of_lt_of_le (Nat.add_lt_add_right dmemBase_lt dmemBytes) (by decide +kernel)) (Nat.not_lt.mpr k.2)

theorem hart_hartAt (code dm : List Byte) (x : Hart) (p : Parting) : (hartAt code dm x p).hart 0 0 0 = x := by
  show Sparse.get hart0 (Sparse.get Parting.initial (Sparse.put Parting.initial _ _ _) _).harts 0 = x
  rw [Sparse.get_put_same]
  exact Sparse.get_put_same _ _ _

/-- A transfer whose tag names source, retirement and the only line of its tile. -/
def tagOf (src retire : Nat) : HopTag :=
  { src := src, retire := retire, dir := false, mode := false, xfer := 0, xferLast := 0, bufLine := 0, tile := 1 }
def xferOf (src retire : Nat) : Xfer := { tag := tagOf src retire, data := 0x5A, poison := 0 }

/-- A ready module with one station of die 0. -/
def withStation (st : Nat) (y : Station) : State := rdy.setStation 0 st y

/-- An established session with a privilege, on connection 7, and its next request of a command. -/
def sess (p : Nat) : Session := { conn := 7, id := 3, priv := some p, seq := 4, lastAt := 0 }
def reqTo (x : Session) (cmd : Nat) (payload : List Byte := []) : MgmtReq :=
  let r : MgmtReq := { conn := 7, session := 3, seq := 5, payload := payload }
  { r with tag := x.tagFor r cmd }

/-- A ready module with a fitted transceiver and sessions. -/
def mgmtWith (l : List Session) : State :=
  { rdy.setRg 24 mgmtBlk 0x100 5 with mgmt := { rdy.mgmt with sessions := l }, pins := { rdy.pins with cage := some 1 } }

end Sys2Proof.Witness
end

