-- ==== Sys2Proof/Tests/WitnessClockPower.lean ====
section
/-!
SUPPORT. Witnesses: states and operands that meet the hypotheses of the statements on clock regions, the tick generator, the alert, trips,
the Governors and the power exchange.
-/
namespace Sys2Proof.Witness
open Sys2Proof.Machine
set_option Elab.async false

/-- Quarter 3 of die 7. -/
def atQ (n : Nat) (x : Quarter) (v : W32) : State := ((rdyAt n).setQuarter 7 3 x).setRg 7 (qBlk 3) 0x108 v

/-! ### PointsChangeByRegionHolds -/

theorem witness_request : (atQ 5 {} 0).run = .ready ∧ ((atQ 5 {} 0).quarter 7 3).faulted = false ∧ (atQ 5 {} 0).holding 7 3 = false ∧
    (7 : W32).toNat % 8 ≠ (atQ 5 {} 0).curPt 7 3 ∧ (8 : W32).toNat % 8 = (atQ 5 {} 0).curPt 7 3 := by decide +kernel

theorem witness_ramp : (atQ 5 {} 0x100).ramping 7 3 = true ∧ ((atQ 5 {} 0x100).quarter 7 3).rampLeft = 0 := by decide +kernel

/-- Point 6 pends, and the rail stands at its voltage. -/
def pending6 : State := ((atQ 5 { reqTick := 4 } 0x70).setFld 7 (qBlk 3) 0x110 16 16 (railOf 6)).setFld 7 (qBlk 3) 0x10C 0 8 0xFF

theorem witness_holdBegin : pending6.pendPt 7 3 = 6 ∧ pending6.holdReady 7 3 = true ∧ (pending6.quarter 7 3).droopSeen = false ∧
    pending6.subst 7 3 6 = 6 ∧ (6 : Nat) ≠ 7 ∧ 6 ≠ pending6.curPt 7 3 := by decide +kernel

theorem witness_lock : let s := atQ 285 { holdAt := some 5, holdTo := 6 } 0x80
    s.holding 7 3 = true ∧ (s.quarter 7 3).holdAt = some 5 ∧ (s.quarter 7 3).lockAt = none ∧ 5 < s.tick ∧ s.tick ≤ 5 + 280 := by
  decide +kernel

theorem witness_resume : let s := atQ 305 { holdAt := some 5, lockAt := some 285, holdTo := 7 } 0x80
    s.holding 7 3 = true ∧ s.alerted 7 3 = false ∧ (s.quarter 7 3).lockAt = some 285 ∧ 285 + 20 ≤ s.tick ∧
      (s.quarter 7 3).holdAt = some 5 ∧ s.tick ≤ 5 + 300 ∧ s.strobed = [] ∧ (s.quarter 7 3).holdTo < 8 ∧
      s.run = .ready ∧ (s.quarter 7 3).faulted = false := by decide +kernel

/-! ### ClockFaultsAndDroop -/

theorem witness_overrun : let s := atQ 305 { holdAt := some 5 } 0x80
    s.run = .ready ∧ (s.quarter 7 3).faulted = false ∧ s.powered = true ∧ s.holding 7 3 = true ∧
      (s.quarter 7 3).holdAt = some 5 ∧ 5 + 300 ≤ s.tick := by decide +kernel

/-- The limits of a period and of a duty cycle. -/
theorem witness_period :
    let bad (c : ClockSample) : Bool :=
      let jitter := if c.stretched then decide (2200 < c.period) else decide (c.period < 900) || decide (1100 < c.period)
      let duty := decide (c.duty < 400) || decide (600 < c.duty);
      jitter || duty
    bad ⟨false, 899, 500⟩ = true ∧ bad ⟨false, 900, 400⟩ = false ∧ bad ⟨false, 1101, 500⟩ = true ∧ bad ⟨true, 2201, 500⟩ = true ∧
      bad ⟨true, 2200, 600⟩ = false ∧ bad ⟨false, 1000, 601⟩ = true := by decide +kernel

theorem witness_stretch : let s := atQ 5 { recent := List.replicate 16 true } 0
    s.run = .ready ∧ s.powered = true ∧ s.qRuns 7 3 = true ∧ 0 < (8 : Fin 9).val ∧ s.duesOf 7 3 = [] ∧
      16 < ((true :: (s.quarter 7 3).recent).take 64).countP (· == true) := by decide +kernel

theorem witness_fault : let s := atQ 5 { faulted := true, faultEv := some (1, 11) } 0
    (s.quarter 7 3).faultEv = some (1, 11) ∧ 11 < 2 ^ 128 ∧ s.run = .ready ∧ s.flag 24 elogBlk 0x184 0 = false ∧ s.elog.length < 4096 ∧
      (rdy.quarter 7 3).faultEv = none := by decide +kernel

theorem witness_droopClear : let s := atQ 5 { unstretched := 64 } 0x400
    s.qRuns 7 3 = true ∧ s.droopFlag 7 3 = true ∧ 64 ≤ (s.quarter 7 3).unstretched := by decide +kernel

theorem witness_droopRelease : let s := atQ 5 { unstretched := 256 } 0x800
    s.qRuns 7 3 = true ∧ s.droopLim 7 3 = true ∧ 256 ≤ (s.quarter 7 3).unstretched := by decide +kernel

theorem witness_stalledChange : let s := atQ 100000 { deferFrom := some 0 } 0x440
    (s.quarter 7 3).deferFrom = some 0 ∧ 0 + 100000 ≤ s.tick ∧ (1 : W32).getLsbD 0 = true ∧ s.inReset = false := by decide +kernel

/-! ### TickGeneratorRules -/

theorem witness_tickSet : rdy.inReset = false ∧ (2 : W32).getLsbD 1 = true ∧ rdy.programLoaded = false ∧
    ({ rdy with job := some { id := 3 } } : State).programLoaded = true := by decide +kernel

theorem witness_tickWrites : ({ rdy with tickGen := { setNext := true } } : State).tickGen.setNext = true ∧
    ({ rdy with tickGen := { phases := [-5] } } : State).tickGen.phases = [-5] ∧
    ({ rdy with tickGen := { phases := [-5] } } : State).tickGen.setNext = false := by decide +kernel

theorem witness_phase : let s := rdy.setRg 24 2 0x118 (BitVec.ofInt 32 (-999999))
    (s.rg 24 2 0x118).toInt + (BitVec.ofInt 32 (-1)).toInt = -1000000 ∧
      (s.rg 24 2 0x118).toInt + (BitVec.ofInt 32 (-2)).toInt < -1000000 ∧
      (s.rg 24 2 0x118).toInt + (BitVec.ofInt 32 1999999).toInt = 1000000 ∧
      1000000 < (s.rg 24 2 0x118).toInt + (BitVec.ofInt 32 2000000).toInt := by decide +kernel

theorem witness_holdover : let s := { rdy.setRg 24 2 0x108 1 with tickGen := { sinceAdj := 2 ^ 28 } }
    s.flag 24 2 0x108 0 = true ∧ 2 ^ 28 ≤ s.tickGen.sinceAdj := by decide +kernel

/-! ### AlertsAndTrips -/

def supply (vin : Nat) : SupplySample := ⟨false, vin, 12000, 0, false, false⟩
def alertState (clearAt : Option Nat) (n : Nat) : State :=
  let s := (rdyAt n).setRg 24 0 0x188 1
  { s with gov := { s.gov with clearAt := clearAt } }

theorem witness_alert : rdy.run = .ready ∧ rdy.alertSources (supply 48499) ≠ 0 ∧ rdy.alertSources (supply 48500) = 0 ∧
    rdy.alertOn = false ∧ rdy.elog.length < 4096 ∧ rdy.qRuns 0 0 = true ∧
    (atQ 5 {} 5).qRuns 7 3 = true ∧ (atQ 5 {} 5).curPt 7 3 ≠ 0 ∧ (atQ 5 {} 5).pendValid 7 3 = false := by decide +kernel

/-- A quarter whose region hold began in the present tick. -/
def holdNow : State :=
  let x := rdy.quarter 1 2
  (rdy.setQuarter 1 2 { x with holdAt := some rdy.tick, before := some ⟨0, 0, none, 0, none⟩ }).setFlag 1 (qBlk 2) 0x108 7 true

theorem witness_holdBack :
    (holdNow.quarter 1 2).before.isSome = true ∧ (holdNow.quarter 1 2).holdAt = some holdNow.tick ∧ holdNow.holding 1 2 = true ∧
      (holdNow.quarter 1 2).faulted = false ∧ holdNow.alertSources (supply 48499) ≠ 0 ∧ holdNow.alertOn = false := by decide +kernel

theorem witness_sources : (alertState none 5).alertOn = true ∧ (alertState none 5).alertSources (supply 48500) = 0 ∧
    (alertState none 5).alertSources (supply 48000) ≠ 0 := by decide +kernel

theorem witness_clearDone : (alertState (some 5) 100005).clearDone = true ∧ (alertState (some 5) 100004).clearDone = false ∧
    (alertState (some 5) 100004).alertOn = true ∧ (0x80 : W32).getLsbD 7 = true := by decide +kernel

theorem witness_off : 60000 < 60001 ∧ 43999 < 44000 ∧ 10000 ≤ 10000 ∧ 155000 < 155001 ∧ 1000 ≤ 1000 := by decide

theorem witness_trip :
    let hot (f : SensorSample) := (f.junction ++ f.sapwood).find? fun p => decide (105 ≤ p.2)
    let causes (f : SensorSample) : Nat := b2n (hot f).isSome + b2n (decide (45 < f.inlet) || decide (45 < f.carrier) ||
      decide (f.carrierOhms < 1450) || decide (28700 < f.carrierOhms)) * 2 + b2n (f.leakTwice || f.wet) * 4
    causes { junction := [(0, 104), (31, 105)], inlet := 45, carrier := 46, leakTwice := true } = 7 ∧ causes { inlet := 46 } = 2 ∧ causes { carrierOhms := 28701 } = 2 ∧
      causes { carrierOhms := 1449 } = 2 ∧
      hot { junction := [(0, 104)], sapwood := [(27, 105)] } = some (27, 105) ∧ rdy.run = .ready ∧ rdy.powered = true ∧
      rdy.fld 24 0 0x1B8 0 3 = 0 ∧ rdy.flag 24 elogBlk 0x184 0 = false ∧ rdy.elog.length < 4096 := by decide +kernel

theorem witness_newEdge : let s := alertState (some 5) 6
    s.alertOn = true ∧ s.gov.srcNow = 0 ∧ s.alertSources (supply 48000) ≠ 0 ∧ s.elog.length < 4096 := by decide +kernel

/-! ### GovernorStepsStayInRange, GovernorsControl -/

theorem witness_steps : updateK 512 (6000, 1) 2000 = 170 ∧ updateK 8 (6000, 1) 2000 = 8 ∧ updateK 511 (2000, 1) 2000 = 512 ∧
    updateK 512 (20001, 10) 2000 = 511 ∧ updateCeil 1 95 = 1 ∧
    updateCeil 64 95 = 56 ∧ updateCeil 64 92 = 64 := by decide +kernel

def govWith (n : Nat) (g : Gov) : State := { rdyAt n with gov := g }

theorem witness_period_end : (rdyAt 10000).run = .ready ∧ (rdyAt 10000).tick % 10000 = 0 ∧ (rdyAt 10000).gov.alive0 = true ∧
    (rdyAt 10000).alertOn = false ∧ (govWith 10000 { alive0 := false, alive1 := false }).gov.alive1 = false := by decide +kernel

theorem witness_results :
    let s := govWith 10500 { nextK := some [64, 63, 1, 1, 1, 1, 1, 1], nextAt := 10000 }
    s.gov.nextK = some [64, 63, 1, 1, 1, 1, 1, 1] ∧ s.gov.nextAt + 500 ≤ s.tick ∧ s.gov.nextPts = [] ∧ s.alertOn = false ∧
      (s.setRg 24 0 0x188 1).alertOn = true := by decide +kernel

theorem witness_share : let s := govWith 100000 { coreCyc := [(7, 3)], waitCyc := [(7, 4)] }
    s.tick % 100000 = 0 ∧ 0 < Sparse.get nat0 s.gov.coreCyc 7 ∧ 200 ≤ (govWith 5 { unmet := 200 }).gov.unmet := by decide +kernel

theorem witness_capWrite : max 2000 (min 6000 ((1999 : W32).toNat % 2 ^ 13)) = 2000 ∧ max 2000 (min 6000 ((8191 : W32).toNat % 2 ^ 13)) = 6000 := by
  decide +kernel

theorem witness_govFail (g : Fin 2) : (if g.val = 0 then rdy.gov.alive0 else rdy.gov.alive1) = true ∧ rdy.elog.length < 4096 := by
  revert g
  decide +kernel

theorem witness_missing : let s := govWith 5 { missed := 3 }
    s.run = .ready ∧ 3 ≤ s.gov.missed ∧ bitOf s.gov.srcNow 5 = false ∧ s.elog.length + 1 < 4096 ∧ s.alertOn = false ∧
      s.flag 24 elogBlk 0x184 0 = false ∧ (s.setRg 24 0 0x188 1).alertOn = true := by decide +kernel

/-! ### PowerIsExchanged -/

/-- Member 1 of an exchange of two. -/
def member (n : Nat) (g : Gov) : State := ((govWith n g).setFlag 24 0 0x10C 2 true).setRg 24 0 0x1B0 (BitVec.ofNat 32 (1 + 1 * 2 ^ 4))
def statusOf (rank n : Nat) : CapStatus := ⟨n, rank, 3, 4000, 0⟩

theorem witness_send : (member 2010000 {}).exchanging = true ∧ (member 2010000 {}).tick % 1000000 = 10000 ∧
    (rdyAt 300).tick % 100 = 0 ∧ (rdyAt 300).tick % 10000 < 500 ∧ (rdyAt 500).tick % 100 = 0 ∧ 500 ≤ (rdyAt 500).tick % 10000 := by
  decide +kernel

theorem witness_status :
    let w := BitVec.ofNat 256 (statusOf 0 1).bits
    let s := (member 2300000 {}).setNet 0 { ctrl := [w] }
    (s.net 0).ctrl = w :: [] ∧ s.exchanging = true ∧ s.readStatus w = some (statusOf 0 1) ∧
      s.readStatus (BitVec.ofNat 256 (statusOf 2 1).bits) = none := by decide +kernel

theorem witness_targets :
    let s := member 2500000 { statuses := [statusOf 0 1, statusOf 1 1] }
    let sts := (List.range (s.fld 24 0 0x1B0 0 4 + 1)).filterMap fun r =>
      s.gov.statuses.find? fun c => c.rank == r && c.interval == lastInterval s.tick
    s.exchanging = true ∧ s.tick % 1000000 = 500000 ∧ s.gov.targets = [] ∧ sts.length = s.fld 24 0 0x1B0 0 4 + 1 ∧
      (member 2500000 {}).gov.statuses = [] := by decide +kernel

/-- Of two members' statuses one is there. -/
theorem witness_someLacking : let s := member 2500000 { statuses := [statusOf 0 1] }
    s.exchanging = true ∧ s.tick % 1000000 = 500000 ∧ ((List.range (s.fld 24 0 0x1B0 0 4 + 1)).filterMap fun r =>
      s.gov.statuses.find? fun c => c.rank == r && c.interval == lastInterval s.tick).length ≤ s.fld 24 0 0x1B0 0 4 := by decide +kernel

end Sys2Proof.Witness
end

