-- ==== Sys2Proof/Tests/WitnessCores.lean ====
section
/-!
SUPPORT. Witnesses: states and operands that meet the hypotheses of the statements on the machine, the cores and the harts.
-/
namespace Sys2Proof.Witness
open Sys2Proof.Machine
set_option Elab.async false

/-! ### StepRunsCommand, QueueIsFifo, StepKeepsCanonical, ResetRegisters, the encoding statements -/

theorem witness_stepRunsCommand : ({ rdy with pending := [.shadowRefresh, .wdogKick] } : State).pending = .shadowRefresh :: [.wdogKick] ∧
    rdy.pending = [] := by decide +kernel

theorem witness_queueIsFifo : ∃ t, step rdy = .next t := ⟨_, rfl⟩

theorem witness_stepKeepsCanonical : (rdyAt 5).Canonical ∧ ∃ t, step (rdyAt 5) = .next t :=
  ⟨⟨by decide +kernel, by decide +kernel, by decide +kernel, by decide +kernel, by decide +kernel⟩, _, rfl⟩

theorem witness_resetRegisters : (pageType 0 1).isSome ∧ (pageType 24 5).isSome ∧ isGouge 1 = true ∧ isGouge 21 = true := by
  decide +kernel

def longRs : EngInstr := .rs true false (some 64) 15 3 65535 0 1023 1 0x3FFF 0 0xFFFF

theorem witness_engineDecodeEncode : longRs.wf true 0 = true ∧
    takeWords (engLength longRs) ((encodeEng longRs).getD 0 0) ((encodeEng longRs).getD 1 0) ((encodeEng longRs).getD 2 0) =
      encodeEng longRs := by decide +kernel

theorem witness_engineDecodeSound : decodeEng false 3 0x2A00000000000014 0 0 = some (.vimm 0 0 5) := by decide +kernel

/-! ### UnitInstructionsDispatch, UnitResults, ComparisonsWriteMasks -/

theorem witness_unit_enters :
    let s := engI 1 0 (.wswap 1) {}
    let t := s.past 0 1 false 0 (.wswap 1)
    s.fetch 0 1 = .ok false 0 0x1101000000000000 (.wswap 1) ∧ s.dispatchBad 0 1 false (.wswap 1) = false ∧
      unitCommand 0 1 {} EngOp.wswap = some (.wswap 0 1 {}) ∧ (((t.core 0 1).unit 0).filter fun e => !e.started).length < 4 ∧
      (t.core 0 1).registersFree false (.wswap 1) = true := by decide +kernel

def queuedEntry (i : EngInstr) : UEntry := { seq := 0, instr := i, facts := {}, backfill := false, word := 0, first := 0 }

theorem witness_unit_full :
    let s := engI 1 0 (.wswap 1) { units := [(0, List.replicate 4 (queuedEntry (.wswap 2)))] }
    Meets s 0 1 false 0 (.wswap 1) ∧ 4 ≤ ((((s.past 0 1 false 0 (.wswap 1)).core 0 1).unit 0).filter fun e => !e.started).length :=
  ⟨meets_of (by decide +kernel), by decide +kernel⟩

theorem witness_unit_registers :
    let s := engI 4 0 (.vimm 1 7 3) { units := [(0, [queuedEntry (.vimm 1 0 0)])] }
    Meets s 0 4 false 0 (.vimm 1 7 3) ∧ ((s.past 0 4 false 0 (.vimm 1 7 3)).core 0 4).registersFree false (.vimm 1 7 3) = false :=
  ⟨meets_of (by decide +kernel), by decide +kernel⟩

theorem witness_swap (a b : Nat) (ha : a < 4) (hb : b < 4) (h : rdy.physOf 0 1 a = rdy.physOf 0 1 b) : a = b := by
  have k : ∀ a b : Fin 4, rdy.physOf 0 1 a = rdy.physOf 0 1 b → a = b := by decide +kernel
  exact congrArg Fin.val (k ⟨a, ha⟩ ⟨b, hb⟩ h)

theorem witness_lanes : (rdy.core 0 4).inject = [] ∧ (0 : Nat) < 4096 := by decide +kernel

/-! ### ControlOfOwnProgram, ControlBeyondProgram, IllegalInstructionsStop -/

theorem witness_endProg : Meets (engI 1 0 (.endProg) {}) 0 1 false 0 (.endProg) :=
  meets_of (by decide +kernel)

theorem witness_delay : Meets (engI 4 0 (.delay 0xFFFFF) {}) 0 4 false 0 (.delay 0xFFFFF) :=
  meets_of (by decide +kernel)

theorem witness_loop_again :
    let s := engI 1 1 (.loop 3 0 2) {}
    let x := ((s.past 0 1 false 1 (.loop 3 0 2)).core 0 1)
    Meets (engI 1 1 (.loop 3 0 2) {}) 0 1 false 1 (.loop 3 0 2) ∧ (x.progOf false).loops.getD 3 0 < 2 - 1 :=
  ⟨meets_of (by decide +kernel), by decide +kernel⟩

theorem witness_loop_falls :
    let s := engI 1 1 (.loop 3 0 1) {}
    let x := ((s.past 0 1 false 1 (.loop 3 0 1)).core 0 1)
    Meets (engI 1 1 (.loop 3 0 1) {}) 0 1 false 1 (.loop 3 0 1) ∧ 1 - 1 ≤ (x.progOf false).loops.getD 3 0 :=
  ⟨meets_of (by decide +kernel), by decide +kernel⟩

theorem witness_axset : Meets (engI 1 0 (.axset true 3 0xFFFFFFFFFFFF) {}) 0 1 false 0 (.axset true 3 0xFFFFFFFFFFFF) :=
  meets_of (by decide +kernel)

theorem witness_qwait : Meets (engI 1 0 (.qwait 11 0xFFFF) {}) 0 1 false 0 (.qwait 11 0xFFFF) :=
  meets_of (by decide +kernel)

theorem witness_bubble : Meets (engI 1 0 (.bubble true 64) {}) 0 1 false 0 (.bubble true 64) :=
  meets_of (by decide +kernel)

theorem witness_twaitLand :
    let s := engI 1 0 (.twaitLand 0xFFFF) { landed := [0xFFFF] }
    let x := ((s.past 0 1 false 0 (.twaitLand 0xFFFF)).core 0 1)
    Meets (engI 1 0 (.twaitLand 0xFFFF) { landed := [0xFFFF] }) 0 1 false 0 (.twaitLand 0xFFFF) ∧ (x.claim 0xFFFF).isSome :=
  ⟨meets_of (by decide +kernel), by decide +kernel⟩

theorem witness_twaitTick : Meets (engI 1 0 (.twaitTick 511 0 0x7FFFFFF) {}) 0 1 false 0 (.twaitTick 511 0 0x7FFFFFF) :=
  meets_of (by decide +kernel)

theorem witness_tsig : Meets (engI 1 0 (.tsig true false 7 3 65535) {}) 0 1 false 0 (.tsig true false 7 3 65535) :=
  meets_of (by decide +kernel)

theorem witness_tsig_drain : Meets (engI 4 0 (.tsig true true 7 3 65535) {}) 0 4 false 0 (.tsig true true 7 3 65535) :=
  meets_of (by decide +kernel)

theorem witness_qreq :
    let s := engI 1 0 (.qreq 11 0x1FC0 63 0xFFFFFFFFC0 true 3) {}
    let x := ((s.past 0 1 false 0 (.qreq 11 0x1FC0 63 0xFFFFFFFFC0 true 3)).core 0 1)
    Meets (engI 1 0 (.qreq 11 0x1FC0 63 0xFFFFFFFFC0 true 3) {}) 0 1 false 0 (.qreq 11 0x1FC0 63 0xFFFFFFFFC0 true 3) ∧ x.mayPush false 11 = true :=
  ⟨meets_of (by decide +kernel), by decide +kernel⟩

theorem witness_hint_counted : Meets (engI 1 0 (.hint 12 1 1 true) {}) 0 1 false 0 (.hint 12 1 1 true) ∧
    ((engI 1 0 (.hint 12 1 1 true) {}).past 0 1 false 0 (.hint 12 1 1 true)).counted 0 0 = true :=
  ⟨meets_of (by decide +kernel), by decide +kernel⟩

theorem witness_hint_hinted :
    let s := (engI 1 0 (.hint 0 1 1 false) {}).setFlag 0 (qBlk 0) 0x180 0 true
    Meets s 0 1 false 0 (.hint 0 1 1 false) ∧ (s.past 0 1 false 0 (.hint 0 1 1 false)).counted 0 0 = false :=
  ⟨meets_of (by decide +kernel), by decide +kernel⟩

theorem witness_setop :
    let s := engI 1 0 (.setop 7) {}
    Meets s 0 1 false 0 (.setop 7) ∧ s.counted 0 0 = true ∧ (s.quarter 0 0).reqBy ≤ 1 :=
  ⟨meets_of (by decide +kernel), by decide +kernel⟩

theorem witness_setop_other :
    (let s := (engI 1 0 (.setop 7) {}).setFlag 0 (qBlk 0) 0x180 0 true;
      Meets s 0 1 false 0 (.setop 7) ∧ s.counted 0 0 = false) ∧
    (let s := (engI 1 0 (.setop 7) {}).setQuarter 0 0 { rdy.quarter 0 0 with reqBy := 2 };
      Meets s 0 1 false 0 (.setop 7) ∧ 1 < (s.quarter 0 0).reqBy) :=
  ⟨⟨meets_of (by decide +kernel), by decide +kernel⟩, meets_of (by decide +kernel), by decide +kernel⟩

theorem witness_cexp :
    let s := engI 1 0 (.cexp 3 0xFFFF 0xFFFFF) {}
    let x := ((s.past 0 1 false 0 (.cexp 3 0xFFFF 0xFFFFF)).core 0 1)
    Meets (engI 1 0 (.cexp 3 0xFFFF 0xFFFFF) {}) 0 1 false 0 (.cexp 3 0xFFFF 0xFFFFF) ∧ (declareTile (x.entries 3) 0xFFFF (dueCycle 0 0xFFFFF)).isSome :=
  ⟨meets_of (by decide +kernel), by decide +kernel⟩

theorem witness_illegalEncoding :
    let s := ((rdy.setCore 0 1 { store := [(16383, 0xFFFFFFFFFFFFFFFF)] }).setProgState 0 1 1).setProgPc 0 1 16383
    s.fetch 0 1 ≠ .idle ∧ (s.storeErrors 0 1 {}).fetch 0 1 = .bad false 16383 0xFFFFFFFFFFFFFFFF ∧
      (s.storeErrors 0 1 {}).elog.length < 4096 ∧ (s.storeErrors 0 1 {}).flag 0 1 0x018 0 = false ∧ s.sramCorrected 0 1 0 = s := by
  decide +kernel

theorem witness_poisonedWord :
    let s := engI 1 0 .endProg {}
    let r := s.storeErrors 0 1 { codeErr := [0] }
    s.fetch 0 1 ≠ .idle ∧ r.fetch 0 1 = .poison false 0 ∧ r.elog.length < 4096 := by decide +kernel

theorem witness_illegalOperand :
    let s := engI 4 0 (.vint false 0 0 0 0 0 2048) {}
    s.fetch 0 4 = .ok false 0 0x2200000000200000 (.vint false 0 0 0 0 0 2048) ∧
      s.operandsBad 0 4 false (.vint false 0 0 0 0 0 2048) = true ∧
      unitCommand 0 4 {} EngOp.vint = some (.vint 0 4 {}) := by decide +kernel

/-! ### HeldWorkGoesOn, WaitTakesItsCount -/

def held (h : Hold) : State := rdy.setCore 0 1 { prog := { hold := some h } }

theorem witness_held : rdy.run = .ready ∧ rdy.qRuns 0 0 = true ∧
    ((held (.delay 0)).core 0 1).prog.hold = some (.delay 0) ∧ 0 ≤ ((held (.delay 0)).quarter 0 0).cycle ∧
    (let x := (held (.drain (.tsig true true 7 3 1))).core 0 1;
      x.prog.hold = some (.drain (.tsig true true 7 3 1)) ∧ x.unitsIdle false = true ∧ x.queuesIdle false = true ∧ x.backfill = none) ∧
    ((held (.phase 0)).phaseWaits 0 0 = [(1, false, 0)] ∧ (held (.phase 0)).pendValid 0 0 = false) := by decide +kernel

theorem witness_queueHead :
    let s := { rdy.setCore 0 1 { queues := [(11, { next := 1, issued := 1, reqs := [⟨0, 0, 1, 0, true, false, some 9⟩] })] } with
      reqs := [{ id := 9, die := 0, requester := 1, lane := 0, addr := 0, units := 1, write := true, data := 0, poison := 0, left := 0 }] }
    isParting 1 = false ∧ ((s.core 0 1).queue 11).reqs = ⟨0, 0, 1, 0, true, false, some 9⟩ :: [] ∧
      (s.findReq 9).map (fun m => m.left) = some 0 := by decide +kernel

theorem witness_window :
    let w : Window := ⟨64, false, 0, []⟩
    let s := (rdy.setCore 0 1 { window := some w }).setQuarter 0 0 { rdy.quarter 0 0 with cycle := 64 }
    (s.core 0 1).window = some w ∧ w.n ≤ s.windowPos 0 1 w + 16 ∧ w.n ≤ s.windowPos 0 1 w := by decide +kernel

def heldRow (k : RowFaultKind) : Withheld :=
  { bf := false, array := 0, row := 0, kind := k, xs := [0], scales := [], bad := false, gen := 0, phys := 0, missed := k == .mismatch }
def rsOne : Rs := ⟨false, false, none, 1, 3, 1, 0, 1, 0, 0, 0, 0⟩
def rsEntry : UEntry := queuedEntry (.rs false false none 1 3 1 0 1 0 0 0 0)
def rowsHeld (k : RowFaultKind) : State :=
  rdy.setCore 0 1 { active := [(0, { fmt := some 1, k := 1, n := 32 })], withheld := [heldRow k]
                    stream := some { entry := { rsEntry with started := true }, next := 1 }
                    units := [(0, [{ rsEntry with started := true }])] }

theorem witness_reissue :
    let s := rowsHeld .mismatch
    let t := (s.bump 0 1 0x130 1).onCore 0 1 fun x => x.delayRun false (s.quarter 0 0).cycle (rowCycles rsOne.fmt)
    s.heldStream 0 1 .mismatch = some (rsOne, { rsEntry with started := true }, heldRow .mismatch) ∧
      (heldRow .mismatch).phys = s.physOf 0 1 0 ∧ (heldRow .mismatch).again = false ∧ (heldRow .mismatch).missed = true ∧
      predicted rsOne.fmt [0] [] (t.activeTile 0 1 0) = actual (rowColumns rsOne.fmt [0] [] (t.activeTile 0 1 0)) := by decide +kernel

/-- No spare array is left. -/
theorem witness_reissue_noSpare :
    let s := (rowsHeld .mismatch).setFlag 0 1 0x2B0 17 false
    s.heldStream 0 1 .mismatch = some (rsOne, { rsEntry with started := true }, heldRow .mismatch) ∧
      (heldRow .mismatch).phys = s.physOf 0 1 0 ∧ (heldRow .mismatch).missed = true ∧ s.flag 0 1 0x2B0 17 = false := by decide +kernel

theorem witness_reload :
    let s := rowsHeld .parity
    let t := ((s.bump 0 1 0x2C0 0).reload 0 1 0).onCore 0 1 fun x => x.delayRun false (s.quarter 0 0).cycle (rowCycles rsOne.fmt)
    s.heldStream 0 1 .parity = some (rsOne, { rsEntry with started := true }, heldRow .parity) ∧ (heldRow .parity).again = false ∧
      predicted rsOne.fmt [0] [] (t.activeTile 0 1 0) = actual (rowColumns rsOne.fmt [0] [] (t.activeTile 0 1 0)) := by decide +kernel

theorem witness_pushTile :
    let o : OutTile := { push := true, unit := 2, xfers := List.replicate 2 (xferOf (stationOfCore 1) 14), total := 2 }
    let s := rdy.setCore 0 1 { outQ := [o] }
    (s.core 0 1).nextPush = some o ∧ s.run = .ready ∧ s.qRuns 0 0 = true ∧ o.total ≤ s.credit 0 14 ∧ (∀ x ∈ o.xfers, x.tag.retire = 14) ∧ o.xfers ≠ [] := by
  decide +kernel

theorem witness_chainIn :
    let e := { queuedEntry (.chin false 0 0 1 0 0 5) with started := true, landed := true }
    let s := rdy.setCore 0 1 { units := [(3, [e])] }
    (s.core 0 1).unit 3 = e :: [] ∧ e.started = true ∧ e.landed = true ∧ e.backfill = false ∧ s.run = .ready ∧ s.qRuns 0 0 = true ∧
      e.instr = .chin false 0 0 1 0 0 5 := by decide +kernel

theorem witness_waitTakes :
    let s := ((hartAt [] [] { wait := some (.token 511 65535 31) } {}).setSlot 0 0 511 65535)
    s.powered = true ∧ s.qRuns 0 0 = true ∧ (s.hart 0 0 0).wait = some (.token 511 65535 31) ∧ s.hartState 0 0 0 = 1 ∧
      65535 ≤ s.slot 0 0 511 ∧ (∀ j < 5, ∀ bf, ((s.core 0 (6 * 0 + j)).progOf bf).hold = none) ∧
      (∀ k < 4, k ≠ 0 → (s.hart 0 0 k).wait = none) := by decide +kernel

/-! ### HartsStartStopAndReach, HartExecutes -/

theorem witness_hartStart : (∀ k : Fin 4, k ≠ 3 → (rdy.rg 0 (ptCore 0) 0x104).getLsbD k = (rdy.hartState 0 0 k == 1)) ∧
    rdy.run = .ready ∧ rdy.hartState 0 0 3 ≠ 1 := by decide +kernel

theorem witness_hartStop :
    let s := rdy.startHart 0 0 3
    (∀ k : Fin 4, k ≠ 3 → (s.rg 0 (ptCore 0) 0x104).getLsbD k = (s.hartState 0 0 k == 1)) ∧ s.inReset = false ∧
      s.hartState 0 0 3 = 1 := by decide +kernel

def reaching (a : HartAccess) : State :=
  let s := hartAt [] [] { wait := some (.access a) } {}
  { s.setCore 0 (ptCore 0) { bounds := [⟨0, 64, true⟩] } with
    reqs := [{ id := 9, die := 0, requester := 5, lane := 0, addr := 0, units := 1, write := false, data := 7, poison := 0, left := 0 }] }
def loadAt (a : Nat) (req : Option Nat) : HartAccess := { addr := a, bytes := 8, store := none, rd := 31, signed := true, req := req, since := 0 }

theorem witness_hartReach :
    (let s := reaching (loadAt 56 none);
      s.qRuns 0 0 = true ∧ s.hartState 0 0 0 = 1 ∧ (s.hart 0 0 0).wait = some (.access (loadAt 56 none)) ∧
        (∃ z, regionOf 56 = .heartwood z) ∧ inBounds (s.core 0 (ptCore 0)).bounds 56 8 false = true) ∧
    regionOf 0xFFFFFFFFFFF8 = .unmapped ∧
    ((reaching (loadAt 0 (some 9))).findReq 9).map (fun r => (r.left, r.failed, r.poison)) = some (0, false, 0) :=
  ⟨⟨by decide +kernel, by decide +kernel, by decide +kernel, ⟨_, rfl⟩, by decide +kernel⟩, by decide +kernel, by decide +kernel⟩

def runs (n : Nat) (i : Rv) : Prop :=
  let s := hartAt (bytesOf 4 n) [] {} {}
  s.hartReady 0 0 0 = true ∧ (s.part 0 0).fetch 0 = .instr i 4

theorem witness_hart_forms :
    runs 0x002081B3 (.alu false 0 false 3 1 2) ∧ runs 0xFFF08193 (.alui false 0 false 3 1 (BitVec.ofInt 64 (-1))) ∧
      runs 0x00208463 (.branch 0 1 2 8) ∧ runs 0x0000B183 (.load 3 3 1 0) ∧ runs 0x0020B023 (.store 3 1 2 0) ∧ runs 0x73 .ecall := by
  refine ⟨?_, ?_, ?_, ?_, ?_, ?_⟩ <;> exact ⟨by decide +kernel, by decide +kernel⟩

theorem witness_hart_memory : base.toNat % accessBytes 3 = 0 ∧ dataOffset base.toNat (accessBytes 3) = some 0 ∧
    (rdy.part 0 0).dataBad 0 (accessBytes 3) = false :=
  ⟨base_mod (by decide +kernel), dataOffset_base (by decide +kernel), by decide +kernel⟩

theorem witness_hart_fault : (hartAt [0, 0] [] {} {}).hartReady 0 0 0 = true ∧ ((hartAt [0, 0] [] {} {}).part 0 0).fetch 0 = .fault 2 ∧
    ((hartAt [] [] { pc := 2 ^ 17 } {}).part 0 0).fetch (2 ^ 17) = .fault 1 := by decide +kernel

/-! ### QueueAndBoardOperations, LogStreamAndMailOperations, EndpointsOfTheWhittlePath -/

/-- The hart meets an operation with the first address of data memory in x1 and `b` in x2. -/
def atBase (one : Bool) (f3 f7 : Nat) (dm : List Byte) (p : Parting) (b : W64) : State :=
  hartAt (qop one f3 f7) dm { regs := regs12 base b } p

def pushing : State := atBase false 0 11 (bytesOf 16 (63 * 2 ^ 48 + 4032 * 2 ^ 64)) {} 0
def pushed : Nat := (pushing.part 0 0).data 0 16

theorem witness_qpush_meets :
    HartMeets pushing 0 0 0 .qpush 4 ⟨11, 3, (pushing.hart 0 0 0).reg 1, (pushing.hart 0 0 0).reg 2⟩ :=
  hart_meets (one := false) (f3 := 0) (f7 := 11) (by decide +kernel)

theorem witness_qpush : (pushing.part 0 0).dataBad 0 16 = false ∧
    bitsOf pushed 0 6 = 0 ∧ bitsOf pushed 54 10 = 0 ∧ bitsOf pushed 76 52 = 0 ∧ bitsOf pushed 64 12 + (bitsOf pushed 48 6 + 1) ≤ 4096 ∧
    ((pushing.hartPast 0 0 0 4).core 0 (ptCore 0)).mayPush false 11 = true := by decide +kernel

theorem witness_base (dm : List Byte) (p : Parting) (b : W64) (one : Bool) (f3 f7 : Nat) :
    let a := ((atBase one f3 f7 dm p b).hart 0 0 0).reg 1
    dataOffset a.toNat 16 = some 0 ∧ dataPlace a.toNat 8 8 false = .ok 0 ∧ dataPlace a.toNat 256 8 true = .ok 0 ∧
      dataPlace a.toNat 32 1 false = .ok 0 := by
  intro a
  have h : a = base := by
    show ((atBase one f3 f7 dm p b).hart 0 0 0).reg 1 = base
    unfold atBase
    rw [hart_hartAt]
    rfl
  rw [h]
  exact ⟨dataOffset_base (by decide +kernel), dataPlace_base _ (by decide +kernel) (by decide +kernel),
    dataPlace_base _ (by decide +kernel) (by decide +kernel), dataPlace_base _ (by decide +kernel) (by decide +kernel)⟩

theorem witness_queueAndBoard :
    let at_ (one : Bool) (f3 : Nat) (a b : W64) := hartAt (qop one f3 0) [] { regs := regs12 a b } {}
    let m (one : Bool) (f3 : Nat) (a b : W64) (op : QOp) : Prop := HartMeets (at_ one f3 a b) 0 0 0 op 4
      ⟨0, 3, ((at_ one f3 a b).hart 0 0 0).reg 1, ((at_ one f3 a b).hart 0 0 0).reg 2⟩
    m false 0 0xFFFFFFFFFFFFFFFF 0 .qpush ∧ m false 1 11 0xFFFF .qwait ∧ m false 2 0x701FF 0xFFFF .tksig ∧ m false 3 511 65535 .tkwait ∧
      m false 4 511 0 .cbTake ∧ m false 4 511 1 .cbTake ∧ m false 5 511 0 .cbRead ∧ m false 6 511 0xFFFFFFFF .cbSet ∧ m false 7 511 1 .cbMask ∧
      (let u := ((at_ false 4 511 1).hartPast 0 0 0 4).serveSlot 0 0 511;
        u.slot 0 0 511 < 1 ∧ 0 ≤ u.slot 0 0 511) ∧ (1 : W64).getLsbD 0 = true :=
  ⟨hart_meets (one := false) (f3 := 0) (by decide +kernel), hart_meets (one := false) (f3 := 1) (by decide +kernel),
    hart_meets (one := false) (f3 := 2) (by decide +kernel), hart_meets (one := false) (f3 := 3) (by decide +kernel),
    hart_meets (one := false) (f3 := 4) (by decide +kernel), hart_meets (one := false) (f3 := 4) (by decide +kernel),
    hart_meets (one := false) (f3 := 5) (by decide +kernel), hart_meets (one := false) (f3 := 6) (by decide +kernel),
    hart_meets (one := false) (f3 := 7) (by decide +kernel), by decide +kernel, by decide +kernel⟩

theorem witness_qpush_outside : dataOffset (0xFFFFFFFFFFFFFFFF : W64).toNat 16 = none := dataOffset_top

theorem witness_logStreamAndMail :
    let m (s : State) (op : QOp) : Prop := HartMeets s 0 0 0 op 4 ⟨0, 3, (s.hart 0 0 0).reg 1, (s.hart 0 0 0).reg 2⟩
    let log := hartAt (qop true 0 0) [] { regs := regs12 255 base } {}
    let busy := (hartAt (qop true 1 0) [] { regs := regs12 31 0 } {}).setStreamState 0 0 31 1
    let idle := hartAt (qop true 1 0) [] { regs := regs12 31 base } {}
    let mail : WMsg := { dst := 0, src := 0, len := 32, type := 1, arg := 0, count := 0, payload := [], idx := 0, die := 0 }
    m log .cbLog ∧ m busy .seStart ∧ busy.streamState 0 0 31 = 1 ∧ m idle .seStart ∧ idle.streamState 0 0 31 ≠ 1 ∧
      (idle.part 0 0).dataBad 0 32 = false ∧ m (hartAt (qop true 2 0) [] { regs := regs12 31 0 } {}) .seStat ∧
      (let s := atBase true 4 0 [] {} 0;
        m s .wrecv ∧ (s.part 0 0).mailbox = []) ∧
      (let s := atBase true 4 0 [] { mailbox := [mail] } 0;
        m s .wrecv ∧ (s.part 0 0).mailbox = mail :: []) ∧
      m (atBase true 5 0 [] {} 0) .tick :=
  ⟨hart_meets (one := true) (f3 := 0) (by decide +kernel), hart_meets (one := true) (f3 := 1) (by decide +kernel), by decide +kernel,
    hart_meets (one := true) (f3 := 1) (by decide +kernel), by decide +kernel, by decide +kernel,
    hart_meets (one := true) (f3 := 2) (by decide +kernel),
    ⟨hart_meets (one := true) (f3 := 4) (by decide +kernel), by decide +kernel⟩,
    ⟨hart_meets (one := true) (f3 := 4) (by decide +kernel), by decide +kernel⟩, hart_meets (one := true) (f3 := 5) (by decide +kernel)⟩

/-- Word 0 of a MAIL to Parting core 0x1F, and of one to the reserved address 0xFF (Table 6.10). -/
def mailTo (dst : Nat) : List Byte := bytesOf 8 (dst + 1 * 2 ^ 16 + 1 * 2 ^ 24)

theorem witness_wsend :
    let s := atBase true 3 0 (mailTo 0x1F) {} 0
    let w := (s.part 0 0).data 0 8
    HartMeets s 0 0 0 .wsend 4 ⟨0, 3, (s.hart 0 0 0).reg 1, (s.hart 0 0 0).reg 2⟩ ∧ (s.part 0 0).dataBad 0 8 = false ∧
      bitsOf w 16 6 = 1 ∧ bitsOf w 22 2 = 0 ∧ bitsOf w 24 8 = 1 ∧ bitsOf w 0 8 < 0x20 ∧ (s.part 0 0).dataBad 8 8 = false :=
  ⟨hart_meets (one := true) (f3 := 3) (by decide +kernel), by decide +kernel⟩

theorem witness_wsend_reserved :
    let s := atBase true 3 0 (mailTo 0xFF) {} 0
    HartMeets s 0 0 0 .wsend 4 ⟨0, 3, (s.hart 0 0 0).reg 1, (s.hart 0 0 0).reg 2⟩ ∧
      endpointOf (bitsOf ((s.part 0 0).data 0 8) 0 8) = .reserved ∧ endpointOf 0x28 = .reserved ∧ endpointOf 0x80 = .reserved :=
  ⟨hart_meets (one := true) (f3 := 3) (by decide +kernel), by decide +kernel⟩

theorem witness_wsendTimeout :
    let s := { hartAt [] [] { wait := some (.send 3 0) } {} with tick := 1024 }
    (s.hart 0 0 0).wait = some (.send 3 0) ∧ 0 + 1024 ≤ s.tick ∧ s.hartState 0 0 0 = 1 ∧ s.qRuns 0 0 = true := by decide +kernel

/-- The first entry of an arrival log at the start of data memory. -/
theorem witness_logPlace : dataPlace base.toNat 16 16 true = .ok 0 := dataPlace_base true (by decide) (by decide)

end Sys2Proof.Witness
end

