-- ==== Sys2Proof/Tests/WitnessFabric.lean ====
section
/-!
SUPPORT. Witnesses: states and operands that meet the hypotheses of the statements on the ring, the streams, the boards, the collective
engines, the memories and the loader.
-/
namespace Sys2Proof.Witness
open Sys2Proof.Machine
set_option Elab.async false

/-! ### TransfersAdvance, StationsAndCrossings -/

/-- Station 0 of die 0 with its path 0; the next station, 1, belongs to core 0. -/
def ring0 (p : RingPort) : State := withStation 0 { wg := p }

theorem witness_hop_passes :
    let x := xferOf 29 7
    let p : RingPort := { through := [x], inject := [xferOf 0 7], waited := 60 }
    let s := ring0 p
    rdy.powered = true ∧ (s.station 0 0).msgs = [] ∧ ((s.station 0 (nextStation 0 0)).port 0).held = none ∧
      ((s.station 0 0).port 0).through = x :: [] ∧ writesAt x (nextStation 0 0) = false ∧ x.tag.retire ≠ nextStation 0 0 := by
  decide +kernel

theorem witness_hop_injects :
    let s := ring0 { inject := [xferOf 0 7], waited := 60 }
    let t := ring0 { inject := [xferOf 0 7], waited := 60, starve := true }
    ((s.station 0 (nextStation 0 0)).port 0).held = none ∧ ((s.station 0 0).port 0).through = [] ∧
      ((s.station 0 0).port 0).inject = xferOf 0 7 :: [] ∧ s.seesStarve 0 0 29 0 = false ∧ ((s.station 0 0).port 0).waited ≤ 60 ∧
      ((t.station 0 0).port 0).starve = true ∧ writesAt (xferOf 0 7) 1 = false ∧ (xferOf 0 7).tag.retire ≠ nextStation 0 0 := by decide +kernel

/-- The station downstream asserts starve. -/
theorem witness_hop_starved :
    let s := (ring0 { inject := [xferOf 0 7] }).setStation 0 1 { wg := { starve := true } }
    ((s.station 0 1).port 0).held = none ∧ ((s.station 0 0).port 0).through = [] ∧ ((s.station 0 0).port 0).inject ≠ [] ∧
      ((s.station 0 0).port 0).starve = false ∧ s.seesStarve 0 0 29 0 = true := by decide +kernel

theorem witness_hop_lands :
    let x := xferOf 29 1
    let s := (ring0 { through := [x] }).setStation 0 1 ((({} : Station)).setLanding 0 (List.replicate 63 x))
    ((s.station 0 (nextStation 0 0)).port 0).held = none ∧ ((s.station 0 0).port 0).inject = [] ∧
      coreOfStation (nextStation 0 0) = some 0 ∧ x.tag.retire = nextStation 0 0 ∧ x.stamp = none ∧ x.bad = 0 ∧
      ((s.station 0 1).landing 0).length < 64 ∧ ((s.station 0 0).port 0).through = x :: [] := by decide +kernel

theorem witness_hop_held :
    ((withStation 1 { wg := { held := some (xferOf 29 1) } }).station 0 (nextStation 0 0)).port 0 = { held := some (xferOf 29 1) } := by
  decide +kernel

/-- The near lane from station 2 to station 3, of core 2, whose landing buffer holds `n` transfers. -/
def laneTo (n : Nat) : State :=
  (withStation 2 (({} : Station).setLane 2 [xferOf 2 3])).setStation 0 3 (({} : Station).setLanding 2 (List.replicate n (xferOf 2 3)))

theorem witness_lane :
    coreOfStation (nextStation 2 2) = some 2 ∧ ((laneTo 15).station 0 2).msgs = [] ∧
      ((laneTo 15).station 0 2).lane 2 = xferOf 2 3 :: [] ∧ (((laneTo 15).station 0 3).landing 2).length < 16 ∧
      ((laneTo 16).station 0 2).lane 2 = xferOf 2 3 :: [] ∧ 16 ≤ (((laneTo 16).station 0 3).landing 2).length ∧
      (xferOf 2 3).stamp = none ∧ (xferOf 2 3).bad = 0 := by decide +kernel

/-- Die 0's Sapwood station with `n` requests outstanding at its Tailstock. -/
def sapOut (n : Nat) : State := withStation 7 { drained := 1, left := List.replicate n (0, []) }

theorem witness_station :
    let s := withStation 14 { ag := { waited := 30, inject := [xferOf 14 1] } }
    30 ≤ ((s.station 0 14).port 1).waited ∧ ((s.station 0 14).port 1).starve = false ∧ ((s.station 0 14).port 1).inject ≠ [] ∧
      0 < ((withStation 0 { drained := 1 }).station 0 0).drained ∧ (1 : W32).getLsbD 0 = true ∧ s.inReset = false := by decide +kernel

theorem witness_sapwoodCredit :
    0 < ((sapOut 511).station 0 7).drained ∧ (sapOut 511).sapOutstanding 0 < 512 ∧ 512 ≤ (sapOut 512).sapOutstanding 0 := by decide +kernel

/-- A tile of one transfer that came over the ring from the Control station 29 with credit, bound for core station 1 of the far die. -/
def crossing : Xfer := { tag := tagOf 29 0, data := 1 * 2 ^ 5, poison := 0, credit := true }

theorem witness_portTile :
    takeTile [crossing] = some ([crossing], []) ∧ (∀ x ∈ [crossing], x.credit = true ∧ x.msg = none) ∧ farSide 0 14 = none ∧
      farSide 0 0 = some (7, 15) := by decide +kernel

theorem witness_portTile_source (n : Nat) (h : coreOfStation crossing.tag.src = some n) : isParting n = false := by
  rw [show coreOfStation crossing.tag.src = none from by decide] at h
  cases h

/-- A transfer of two, landed at core 1 in a period of its quarter, with what it is. -/
def landed (came : Nat) (m : Option MemMsg) : Xfer :=
  { tag := { tagOf 0 2 with xferLast := 1 }, data := 3, poison := 0, came := came, msg := m }
def crossingOf (x : Xfer) : State :=
  (withStation 2 (({} : Station).setLanding 0 [x])).setQuarter 0 0 { periods := 2 }

theorem witness_release :
    let m : MemMsg := ⟨0, .reply 0 0 8 false false, []⟩
    (∀ x ∈ [landed 0 none, landed 1 none, landed 0 (some m)],
      (crossingOf x).powered = true ∧ (crossingOf x).qRuns 0 (1 / 6) = true ∧ ((crossingOf x).station 0 2).landing 0 = x :: [] ∧
        x.stamp = none ∧ (((crossingOf x).station 0 2).port 0).held = none ∧ x.tag.xfer ≠ x.tag.xferLast ∧ x.tag.mode = false ∧
        ((crossingOf x).quarter 0 (1 / 6)).periods = 2) ∧
      coreOfStation 2 = some 1 ∧ isParting 1 = false ∧ (landed 0 none).came + 2 ≤ 2 ∧
      (let x := landed 1000 none;
        ((crossingOf x).quarter 0 (1 / 6)).periods + cyclesPerTick ((crossingOf x).curPt 0 (1 / 6)) < x.came + 2) := by decide +kernel

/-- A counted tile declared by CEXP whose transfer 0 is due and absent. -/
theorem witness_slip :
    let s := rdy.setCore 0 5 { counted := [(3, [⟨1, 0, 0, true, false, 0, false, false, 0⟩])] }
    s.powered = true ∧ s.qRuns 0 0 = true ∧ (0, none) ∈ s.duesOf 0 0 ∧ (0, (none : Option Nat)).1 ≤ s.phaseNow 0 0 ∧
      (s.quarter 0 0).slipRun + 1 < 65536 := by decide +kernel

theorem witness_waiting :
    let x : Xfer := { xferOf 0 2 with stamp := some ⟨7, 2 ^ 20 - 1, true⟩ }
    let s := (withStation 2 (({} : Station).setLanding 0 [x])).setCore 0 1
      { counted := [(0, List.replicate 7 ⟨9, 0, 0, true, true, 1, false, false, 1⟩)] }
    coreOfStation 2 = some 1 ∧ (s.station 0 2).landing 0 = x :: [] ∧ x.tag.xfer = 0 ∧ ((s.core 0 1).entries 0).length < 8 ∧
      (s.core 0 1).entryOf 0 x.tag.tile = none := by decide +kernel

/-! ### StreamsServe, GrantServesSmallestShare -/

/-- An entry of 64 B, and a stream of `n` entries of a kind. -/
def entry64 : Nat := 64 * 2 ^ 64
def streamOf (kind n : Nat) : Stream := { cfg := n * 2 ^ 48 + kind * 2 ^ 64, next := n }
def withStream (x : Stream) : State := (rdy.setStream 0 0 31 x).setStreamState 0 0 31 1

theorem witness_grant :
    let s := withStream { streamOf 0 1 with entries := [{ index := 0, bits := entry64 }] }
    let u := s.freshen 0 0 1
    let p := u.part 0 0
    let running := (p.turns 1).filter fun t =>
      (u.streamState 0 0 t == 1 || (u.streamState 0 0 t == 3 && (p.stream t).stop.isSome)) && !u.streamHeld 0 0 t
    s.run = .ready ∧ s.qRuns 0 0 = true ∧ s.resetting 0 = false ∧ p.outstanding 1 < 256 ∧
      chooseClass (u.fld 0 (ptCore 0) 0x198 (2 * 1) 2) (p.servedUnits 1)
        (fun c => running.any fun t => (p.stream t).ready.any fun r => r.1 == c) = some .read ∧
      (running.findSome? (fun t => ((p.stream t).ready.find? fun r => r.1 == .read).map fun r => (t, r.2))).isSome = true := by
  decide +kernel

theorem witness_entryComplete :
    let e : SEntry := { index := 0, bits := entry64, issued := 64, injected := true }
    let s := withStream { streamOf 0 1 with entries := [e] }
    let x := s.stream 0 0 31
    s.powered = true ∧ s.qRuns 0 0 = true ∧ x.fetch = none ∧ (∀ r ∈ x.reqs, r.id = none) ∧ x.entries = e :: [] ∧ s.entryComplete 0 0 31 x e = true ∧ eDeadline e.bits = 0 ∧ eSig e.bits = false ∧
      x.completed + 1 = x.count := by decide +kernel

theorem witness_receive :
    let z : Xfer := { tag := { tagOf 0 6 with bufLine := 31, xferLast := 1 }, data := 3, poison := 0 }
    let s := (withStream { streamOf 1 1 with inbox := List.replicate 63 (0, false) }).setStation 0 6 { land := [(0, [z])] }
    stationOfCore (ptCore 0) = 6 ∧ (s.station 0 6).landing 0 = z :: [] ∧ z.msg = none ∧ z.tag.mode = false ∧ z.tag.bufLine < 32 ∧ s.streamState 0 0 z.tag.bufLine = 1 ∧
      (s.stream 0 0 z.tag.bufLine).kind = 1 ∧ (s.stream 0 0 z.tag.bufLine).inbox.length < 64 ∧ z.tag.xfer ≠ z.tag.xferLast ∧
      ((s.station 0 6).port 0).held = none := by decide +kernel

theorem witness_receive_bad :
    let z : Xfer := { tag := { tagOf 0 6 with bufLine := 32 }, data := 3, poison := 0 }
    let s := withStation 6 { land := [(0, [z])] }
    (s.station 0 6).landing 0 = z :: [] ∧ z.msg = none ∧ z.tag.mode = false ∧ ((s.station 0 6).port 0).held = none ∧ 32 ≤ z.tag.bufLine ∧ s.elog.length < 4096 := by decide +kernel

theorem witness_retry_deadline :
    ((withStream { retryAt := some 0 }).stream 0 0 31).retryAt = some 0 ∧
      (let s := ({ withStream { streamOf 0 1 with entries := [{ index := 0, bits := entry64 + 1 * 2 ^ 120 }] } with tick := 1 } : State).setFlag 0
          (ptCore 0) 0x19C 0 true;
        s.flag 0 (ptCore 0) 0x19C 0 = true ∧ s.streamState 0 0 31 = 1 ∧ s.late (s.stream 0 0 31) = true) := by decide +kernel

theorem witness_shares : chooseClass 0 (fun _ => 0) (fun _ => true) = some .read ∧ chooseClass 3 (fun _ => 0) (fun _ => false) = none := by
  decide +kernel

/-! ### BoardAddsArrivals, EndpointsOfTheWhittlePath, MessagesAreTakenOrRefused -/

theorem witness_arrival :
    let a : Arrival := ⟨511, 65535, 191, 7⟩
    let s := rdy.setPart 0 0 { arrivals := [a] }
    (s.part 0 0).arrivals = a :: [] ∧ s.powered = true ∧ s.qRuns 0 0 = true ∧ s.flag 0 (ptCore 0) 0x150 0 = false ∧
      slotReserved a.addr = 0 ∧ Sparse.get false0 (s.part 0 0).slotPoison (slotOf a.addr / 16) = false ∧ s.elog.length < 4095 ∧
      slotReserved 0x800 ≠ 0 := by decide +kernel

def msgTo (dst src type len arg count : Nat) (h : Option Nat) : WMsg :=
  { dst := dst, src := src, len := len, type := type, arg := arg, count := count, payload := List.replicate len 7, idx := 5, die := 0, hart := h }
def carrying (m : WMsg) : State := { rdy with whittle := [m] }
def finds (m : WMsg) (src dst : Byte) : Bool :=
  (((carrying m).whittle.find? fun m => m.src == src.toNat && m.dst == dst.toNat) == some m) && m.dst == dst.toNat

theorem witness_message_guards : rdy.powered = true ∧ rdy.run = .ready ∧ ({} : WhittleFacts).hs = none ∧
    ({} : WhittleFacts).headerBad = false ∧ (∀ m ∈ [msgTo 1 2 1 32 0 0 none, msgTo 0x20 2 3 4 0 0 none, msgTo 0x7F 2 3 4 0 0 none],
      (carrying m).msgWaits m = false) ∧
    (let s := (carrying (msgTo 1 2 1 32 0 0 none)).setQuarter 0 1 { faulted := true }; s.qRuns 0 1 = false) := by decide +kernel

theorem witness_messages : endpointOf (1 : Byte).toNat = .parting 0 1 ∧
    finds (msgTo 1 2 1 32 0 0 none) 2 1 = true ∧ (rdy.part 0 1).mailbox.length < 64 ∧
    finds (msgTo 1 2 2 0 (1 * 512) 1 none) 2 1 = true ∧ slotReserved (1 * 512) = 0 ∧ slotQuarter (1 * 512) = 1 ∧
    finds (msgTo 1 2 4 32 0x7FE0 0 none) 2 1 = true ∧ 8 * 0x7FE0 + 8 * 32 ≤ 2 ^ 18 ∧
    (let s := hartAt [] [] { wait := some (.send 3 0) } {};
      finds (msgTo 0 2 0x80 0 1 0 (some 0)) 2 0 = true ∧ (s.hart 0 0 0).wait = some (.send 3 0)) := by decide +kernel

theorem witness_refusals : endpointOf 0x27 = .engine 7 ∧ (msgTo 0 1 1 33 0 0 none).len = 33 ∧
    64 ≤ ((rdy.setPart 0 0 { mailbox := List.replicate 64 (msgTo 0 1 1 1 0 0 none) }).part 0 0).mailbox.length ∧
    slotQuarter 511 = 0 ∧ slotQuarter 512 ≠ 0 := by decide +kernel

/-! ### BucketsOpen, ContributionsReachTheirEngine, ChunkMessagesAreTaken, GrainSumsAreExact -/

/-- A descriptor of one rank, one stripe and one contributor, die 0, with 256 elements: tag 5, slot 1023, limit 1. -/
def descOf (policy : Nat) : Nat := 5 + 1023 * 2 ^ 16 + 256 * 2 ^ 32 + policy * 2 ^ 64 + 1 * 2 ^ 73 + 1 * 2 ^ 448
def bucketOf (policy : Nat) : Bucket := { desc := descOf policy, step := 9, version := 0, since := 0 }
def opening (src : Nat) (desc : Nat) : State :=
  { carrying { msgTo 0x20 src 3 4 0 0 none with payload := [0x40 + 9 * 2 ^ 48, 0, 0, 0] } with
    mem := Sparse.putRange byte0 [] 0x40 (bytesOf 64 desc) }
def openMsg (src : Nat) : WMsg := { msgTo 0x20 src 3 4 0 0 none with payload := [0x40 + 9 * 2 ^ 48, 0, 0, 0] }

theorem witness_opens :
    let s := opening 0x21 (descOf 0)
    let t := ({ s with whittle := s.whittle.erase (openMsg 0x21) } : State).acceptMsg (openMsg 0x21)
    let w := packBits 64 ((openMsg 0x21).payload.map BitVec.toNat)
    (s.whittle.find? fun m => m.src == 0x21 && m.dst == 0x20) = some (openMsg 0x21) ∧ w / 2 ^ 97 = 0 ∧ bitsOf w 0 48 % 64 = 0 ∧
      inHeartwood (bitsOf w 0 48) = true ∧ t.blockBad (bitsOf w 0 48) = false ∧ descBad (t.readMem (bitsOf w 0 48) 64) = false ∧
      endpointOf 0x21 = .engine 1 ∧ descBad ((opening 1 0).readMem 0x40 64) = true ∧ (openMsg 0x21).poison % 16 = 0 ∧
      (openMsg 0x21).type = 3 ∧ (openMsg 0x21).len = 4 ∧ s.elog.length < 4096 := by decide +kernel

/-- A job of die 0's engine whose reads are done. -/
theorem witness_job :
    let j : CeJob := ⟨[⟨0x40, 64, []⟩], .opened (openMsg 1) false⟩
    let s := rdy.setEngine 0 { jobs := [j] }
    ((s.engine 0).jobs.find? fun j => j.spans.all fun x => s.spanDone x) = some j := by decide +kernel

theorem witness_openRead : (⟨true, descOf 0, 0⟩ : SpanData).ok = true ∧ (⟨true, descOf 0, 0⟩ : SpanData).poison = 0 ∧
    descBad (descOf 0) = false ∧ descBad 0 = true ∧ rdy.elog.length < 4096 := by decide +kernel

theorem witness_open_gather : (bucketOf 2).policy = 2 ∧ (bucketOf 2).dies.contains 0 = true ∧ 0 < (bucketOf 2).chunksOf 0 ∧
    (bucketOf 2).isRoot ((bucketOf 2).stripeOf 0) = true := by decide +kernel

theorem witness_open_refused : endpointOf (0x1F : Byte).toNat = .parting 7 3 ∧ endpointOf (0x40 : Byte).toNat = .headstock 0x40 ∧
    finds (msgTo 0x1F 2 3 4 0 0 none) 2 0x1F = true ∧ finds (msgTo 0x40 2 3 4 0 0 none) 2 0x40 = true := by decide +kernel

theorem witness_opens_parting (z : Nat) : endpointOf (openMsg 1).src ≠ .engine z := by
  intro h
  exact absurd h (by rw [show endpointOf (openMsg 1).src = .parting 0 1 from by decide]; exact Endpoint.noConfusion)

/-- Die 0's engine with open buckets. -/
def engineWith (bs : List Bucket) (e : Engine) : State := rdy.setEngine 0 { e with buckets := bs }

/-- A bucket to which die 1 contributes without a stripe of its own. -/
def noChunks : Bucket := { bucketOf 0 with desc := descOf 0 + 2 * 2 ^ 73 }

theorem witness_openHere : (bucketOf 0).dies.contains 0 = true ∧ (bucketOf 0).dies.contains 1 = false ∧
    (∃ z < 8, ∃ x ∈ ((engineWith [bucketOf 0] {}).engine z).buckets, x.slot = (bucketOf 0).slot ∧
      (z = 0 ∨ x.tag ≠ (bucketOf 0).tag ∨ x.step ≠ (bucketOf 0).step)) ∧
    (¬ ∃ z < 8, ∃ x ∈ (rdy.engine z).buckets, x.slot = (bucketOf 0).slot ∧
      (z = 0 ∨ x.tag ≠ (bucketOf 0).tag ∨ x.step ≠ (bucketOf 0).step)) ∧
    (bucketOf 0).policy = 0 ∧ (bucketOf 0).finished = 0 ∧ 0 < (bucketOf 0).chunksOf 0 ∧
    inHeartwood (dieBase 0 + (bucketOf 0).scaleOff) = true ∧
    inHeartwood (dieBase 0 + (bucketOf 0).scaleOff + (bucketOf 0).chunksOf 0 - 1) = true ∧ noChunks.dies.contains 1 = true ∧
    noChunks.chunksOf 1 = 0 :=
  ⟨by decide +kernel, by decide +kernel, ⟨0, by decide, bucketOf 0, by decide +kernel, rfl, .inl rfl⟩, by decide +kernel, by decide +kernel, by decide +kernel,
    by decide +kernel, by decide +kernel, by decide +kernel, by decide +kernel, by decide +kernel⟩

/-- A push tile for tag 5, step 9: its header and one line of values. -/
def pushLine : Nat := 5 + 9 * 2 ^ 16
def pushTileAt (s : State) : State :=
  let line (i : Nat) : Xfer := { tag := { tagOf 1 14 with xfer := i, xferLast := 1 }, data := if i = 0 then pushLine else 0, poison := 0 }
  s.setStation 0 14 { left := [(0, (List.range 2).map line)] }

theorem witness_push :
    let s := pushTileAt (engineWith [bucketOf 0] {})
    (s.netTile 0).map (fun r => netKind r.1) = some 0 ∧ (s.netTile 0).map (fun r => (r.1.headD (0, 0)).1) = some pushLine ∧
      pushLine < 2 ^ 88 ∧ (s.bucket 0 (pushTag pushLine) (pushStep pushLine)) = some (bucketOf 0) ∧
      (pushTileAt rdy).bucket 0 (pushTag pushLine) (pushStep pushLine) = none ∧ (rdy.engine 0).parkUse + 2 ≤ 256 := by decide +kernel

theorem witness_parked :
    let s := engineWith [bucketOf 0] { parked := [.tile [(pushLine, 0), (0, 0)]] }
    (s.engine 0).parked = .tile [(pushLine, 0), (0, 0)] :: [] ∧ s.bucket 0 5 9 = some (bucketOf 0) := by decide +kernel

theorem witness_forward :
    let f : Forward := { dst := 0, origin := 0, tag := 5, step := 9, chunk := 0, start := 0, count := 128, data := 0, bad := 0, stage := .here }
    let s := { engineWith [bucketOf 0] {} with forwards := [f] }
    s.forwards = f :: [] ∧ f.dst = 0 ∧ f.stage = .here ∧ s.bucket 0 f.tag f.step = some (bucketOf 0) := by decide +kernel

theorem witness_convert :
    let b := { bucketOf 0 with chunks := [(0, { got := [(0, 2 ^ 256 - 1)] })] }
    let s := engineWith [b] {}
    ((s.engine 0).buckets.find? fun b => b.slot == 1023) = some b ∧ b.policy ≠ 2 ∧ b.stripeDie 0 = 0 ∧ 0 < b.chunkCount ∧
      (s.chunk 0 b 0).phase = .wait ∧ s.chunkFull 0 b 0 = true ∧ s.forecastWaits 0 b 0 = false := by decide +kernel

theorem witness_stalled :
    let s := { engineWith [bucketOf 0] {} with tick := 1024 }
    ((s.engine 0).buckets.find? fun b => b.slot == 1023) = some (bucketOf 0) ∧ (bucketOf 0).stalled = false ∧ 0 < (bucketOf 0).limit ∧
      (bucketOf 0).since + 1024 * (bucketOf 0).limit ≤ s.tick ∧ 0 = (bucketOf 0).lead ∧
      (1 : Nat) ≠ ({ bucketOf 0 with desc := descOf 0 } : Bucket).lead ∧ s.elog.length < 4096 := by decide +kernel

/-- A chunk message of step 9 of tag 5 for chunk 0, with a digest. -/
def chunkMsg (dig : Nat) : ChunkMsg := { hdr := BitVec.ofNat 128 (5 * 2 ^ 16 + 9 * 2 ^ 32 + dig * 2 ^ 112) }
def arrived (dig : Nat) (bs : List Bucket) : State := engineWith bs { inbox := [⟨chunkMsg dig, 1, 0, 0⟩] }

theorem witness_chunkMessage :
    let dig := descDigest (descOf 0)
    let s := arrived dig [bucketOf 0]
    (s.engine 0).inbox = ⟨chunkMsg dig, 1, 0, 0⟩ :: [] ∧ s.bucket 0 (msgTag (chunkMsg dig)) (msgStep (chunkMsg dig)) = some (bucketOf 0) ∧
      chunkHdr (chunkMsg dig) 112 16 = descDigest (bucketOf 0).desc ∧ chunkHdr (chunkMsg 0) 112 16 ≠ descDigest (bucketOf 0).desc ∧
      (arrived 0 []).bucket 0 5 9 = none ∧ ((arrived 0 []).engine 0).netUse + msgSize (chunkMsg 0) ≤ 65536 := by decide +kernel

theorem witness_grain : addInts [1, -2] [3, 4] = some [4, 2] ∧ addInts [2147483647] [1] = none ∧ addInts [-2147483648] [-1] = none ∧
    (grainOf 2 0 0x3F800000#32).isSome = true := by decide +kernel

/-! ### MemoryReadsBackWrites, ControllersServe -/

theorem witness_canonical : rdy.Canonical := ⟨by decide, by decide, by decide, by decide, by decide⟩

def reqAt (write : Bool) (addr units : Nat) : MemReq :=
  { id := 9, die := 0, requester := 1, lane := 0, addr := addr, units := units, write := write, data := 0x77, poison := 0, left := 1 }
/-- A request of one unit of core 1's home range, and its part. -/
def partOf (write : Bool) : Part := ⟨0, 0, 1, 1, 0, 1, 0, 0, 0, 1, write, 0, false⟩
def askedReq (write : Bool) : MemReq := { reqAt write 0x40 1 with id := 0 }
def asked (write : Bool) : State := { rdy with reqs := [askedReq write], nextReq := 1, waiting := [partOf write] }
def withRa (write : Bool) : State := (asked write).setCtl 0 1 { ra := [⟨0⟩] }

theorem witness_issued (write : Bool) : (rdy.issue (reqAt write 0x40 1)).2 = asked write := by
  revert write
  decide +kernel

theorem witness_admit (write : Bool) : (asked write).admissible 0 1 (asked write).waiting = some (partOf write) ∧
    (asked write).findReq (partOf write).req = some (askedReq write) ∧ (asked write).raHit (partOf write) = false ∧
    (asked write).powered = true := by
  revert write
  decide +kernel

theorem witness_admit_hit :
    let s := (withRa false).setFlag 0 (hwcBlk 1) 0x104 0 true
    s.admissible 0 1 s.waiting = some (partOf false) ∧ s.findReq (partOf false).req = some (askedReq false) ∧
      s.raHit (partOf false) = true ∧ (askedReq false).bytes = 0 ∧ (partOf false).write = false ∧ (partOf false).home = true ∧ s.held = [] ∧
      s.powered = true := by decide +kernel

def served (p : Part) : State := { asked p.write with waiting := [], admitted := [p] }

/-- The part of a request of core 2's: it goes home by a reply. -/
def farPart : Part := { partOf false with fromIdx := 2 }

theorem witness_serve : ∀ p ∈ [partOf false, partOf true, farPart],
    (served p).inBank 0 1 0 = p :: [] ∧ (served p).refreshing 0 1 0 = false ∧ (served p).findReq p.req = some (askedReq p.write) ∧
      (askedReq p.write).bytes = 0 ∧ (askedReq p.write).poison = 0 ∧ (served p).powered = true := by decide +kernel

theorem witness_serve_homes : (partOf false).home = true ∧ farPart.home = false := by decide

theorem witness_refresh : Sparse.get nat0 (rdy.ctl 0 1).refresh 31 = 0 ∧
    Sparse.get nat0 (((rdyAt 381).setCtl 0 1 { refresh := [(31, 0)] }).ctl 0 1).refresh 31 + 390 ≤ 381 + 9 := by decide +kernel

/-- Scrubbing is on, block `u` of the pass is due, and T is 3. -/
def scrubbing (u : Nat) : State :=
  (((rdyAt (scrubDue 1 1 0 u)).setCtl 0 1 { scrub := u }).setFld 0 (hwcBlk 1) 0x104 1 8 1).setFld 0 (hwcBlk 1) 0x140 0 3 3

theorem witness_scrub : (scrubbing 5).fld 0 (hwcBlk 1) 0x104 1 8 ≠ 0 ∧
    scrubDue 1 ((scrubbing 5).fld 0 (hwcBlk 1) 0x104 1 8) ((scrubbing 5).ctl 0 1).passAt ((scrubbing 5).ctl 0 1).scrub ≤ (scrubbing 5).tick ∧
    (scrubbing 5).inBank 0 1 (bankOf 1 ((scrubbing 5).ctl 0 1).scrub) = [] ∧
    (scrubbing 5).refreshing 0 1 (bankOf 1 ((scrubbing 5).ctl 0 1).scrub) = false ∧ ((scrubbing 5).ctl 0 1).scrubBack = none ∧
    ((scrubbing 5).ctl 0 1).scrub + 1 < homeBlocks 1 ∧
    (scrubbing 5).eccT 0 (hwcBlk 1) < [0, 1, 2, 3, 4].length ∧ [0, 1, 2, 3, 4].length ≤ 8 - (scrubbing 5).eccT 0 (hwcBlk 1) ∧
    [0, 1, 2].length ≤ (scrubbing 5).eccT 0 (hwcBlk 1) ∧
    (let a := blockAddr 0 1 5;
      (scrubbing 5).blockBad a = false ∧ (scrubbing 5).fld (poisonPage a).1 (poisonPage a).2.1 0x150 0 13 < (poisonPage a).2.2) := by
  decide +kernel

def reading (ra : List RaEntry) (fills : List RaFill) : State :=
  (rdy.setCtl 0 1 { ra := ra, fills := fills, spans := [(36, (7, 2))] }).setFlag 0 (hwcBlk 1) 0x104 0 true

theorem witness_readAhead : (reading [] []).flag 0 (hwcBlk 1) 0x104 0 = true ∧
    2 ≤ (Sparse.get (fun _ => (0, 0)) ((reading [] []).ctl 0 1).spans 36).2 ∧
    (Sparse.get (fun _ => (0, 0)) ((reading [] []).ctl 0 1).spans 36).1 + 1 = 8 ∧ 64 * 8 < homeBlocks 1 ∧
    (∀ i < 64, (reading [] []).inBank 0 1 (bankOf 1 (64 * 8 + i)) = []) ∧
    (∀ e ∈ ((reading [⟨1⟩] [⟨9, false⟩]).ctl 0 1).ra, e.span ≠ 8) ∧ (∀ f ∈ ((reading [⟨1⟩] [⟨9, false⟩]).ctl 0 1).fills, f.span ≠ 8) ∧
    ((reading (List.replicate 15 ⟨1⟩) [⟨8, false⟩]).ctl 0 1).fills = ⟨8, false⟩ :: [] ∧
    ((reading (List.replicate 15 ⟨1⟩) [⟨8, false⟩]).ctl 0 1).ra.length < 16 ∧
    ((reading [] [⟨8, true⟩]).ctl 0 1).fills = ⟨8, true⟩ :: [] := by decide +kernel

/-! ### TailstocksServe -/

/-- A Headstock's read of one line of a half. -/
def sapReq (t : Nat) : SapReq :=
  { write := false, addr := halfBase t + 0x100, units := 4, na := false, data := 0, poison := 0, die := 8, req := none }
def sapWith (t : Nat) (x : Tail) : State := rdy.setTail t x

theorem witness_sapHeadstock (t : Fin 2) (c : CLine) (h : c ∈ [⟨1, true⟩, ⟨2, true⟩]) :
    let s := sapWith t { queue := [sapReq t], cache := [c] }
    let r := sapReq t
    s.powered = true ∧ (s.tail t).queue = r :: [] ∧ s.sapWaits t 8 8 r.via (r.lines t) = false ∧ r.write = false ∧ r.na = false ∧
      r.tag < coreLanes ∧ r.die = 8 ∧
      r.bytes = 0 ∧ r.lines t = [1] ∧ s.blocksPoison r.addr r.units = 0 := by
  revert h c t
  decide +kernel

/-- A read of blocks `a` to `a + n` under an onward header, at die `d`'s Sapwood station. -/
def sapTile (d op a n : Nat) : List Xfer :=
  [{ tag := { tagOf 1 7 with src := 1 }, data := op + a * 4 + (n - 1) * 2 ^ 50 + 2 * 2 ^ 56 + d * 2 ^ 64, poison := 0 }]
def sapAt (d : Nat) (xs : List Xfer) (x : Tail) : State := (sapWith (d / 4) x).setStation d sapStation { left := [(0, xs)] }

theorem witness_sapTile : ∀ d ∈ [0, 3, 4, 7],
    let xs := sapTile d 0 (halfBase (d / 4) + 0x100) 4
    let s := sapAt d xs { cache := [⟨1, false⟩] }
    (s.station d sapStation).left = (0, xs) :: [] ∧
      (match sapTileRequest (d / 4) d xs (s.freeNat 32768).1 with
        | some r => !s.sapWaits (d / 4) d r.die 0 (r.lines (d / 4)) && !s.carveHit (d / 4) r && !r.write && !r.na && r.bytes == 0 &&
            r.lines (d / 4) == [1]
        | none => false) = true := by decide +kernel

theorem witness_sapBad : ∀ d ∈ [0, 3, 4, 7], (sapTileRequest (d / 4) d (sapTile d 3 (halfBase (d / 4)) 1) 0) = none := by decide +kernel

/-- An earlier read of the line is still being filled. -/
theorem witness_sapWaits :
    let s := sapAt 0 (sapTile 0 0 (halfBase 0 + 0x100) 4) { filling := [(sapReq 0, [1])] }
    (match sapTileRequest 0 0 (sapTile 0 0 (halfBase 0 + 0x100) 4) (s.freeNat 32768).1 with
      | some r => s.sapWaits 0 0 r.die 0 (r.lines 0)
      | none => false) = true := by decide +kernel

/-- A carve-out of one step of 16 GiB below 0x01C000000000. -/
theorem witness_carveOut :
    let xs := sapTile 4 0 (sapEnd - 64) 1
    let s := (sapAt 4 xs {}).setFld 27 0 0x100 4 4 1
    (match sapTileRequest 1 4 xs (s.freeNat 32768).1 with
      | some r => !s.sapWaits 1 4 r.die 0 (r.lines 1) && s.carveHit 1 r
      | none => false) = true := by decide +kernel

theorem witness_sapFill (t : Fin 2) : ((sapWith t { filling := [(sapReq t, [1])] }).tail t).filling = (sapReq t, [1]) :: [] := by
  revert t
  decide +kernel

theorem witness_prefetch :
    let s := (sapWith 1 { tracks := [⟨4, some true⟩], cache := [⟨5, false⟩], filling := [(sapReq 1, [1])] }).setFlag 27 1 0x100 0 true
    (s.tail 1).tracks[0]? = some ⟨4, some true⟩ ∧ s.flag (tsDie 1) 1 0x100 0 = true ∧
      ((s.aheadOf 1 ⟨4, some true⟩).find? fun l =>
        !((s.tail 1).cache.any fun c => c.line == l) && !((s.tail 1).prefetches.any fun p => p.line == l) && !(s.tail 1).busy 1 [l]) =
          some 6 ∧ (∀ p ∈ (s.tail 1).filling, ∀ m ∈ p.2, subChannel m ≠ subChannel 6) := by decide +kernel

theorem witness_prefetchLand :
    ((sapWith 0 { prefetches := [⟨6, true⟩] }).tail 0).prefetches = ⟨6, true⟩ :: [] ∧
      ((sapWith 0 { prefetches := [⟨6, false⟩] }).tail 0).prefetches = ⟨6, false⟩ :: [] ∧
      ((sapWith 0 { prefetches := [⟨6, false⟩] }).tail 0).busy 0 [6] = false := by decide +kernel

theorem witness_refetch :
    (((sapWith 0 { cache := [⟨6, false⟩] }).tail 0).cache.find? fun c => c.line == 6) = some ⟨6, false⟩ ∧
      (((sapWith 0 { cache := [⟨halfLines - 1, true⟩] }).tail 0).cache.find? fun c => c.line == halfLines - 1) =
        some ⟨halfLines - 1, true⟩ ∧ halfLines - 1 < halfLines ∧ (sapWith 0 {}).fld (26 + 0) 0 0x150 0 13 + 4 ≤ 4096 ∧
      (sapWith 0 {}).elog.length < 4096 := by decide +kernel

end Sys2Proof.Witness
end

