-- ==== Sys2Proof/Tests/WitnessLoader.lean ====
section
/-!
SUPPORT. Witnesses: a die program image that the loader takes, and images that it refuses.
-/
namespace Sys2Proof.Witness
open Sys2Proof.Machine
set_option Elab.async false

/-- The bytes of an image around its digest: code for Gouge core 1 alone, one instruction word at word 0. -/
def low : List Byte := bytesOf 48 (0x48535746 + 1 * 2 ^ 32 + 1 * 2 ^ 64 + 128 * 2 ^ 128 + 160 * 2 ^ 160)
def high : List Byte :=
  List.replicate 48 0 ++ (bytesOf 32 (1 + 8 * 2 ^ 32 + 160 * 2 ^ 64) ++ bytesOf 8 ((encodeEng .endProg).headD 0))
def imgOf (digest : Nat) : List Byte := low ++ (bytesOf 32 digest ++ high)
/-- The digest that the image must hold. -/
def rightDigest : Nat := imageDigest (imgOf 0)
def image : List Byte := imgOf rightDigest

theorem low_length : low.length = 48 := bytesOf_length _ _

theorem imageDigest_imgOf (v : Nat) : imageDigest (imgOf v) = imageDigest (imgOf 0) := by
  have e (w : Nat) : (imgOf w).take 48 ++ List.replicate 32 0 ++ (imgOf w).drop 80 = low ++ List.replicate 32 0 ++ high := by
    have h1 : (imgOf w).take 48 = low := List.take_left' low_length
    have h2 : (imgOf w).drop 80 = high := by
      unfold imgOf
      rw [← List.append_assoc]
      exact List.drop_left' (by rw [List.length_append, low_length, bytesOf_length])
    rw [h1, h2]
  unfold imageDigest
  rw [e, e]

theorem digest_lt : rightDigest < 2 ^ 256 := Nat.mod_lt _ (by decide)

theorem image_length : image.length = 168 := by
  unfold image imgOf
  rw [List.length_append, List.length_append, low_length, bytesOf_length]
  rfl

def lowNum : Nat := 0x48535746 + 1 * 2 ^ 32 + 1 * 2 ^ 64 + 128 * 2 ^ 128 + 160 * 2 ^ 160

theorem image_hdr : imgNum image 0 128 = lowNum + 2 ^ 384 * rightDigest := by
  have h : (image.drop 0).take 128 = low ++ (bytesOf 32 rightDigest ++ List.replicate 48 0) := by
    rw [List.drop_zero]
    unfold image imgOf high
    rw [← List.append_assoc (bytesOf 32 rightDigest), ← List.append_assoc low]
    exact List.take_left' (by rw [List.length_append, List.length_append, low_length, bytesOf_length]; rfl)
  unfold imgNum
  rw [h, ofBytes_append, ofBytes_append, low_length, bytesOf_length]
  unfold low
  rw [ofBytes_bytesOf, ofBytes_bytesOf, show ofBytes (List.replicate 48 (0 : Byte)) = 0 from by decide +kernel, Nat.mul_zero,
    Nat.add_zero, Nat.mod_eq_of_lt (show rightDigest < 2 ^ (8 * 32) from digest_lt)]
  rfl

/-- Fields below the digest are those of the low part; none is set above it. -/
theorem hdr_low {lo w : Nat} (h : lo + w ≤ 384) : bitsOf (lowNum + 2 ^ 384 * rightDigest) lo w = bitsOf lowNum lo w := by
  unfold bitsOf
  have e : 2 ^ 384 * rightDigest = 2 ^ lo * (2 ^ w * (2 ^ (384 - lo - w) * rightDigest)) := by
    rw [← Nat.mul_assoc, ← Nat.mul_assoc, ← Nat.pow_add, ← Nat.pow_add]
    congr 2
    omega
  rw [e, Nat.add_mul_div_left _ _ (Nat.two_pow_pos lo), Nat.add_mul_mod_self_left]

theorem hdr_digest : bitsOf (lowNum + 2 ^ 384 * rightDigest) 384 256 = rightDigest := by
  unfold bitsOf
  rw [Nat.add_mul_div_left _ _ (Nat.two_pow_pos 384), show lowNum / 2 ^ 384 = 0 from by decide +kernel, Nat.zero_add,
    Nat.mod_eq_of_lt digest_lt]

theorem hdr_high : bitsOf (lowNum + 2 ^ 384 * rightDigest) 640 384 = 0 := by
  have h : lowNum + 2 ^ 384 * rightDigest < 2 ^ 640 := by
    have a := digest_lt
    have b : lowNum < 2 ^ 384 := by decide +kernel
    calc lowNum + 2 ^ 384 * rightDigest < 2 ^ 384 + 2 ^ 384 * rightDigest := Nat.add_lt_add_right b _
      _ = 2 ^ 384 * (rightDigest + 1) := by rw [Nat.mul_succ, Nat.add_comm]
      _ ≤ 2 ^ 384 * 2 ^ 256 := Nat.mul_le_mul_left _ a
      _ = 2 ^ 640 := by rw [← Nat.pow_add]
  unfold bitsOf
  rw [Nat.div_eq_of_lt h, Nat.zero_mod]

/-- Its one section: 8 B of code of core 1. -/
def codeSec : Sec :=
  { index := 0, core := 1, kind := 0, space := false, write := false, length := 8, src := 160, dst := 0, bad := false }

theorem imageOf_image : imageOf image = ⟨image, lowNum + 2 ^ 384 * rightDigest, [codeSec], []⟩ := by
  have hs : imgNum image 128 32 = 1 + 8 * 2 ^ 32 + 160 * 2 ^ 64 := by
    have e : (image.drop 128).take 32 = bytesOf 32 (1 + 8 * 2 ^ 32 + 160 * 2 ^ 64) := by
      have d : image.drop 128 = bytesOf 32 (1 + 8 * 2 ^ 32 + 160 * 2 ^ 64) ++ bytesOf 8 ((encodeEng .endProg).headD 0) := by
        unfold image imgOf high
        rw [← List.append_assoc (bytesOf 32 rightDigest), ← List.append_assoc low]
        exact List.drop_left' (by rw [List.length_append, List.length_append, low_length, bytesOf_length]; rfl)
      rw [d]
      exact List.take_left' (bytesOf_length _ _)
    unfold imgNum
    rw [e]
    exact (ofBytes_bytesOf _ _).trans (by decide +kernel)
  unfold imageOf
  simp only [image_hdr, hdr_low (lo := 64) (w := 16) (by decide), hdr_low (lo := 80) (w := 16) (by decide),
    hdr_low (lo := 128) (w := 32) (by decide), hdr_low (lo := 160) (w := 32) (by decide)]
  rw [show bitsOf lowNum 64 16 = 1 from by decide +kernel, show bitsOf lowNum 80 16 = 0 from by decide +kernel,
    show bitsOf lowNum 128 32 = 128 from by decide +kernel]
  show Image.mk image _ [secOf 0 (imgNum image 128 32)] [] = _
  rw [hs]
  congr 2

/-- The image, and its fields. -/
def theImage : Image := ⟨image, lowNum + 2 ^ 384 * rightDigest, [codeSec], []⟩

theorem field {lo w n : Nat} (h : lo + w ≤ 384) (e : bitsOf lowNum lo w = n) : bitsOf theImage.hdr lo w = n := (hdr_low h).trans e
theorem bit {i : Nat} (h : i + 1 ≤ 384) (e : bitsOf lowNum i 1 = 0) : bitOf theImage.hdr i = false := by
  have a : theImage.hdr / 2 ^ i % 2 = 0 := field h e
  unfold bitOf
  rw [a]
  rfl

theorem image_flags : theImage.backfill = false ∧ theImage.hinted = false ∧ theImage.debug = false ∧ theImage.act = 0 ∧ theImage.ckpt = 0 ∧
    ∀ q < 4, theImage.arrays q = 0 := by
  refine ⟨?_, bit (by decide) (by decide +kernel), bit (by decide) (by decide +kernel), field (by decide) (by decide +kernel),
    field (by decide) (by decide +kernel), ?_⟩
  · unfold Image.backfill
    rw [field (n := 0) (by decide) (by decide +kernel)]
    rfl
  · intro q h
    exact field (by omega) (by revert q; decide +kernel)

theorem image_headerBad : theImage.headerBad = false := by
  have ⟨b, _, _, a, c, ar⟩ := image_flags
  unfold Image.headerBad
  simp only [b, show theImage.bytes.length = 168 from image_length, field (lo := 40) (w := 2) (n := 0) (by decide) (by decide +kernel),
    field (lo := 44) (w := 20) (n := 0) (by decide) (by decide +kernel), field (lo := 64) (w := 16) (n := 1) (by decide) (by decide +kernel),
    field (lo := 112) (w := 16) (n := 0) (by decide) (by decide +kernel), field (lo := 128) (w := 5) (n := 0) (by decide) (by decide +kernel),
    field (lo := 160) (w := 5) (n := 0) (by decide) (by decide +kernel), field (lo := 128) (w := 32) (n := 128) (by decide) (by decide +kernel),
    field (lo := 160) (w := 32) (n := 160) (by decide) (by decide +kernel), field (lo := 80) (w := 16) (n := 0) (by decide) (by decide +kernel),
    field (lo := 192) (w := 12) (n := 0) (by decide) (by decide +kernel), field (lo := 256) (w := 12) (n := 0) (by decide) (by decide +kernel),
    field (lo := 352) (w := 32) (n := 0) (by decide) (by decide +kernel), show bitsOf theImage.hdr 640 384 = 0 from hdr_high]
  simp [List.range_succ, ar]

theorem image_contents : theImage.patched 0 0 [] codeSec = (encodeEng .endProg).headD 0 := by
  have e : (image.drop 160).take 8 = bytesOf 8 ((encodeEng .endProg).headD 0) := by
    have d : image.drop 160 = bytesOf 8 ((encodeEng .endProg).headD 0) := by
      unfold image imgOf high
      rw [← List.append_assoc, ← List.append_assoc, ← List.append_assoc]
      exact List.drop_left' (by simp only [List.length_append, low_length, bytesOf_length, List.length_replicate])
    rw [d]
    exact List.take_of_length_le (Nat.le_of_eq (bytesOf_length _ _))
  show imgNum image 160 8 = _
  unfold imgNum
  rw [e]
  exact (ofBytes_bytesOf _ _).trans (by decide +kernel)

theorem image_code (c : Nat) :
    theImage.code c (theImage.patched 0 0 []) = if c = 1 then [(0, (encodeEng .endProg).headD 0, 0)] else [] := by
  unfold Image.code Image.ofCore
  show (List.flatMap _ ([codeSec].filter _)).mergeSort _ = _
  by_cases h : c = 1
  · subst h
    rw [if_pos rfl, show ([codeSec].filter fun x => x.kind == 0 && x.core == 1) = [codeSec] from rfl, List.flatMap_singleton,
      image_contents]
    decide +kernel
  · rw [if_neg h, show ([codeSec].filter fun x => x.kind == 0 && x.core == c) = [] from by simp [codeSec, Ne.symm h], List.flatMap_nil]
    exact List.mergeSort_nil

/-- A ready module whose inbound mailbox has brought a job. -/
def jobRdy : State := { rdy with mgmt := { rdy.mgmt with taken := 1 } }

/-- The loader takes the image. -/
theorem witness_accepted : jobRdy.run = .ready ∧ jobRdy.mgmt.taken ≠ 0 ∧ jobRdy.mgmt.loads = [] ∧ jobRdy.loadCheck 0 0 0 [] image = none ∧ (imageOf image).backfill = false := by
  have ⟨b, hh, db, a, ck, ar⟩ := image_flags
  refine ⟨rfl, by decide, rfl, ?_, by rw [imageOf_image]; exact b⟩
  unfold State.loadCheck
  have hd : theImage.digest = imageDigest image := hdr_digest.trans (imageDigest_imgOf _).symm
  have hs : theImage.secs = [codeSec] := rfl
  have hp : theImage.patches = [] := rfl
  have hj : jobRdy.job = none := rfl
  simp only [show imageOf image = theImage from imageOf_image, hd, hs, hp, hj, image_headerBad, b, hh, db, a, ck, image_length,
    field (lo := 0) (w := 32) (n := 0x48535746) (by decide) (by decide +kernel),
    field (lo := 32) (w := 8) (n := 1) (by decide) (by decide +kernel)]
  have hq : ((List.range 4).any fun q => (jobRdy.flag 0 (qBlk q) 0x00C 0 || !jobRdy.debugOpen || false) && jobRdy.debug 0 q != false) = false := by
    decide +kernel
  have hn : (List.range 4).foldl (fun n q => n + theImage.arrays q) 0 = 0 := by
    rw [show List.range 4 = [0, 1, 2, 3] from rfl]
    simp only [List.foldl, ar 0 (by decide), ar 1 (by decide), ar 2 (by decide), ar 3 (by decide)]
  have ho : jobRdy.outside 0 theImage codeSec = false := by
    unfold State.outside
    rw [b]
    rfl
  have hc : (engineCores.findSome? fun c => scanCode c false false (theImage.preload c (theImage.patched 0 0 [])) none
      (theImage.code c (theImage.patched 0 0 [])) 0 {}) = none := by
    simp only [image_code]
    decide +kernel
  have hw : theImage.tieBad (theImage.patched 0 0 []) = none := by
    show ((([codeSec].filter fun x => x.kind == 4).find? _).map _) = none
    rfl
  have hk : sapEnd - jobRdy.carveBase ≤ 768 * 2 ^ 30 := by decide +kernel
  have hb : ([codeSec].find? fun x => x.bad02 168) = none := by decide +kernel
  have hu : ([codeSec].find? fun x => jobRdy.outside 0 theImage x) = none := by
    rw [List.find?_singleton, ho]
    rfl
  have hv : firstOverlap [] [codeSec] = none := by decide +kernel
  have ht : ((Sparse.get noProg ([] : Sparse (Option LoadedProg)) 0).isSome) = false := rfl
  simp only [hq, hn, hb, hu, hv]
  rw [if_neg (by decide), if_neg (by simp), if_neg (by decide), if_neg (by decide), if_neg (by simp), if_neg (by
    show ¬ 768 * 2 ^ 30 < 0 + 0 + 0 + (sapEnd - jobRdy.carveBase)
    omega)]
  show (match engineCores.findSome? fun c => scanCode c false false (theImage.preload c (theImage.patched 0 0 [])) none
      (theImage.code c (theImage.patched 0 0 [])) 0 {} with
    | some r => some r
    | none => (theImage.tieBad (theImage.patched 0 0 [])).map fun n => (0x0A, some n)) = none
  rw [hc, hw]
  rfl

/-- Another job's image and a short one are refused; before step 8 nothing is loaded. -/
theorem witness_refused : ({ jobRdy with job := some { id := 3 } } : State).loadCheck 4 0 0 [] image = some (0x0B, none) ∧
    jobRdy.loadCheck 0 0 0 [] [] = some (0x01, none) ∧ State.reset.run ≠ .ready ∧ rdy.mgmt.taken = 0 ∧
    ({ jobRdy with job := some { id := 3 } } : State).job.isSome = true := by
  refine ⟨?_, ?_, by decide, by decide, rfl⟩
  · unfold State.loadCheck
    exact if_pos (by decide)
  · unfold State.loadCheck
    exact (if_neg (by decide)).trans (if_pos (.inl (by decide)))

/-- A begun load, of which nothing or one request is still outstanding. -/
def begunLoad (spans : List (Nat × Span)) : Load :=
  { job := 0, die := 0, rank := 0, layout := [], points := [], bytes := [], begun := true, spans := spans }

theorem witness_loading :
    (let s := jobRdy.setLoads [begunLoad []];
      s.mgmt.loads = begunLoad [] :: [] ∧ (begunLoad []).begun = true ∧ ((begunLoad []).spans.all fun p => s.spanDone p.2) = true) ∧
    (let l := begunLoad [(0, ⟨0, 64, [(0, 9)]⟩)]
      let s := { jobRdy.setLoads [l] with
        reqs := [{ id := 9, die := 0, requester := 36, lane := 128, addr := 0, units := 1, write := true, data := 0, poison := 0, left := 1 }] };
      (l.spans.all fun p => s.spanDone p.2) = false) := by decide +kernel

end Sys2Proof.Witness
end

