-- ==== Sys2Proof/Tests/WitnessMgmt.lean ====
section
/-!
SUPPORT. Witnesses: states and operands that meet the hypotheses of the statements on the register bus, the management port, the fuses,
resets, start-up and the carrier.
-/
namespace Sys2Proof.Witness
open Sys2Proof.Machine
set_option Elab.async false

/-! ### RegisterWritesTakeEffect -/

/-- A 4 B access of the register at an offset of a page, in a view. -/
def regAt (view z i off : Nat) : RegAccess := { addr := BitVec.ofNat 32 (view * 2 ^ 30 + z * 2 ^ 24 + i * 2 ^ 12 + off), wide := false, value := 5 }

theorem witness_registerWrite :
    let n (a : RegAccess) : Nat := a.addr.toNat
    rdy.run = .ready ∧ regAligned (n (regAt 0 7 22 0x01A)) false = false ∧ regView (n (regAt 1 7 22 0x018)) = 1 ∧
      regView (n (regAt 3 7 22 0x018)) = 3 ∧
      (pageType (regDie (n (regAt 0 7 24 0x018))) (regIndex (n (regAt 0 7 24 0x018)))).isNone = true ∧
      pageType (regDie (n (regAt 0 7 22 0x018))) (regIndex (n (regAt 0 7 22 0x018))) = some .skew ∧ regView (n (regAt 0 7 22 0x018)) = 0 ∧
      regAligned (n (regAt 0 7 22 0x018)) false = true ∧ regOff (n (regAt 0 7 22 0x01C)) = 0x01C ∧
      regOff (n (regAt 0 7 22 0x018)) = 0x018 ∧ regOff (n (regAt 0 7 22 0x00C)) = 0x00C ∧ regOff (n (regAt 0 7 22 0x004)) = 0x004 ∧
      regOff (n (regAt 0 7 22 0x1C0)) = 0x1C0 := by decide +kernel

/-- Headstock core 5 waits at a held quarter. -/
def throughCore : State :=
  { rdy.setQuarter 7 3 { faulted := true } with through := [⟨5, 2 * 2 ^ 30 + 7 * 2 ^ 24 + 22 * 2 ^ 12 + 0x104, false, 0, 0, true⟩] }

theorem witness_masters : rdy.masterBusy 5 = false ∧ throughCore.masterBusy 5 = true ∧
    throughCore.storeWaits (regAt 2 7 22 0x01C).addr.toNat = true ∧ regAligned (regAt 2 7 22 0x01C).addr.toNat false = true ∧
    pageType (regDie (regAt 0 26 0 0x100).addr.toNat) (regIndex (regAt 0 26 0 0x100).addr.toNat) = some .swc ∧
    regOff (regAt 0 26 0 0x100).addr.toNat = 0x100 ∧ regView (regAt 0 26 0 0x100).addr.toNat = 0 := by decide +kernel

/-- A Headstock core's DMA of a page, and the same at other addresses. -/
def pageRead (a : BitVec 48) : HsAccess := { addr := a, bytes := 4096 }
def straddling : HsAccess := { addr := 0x7FFFFFFFFB, bytes := 8, store := some 1 }

theorem witness_headstock : ([0x7FFFFFF000#48, 0x010000000000#48, 0x01BFFFFFF000#48, 0x008000000000#48].all fun a => hsFormOk (pageRead a)) = true ∧
    regionOf 0x7FFFFFF000 = .heartwood 7 ∧ regionOf 0x010000000000 = .sapwood 0 ∧ regionOf 0x01BFFFFFF000 = .sapwood 1 ∧
    regionOf 0x008000000000 = .unmapped ∧ hsFormOk straddling = true ∧ regionOf straddling.addr.toNat = .heartwood 7 ∧
    straddling.bytes ≤ 8 ∧ 8 < straddling.addr.toNat % 8 + straddling.bytes ∧ 8 < (pageRead 0).bytes ∧
    (0x7FFFFFFFF8#48).toNat % 8 + 8 ≤ 8 ∧ rdy.WaitsTold := by
  refine ⟨?_, ?_, ?_, ?_, ?_, ?_, ?_, ?_, ?_, ?_, ?_, fun p h => absurd h List.not_mem_nil⟩ <;> decide +kernel

/-- Two inbound entries and `n` outbound ones. -/
def boxed (n : Nat) : State :=
  { rdy with mgmt := { rdy.mgmt with inbox := [⟨1, [7]⟩, ⟨2, []⟩], outbox := List.replicate n ⟨1, []⟩ } }

/-- The oldest of two inbound entries, and an outbox with room and one without. -/
theorem witness_mailbox :
    (boxed 0).mgmt.inbox = ⟨1, [7]⟩ :: [⟨2, []⟩] ∧ (boxed 63).mgmt.outbox.length < 64 ∧
      64 ≤ (boxed 64).mgmt.outbox.length ∧ ([7#8] : List Byte).length ≤ 4096 := by decide +kernel

def watched (n : Nat) : State := (rdyAt n).setRg 24 5 0x18C 3

theorem witness_watchdog : rdy.flag 24 5 0x18C 0 = false ∧ (watched 10000000).flag 24 5 0x18C 0 = true ∧
    (watched 10000000).boot.kicked + max 1 ((watched 10000000).fld 24 5 0x18C 1 8) * 10000000 ≤ (watched 10000000).tick ∧
    (watched 10000000).elog.length < 4096 ∧ (1 : W32).getLsbD 0 = true ∧ (rdy.setRg 24 1 0x100 8).debugOpen = true ∧
    rdy.debugOpen = false ∧ (61 : Fin 64).val % 32 < 30 := by decide +kernel

/-- Hart 0 loads from a page of its own quarter, which is held. -/
def throughHart : State :=
  let a : HartAccess := { addr := regBase + 2 * 2 ^ 30 + 0x104, bytes := 4, store := none, rd := 3, signed := false, since := 0 }
  { (hartAt [] [] { wait := some (.access a) } {}).setFlag 0 (qBlk 0) 0x108 7 true with tick := 1000 }

theorem witness_through :
    throughHart.run = .ready ∧ throughHart.hartState 0 0 0 = 1 ∧
      (match (throughHart.hart 0 0 0).wait with
        | some (.access a) => a.req == none && regionOf a.addr == .register && throughHart.throughWaits (a.addr - regBase) &&
            decide (a.since + 1000 ≤ throughHart.tick)
        | _ => false) = true := by decide +kernel

/-- The firmware's write to a page of a held quarter, which it has waited for since tick 0. -/
def firmwareWaits : State :=
  let a : RegAccess := { addr := BitVec.ofNat 32 (2 * 2 ^ 30 + 0x104), wide := false, value := 1 }
  let s := mgmtWith [sess 3]
  { (s.setFlag 0 (qBlk 0) 0x108 7 true) with
    tick := 1000, mgmt := { s.mgmt with work := some { conn := 7, session := 3, cmd := 0x12, seq := 4, status := 0, left := [(true, a)], since := 0 } } }

theorem witness_firmwareWaits :
    (match firmwareWaits.mgmt.work with
      | some w => firmwareWaits.session w.conn == some (sess 3) && (sess 3).id == w.session && decide (w.since + 1000 ≤ firmwareWaits.tick) &&
          (match w.left with | [(_, a)] => firmwareWaits.throughWaits a.addr.toNat | _ => false)
      | none => false) = true ∧
    (firmwareWaits.through.filter fun y => firmwareWaits.throughWaits y.addr && decide (y.since + 1000 ≤ firmwareWaits.tick)) = [] := by
  decide +kernel

/-! ### QueueIsFifo -/

/-- A request waits for the firmware, whose accesses are done. -/
def requested : State := { mgmtWith [sess 0] with mgmt := { (mgmtWith [sess 0]).mgmt with waiting := [.statusCmd (reqTo (sess 0) 0x10)] } }

theorem witness_queue : requested.pending = [] ∧ requested.mgmt.work.isNone = true ∧ requested.run = .ready ∧
    requested.mgmt.waiting = [.statusCmd (reqTo (sess 0) 0x10)] := ⟨rfl, rfl, rfl, rfl⟩

theorem witness_front : ({ rdy with pending := [.latchOpen, .latchClose] } : State).pending = Instr.latchOpen :: [.latchClose] := rfl

/-! ### AppliesAndSnapshots -/

/-- A strobe of the group of die 7 is asked for, sampled and delivered, and its last Skew core has a staged write; quarter 2 is held. -/
def strobing : State :=
  { rdy.setFlag 7 (qBlk 2) 0x108 7 true with applyReq := 2 ^ 7, applyDue := 2 ^ 7, staged := [(rkey 7 22 0x1C0, some 9)] }
def struck : State :=
  { rdyAt 6 with covered := [(rkey 7 22 0x1C0, some 9)], strobed := [(rkey 7 22 0, 7, 5)] }

theorem witness_strobe : strobing.Canonical ∧ struck.Canonical ∧ rdy.applyDue = 0 := by
  refine ⟨⟨?_, ?_, ?_, ?_, ?_⟩, ⟨?_, ?_, ?_, ?_, ?_⟩, ?_⟩ <;> decide +kernel

theorem witness_apply : strobing.applyReq ≠ 0 ∧ strobing.applyReq < 2 ^ 16 ∧ strobing.applyDue ≠ 0 ∧ pageType 7 22 = some .skew ∧
    isNatural .skew 0x1C0 = false ∧ bitOf strobing.applyDue (strobing.groupOf 7 22) = true ∧
    Sparse.get noStage strobing.staged (rkey 7 22 0x1C0) = some 9 ∧ bitOf strobing.applyDue (strobing.groupOf 6 22) = false ∧
    Sparse.get noStage struck.covered (rkey 7 22 0x1C0) = some 9 ∧ (rkey 7 22 0, 7, 5) ∈ struck.strobed ∧ 5 < struck.tick ∧
    quarterOf 7 22 = some (7, 3) ∧ struck.pageRuns (rkey 7 22 0) = true ∧
    (struck.setQuarter 7 3 { faulted := true }).pageRuns (rkey 7 22 0) = false := by decide +kernel

/-- A covered write of the debug mode, on a locked page. -/
def lockedDebug : State :=
  { (rdyAt 6).setRg 7 0x43 0x00C 1 with covered := [(rkey 7 0x43 0x180, some 2)], strobed := [(rkey 7 0x43 0, 7, 5)] }

theorem witness_locked : lockedDebug.Canonical := by
  refine ⟨?_, ?_, ?_, ?_, ?_⟩ <;> decide +kernel

theorem witness_lockedField : pageType 7 0x43 = some .qclk ∧ isNatural .qclk 0x180 = false ∧ lockedDebug.flag 7 0x43 0x00C 0 = true ∧
    accMask (regFields .qclk 0x180) (· == .rwl) ≠ 0 ∧ lockedDebug.pageRuns (rkey 7 0x43 0) = true ∧
    Sparse.get noStage lockedDebug.covered (rkey 7 0x43 0x180) = some 2 := by decide +kernel

theorem witness_record : ({ rdy with mgmt := { rdy.mgmt with record := some 7 } } : State).hsUp = true ∧
    ({ rdy with mgmt := { rdy.mgmt with record := some 7 } } : State).mgmt.record = some 7 := by decide +kernel

theorem witness_pages : pageType (31 : Fin 32) (0x29 : Fin 128) = some .byp ∧ inSnapSet .byp 0x110 = true ∧ inSnapSet .byp 0x12F = true ∧
    (1 : W32).getLsbD 0 = true ∧ pageType 0 1 = some .gouge := by decide +kernel

theorem witness_snapshot : ({ rdyAt 9 with snapArmed := some 9 } : State).Canonical ∧
    ({ rdyAt 9 with snapArmed := some 9 } : State).snapArmed = some 9 ∧ 9 ≤ (rdyAt 9).tick ∧ (rdyAt 8).tick < 9 ∧ rdy.snapEdge = none ∧
    ({ rdy with snapReq := [3, 9] } : State).snapReq = [3] ++ [9] ∧ inSnapSet .gouge 0x2D7 = true :=
  ⟨⟨by decide, by decide, by decide, by decide, by decide⟩, rfl, by decide, by decide, rfl, rfl, by decide⟩

/-! ### SessionsOpenAndEnd -/

/-- A session that waits for its HELLO or its ENCAP. -/
def fresh (conn id : Nat) : Session := { conn := conn, id := id, want := 2, slot := 7, lastAt := 0 }
def slotted (o : OwnerSlot) (s : State) : State := { s with fuses := { s.fuses with slots := [(7, some o)] } }

theorem witness_sessions : (mgmtWith []).mgmtUp = true ∧ (mgmtWith [sess 0]).session 8 = none ∧
    (mgmtWith [fresh 1 0, fresh 2 0, fresh 3 0]).mgmt.sessions.length < 4 ∧
    4 ≤ (mgmtWith [fresh 1 0, fresh 2 0, fresh 3 0, fresh 4 0]).mgmt.sessions.length ∧
    (mgmtWith [fresh 1 0, fresh 2 0, fresh 3 0, fresh 4 0]).session 5 = none ∧ (mgmtWith [sess 0]).session 7 = some (sess 0) ∧
    (sess 0).lastAt + 300 * 10 ^ 8 ≤ ({ mgmtWith [sess 0] with tick := 300 * 10 ^ 8 } : State).tick := by decide +kernel

def openingReq (id : W32) : MgmtReq := { conn := 7, session := id, seq := 0 }

theorem witness_hello : (mgmtWith [fresh 7 0]).session (openingReq 0).conn = some (fresh 7 0) ∧ (fresh 7 0).priv = none ∧
    (openingReq 0).session = 0 ∧ reqFormOk (openingReq 0) = true ∧
    (mgmtWith [fresh 7 0]).mgmt.helloFrom ≤ (mgmtWith [fresh 7 0]).tick ∧
    (let s := mgmtWith [fresh 7 0];
      ({ s with mgmt := { s.mgmt with helloFrom := 1 } } : State).tick < 1) := by decide +kernel

theorem witness_encap (h : BitVec 512) : (mgmtWith [fresh 7 4]).session (openingReq 4).conn = some (fresh 7 4) ∧ (fresh 7 4).priv = none ∧
    (fresh 7 4).id ≠ 0 ∧ (openingReq 4).session.toNat = (fresh 7 4).id ∧ reqFormOk (openingReq 4) = true ∧ (mgmtWith [fresh 7 4]).encapCheck (fresh 7 4) h none = some (0, true) ∧
    (slotted { digest := 0, max := 2 } (mgmtWith [fresh 7 4])).encapCheck (fresh 7 4) h none = none := by
  refine ⟨by decide +kernel, rfl, by decide, by decide, by decide, ?_, ?_⟩
  · show (if (mgmtWith [fresh 7 4]).claimed then none else some (0, true)) = some (0, true)
    rw [show (mgmtWith [fresh 7 4]).claimed = false from by decide +kernel]
    rfl
  · show (if (slotted { digest := 0, max := 2 } (mgmtWith [fresh 7 4])).claimed then none else some (0, true)) = none
    rw [show (slotted { digest := 0, max := 2 } (mgmtWith [fresh 7 4])).claimed = true from by decide +kernel]
    rfl

theorem witness_slot : (fresh 7 4).slot < 8 ∧
    (slotted { digest := 0, max := 2 } (mgmtWith [fresh 7 4])).slotOf (fresh 7 4).slot = some { digest := 0, max := 2 } := by decide +kernel

/-- Where signatures verify, a signed ENCAP is granted. -/
theorem witness_encapSigned (h : BitVec 512) (key : FalconKey) (sig : FalconSig) (v : Config.sigValid key (digestBytes h) sig = true) :
    (slotted { digest := Config.shake256 (keyBytes key), max := 2 } (mgmtWith [fresh 7 4])).encapCheck (fresh 7 4) h (some (key, sig)) =
      some (2, false) := by
  unfold State.encapCheck
  have e : (slotted { digest := Config.shake256 (keyBytes key), max := 2 } (mgmtWith [fresh 7 4])).slotOf (fresh 7 4).slot =
      some { digest := Config.shake256 (keyBytes key), max := 2 } := rfl
  simp only [e]
  rw [if_pos (show (fresh 7 4).slot < 8 from by decide), v]
  simp [fresh]

/-- A module whose configuration block gives it the address 10.0.0.1. -/
def configured : State := { mgmtWith [] with flash := { config := some { bytes := [], v4 := some 0x0A000001#32, slot := 0, key := 0, sig := 0 } } }

theorem witness_cage : ({ mgmtWith [] with pins := {} } : State).hsUp = true ∧ ({ mgmtWith [] with pins := {} } : State).pins.cage = none ∧
    State.reset.hsUp = false ∧ State.reset.pins.cage = none ∧ (mgmtWith []).portIsUp = true ∧ rdy.portIsUp = false ∧
    (mgmtWith []).flash.config = none ∧ configured.portIsUp = true ∧ configured.ownsV4 0x0A000001#128 = true ∧
    configured.ownsV4 0x0A000002#128 = false ∧ (mgmtWith []).ownsV4 0x0A000001#128 = false := by decide +kernel

theorem witness_linkLocal : (mgmtWith []).ownsV6 (Config.linkLocal (mgmtWith []).mgmtMac) = true := by
  unfold State.ownsV6
  rw [beq_self_eq_true, Bool.true_or]

theorem witness_sessionStays : (mgmtWith [sess 0]).session 7 = some (sess 0) ∧
    ({ mgmtWith [sess 0] with tick := 300 * 10 ^ 8 - 1 } : State).tick < (sess 0).lastAt + 300 * 10 ^ 8 := by decide +kernel

/-! ### SessionCommandsAnswer, OwnerCommandsChangeFuses -/

theorem serves_of {s : State} {p cmd least : Nat} {bytes : List Byte} (hl : least ≤ p) (hb : bytes.length ≤ 16384)
    (h : (s.mgmtUp && s.session 7 == some (sess p) && s.mgmt.work.isNone) = true) :
    Serves s (reqTo (sess p) cmd bytes) (sess p) cmd least := by
  rw [Bool.and_eq_true, Bool.and_eq_true, beq_iff_eq, Option.isNone_iff_eq_none] at h
  refine ⟨h.1.1, h.1.2, ⟨p, rfl, hl⟩, (fun h => by cases h), h.2, rfl, rfl, ?_, rfl⟩
  show (true && decide (bytes.length ≤ 16384)) = true
  rw [decide_eq_true hb]
  rfl

theorem witness_serves (cmd : Nat) : Serves (mgmtWith [sess 3]) (reqTo (sess 3) cmd) (sess 3) cmd 3 :=
  serves_of (Nat.le_refl _) (by decide) (by decide +kernel)
theorem witness_serves_observer (cmd : Nat) : Serves (mgmtWith [sess 0]) (reqTo (sess 0) cmd) (sess 0) cmd 0 :=
  serves_of (Nat.le_refl _) (by decide) (by decide +kernel)
theorem witness_serves_operator (cmd : Nat) : Serves (mgmtWith [sess 1]) (reqTo (sess 1) cmd) (sess 1) cmd 1 :=
  serves_of (Nat.le_refl _) (by decide) (by decide +kernel)
theorem witness_serves_owner (cmd : Nat) : Serves (mgmtWith [sess 2]) (reqTo (sess 2) cmd) (sess 2) cmd 2 :=
  serves_of (Nat.le_refl _) (by decide) (by decide +kernel)

/-- A nonce of 32 B and an entry of 4,096 B. -/
theorem witness_payloads : Serves (mgmtWith [sess 0]) (reqTo (sess 0) 0x13 (List.replicate 32 9)) (sess 0) 0x13 0 ∧
    (reqTo (sess 0) 0x13 (List.replicate 32 9)).payload.length = 32 ∧ (List.replicate 4096 (7 : Byte)).length ≤ 4096 :=
  ⟨serves_of (Nat.le_refl _) (by decide) (by decide +kernel), List.length_replicate, Nat.le_of_eq List.length_replicate⟩

theorem witness_regAccesses : (List.replicate 512 (regAt 0 7 22 0x018)).length ≤ 512 ∧
    (∀ a ∈ [regAt 0 7 22 0x018], regAligned a.addr.toNat a.wide = true) ∧ (regAt 0 7 22 0x018).wide = false ∧
    writeRefused 1 (regAt 0 7 22 0x00C).addr.toNat = true ∧ writeRefused 1 (regAt 0 7 22 0x018).addr.toNat = false ∧
    (mgmtWith [sess 1]).loadWaits mgmtMaster (regAt 0 7 22 0x018).addr.toNat = false ∧
    ({ mgmtWith [sess 1] with wrote := [(mgmtMaster, rkey 7 22 0)] } : State).loadWaits mgmtMaster (regAt 0 7 22 0x018).addr.toNat = true ∧
    (mgmtWith [sess 1]).storeWaits (regAt 0 7 22 0x018).addr.toNat = false ∧
    pageType (regDie (regAt 0 24 1 0x100).addr.toNat) (regIndex (regAt 0 24 1 0x100).addr.toNat) = some .root := by decide +kernel

/-- The session's mailboxes: `n` entries wait, and one for it. -/
def mailed (n : Nat) : State :=
  let s := mgmtWith [sess 1]
  { s with mgmt := { s.mgmt with inbox := List.replicate n ⟨3, []⟩, outbox := [⟨9, [1]⟩, ⟨3, [2]⟩] } }

theorem witness_mail (cmd : Nat) : Serves (mailed 63) (reqTo (sess 1) cmd) (sess 1) cmd 1 ∧ (mailed 63).mgmt.inbox.length < 64 ∧
    Serves (mailed 64) (reqTo (sess 1) cmd) (sess 1) cmd 1 ∧ 64 ≤ (mailed 64).mgmt.inbox.length ∧
    ((mailed 63).mgmt.outbox.find? fun e => e.session == (sess 1).id || e.session == 0) = some ⟨3, [2]⟩ :=
  ⟨serves_of (Nat.le_refl _) (by decide) (by decide +kernel), by decide +kernel, serves_of (Nat.le_refl _) (by decide) (by decide +kernel),
    by decide +kernel, by decide +kernel⟩

theorem witness_unknown : (0x61 : Byte).toNat ∉ mgmtCodes ∧ (0x00 : Byte).toNat ∉ mgmtCodes := by decide

/-- A session whose last reply is kept, and one with fifteen discards. -/
def repeated : Session := { sess 1 with seq := 5, cached := some (.closed 7) }
def discarding (n : Nat) : Session := { sess 1 with discards := n }

/-- A request of a session whose tag is not the one that it has to carry. -/
def forged (x : Session) (cmd : Nat) : MgmtReq := { reqTo x cmd with tag := x.tagFor (reqTo x cmd) cmd + 1 }

theorem witness_forged (x : Session) (cmd : Nat) : (forged x cmd).tag ≠ x.tagFor (forged x cmd) cmd := by
  show x.tagFor (reqTo x cmd) cmd + 1 ≠ x.tagFor (reqTo x cmd) cmd
  generalize x.tagFor (reqTo x cmd) cmd = t
  bv_omega

theorem witness_badRequests : 16384 < (reqTo (sess 1) 0x10 (List.replicate 16385 0)).payload.length ∧
    ({ reqTo (sess 1) 0x10 with session := 4 } : MgmtReq).session.toNat ≠ (sess 1).id ∧
    firmwareWaits.mgmt.work.isSome = true ∧ firmwareWaits.mgmtUp = true :=
  ⟨Nat.lt_of_lt_of_eq (by decide) List.length_replicate.symm, by decide, by decide +kernel, by decide +kernel⟩

theorem witness_repeats : (mgmtWith [repeated]).mgmtUp = true ∧ (mgmtWith [repeated]).session 7 = some repeated ∧
    repeated.priv.isSome = true ∧ (reqTo repeated 0x10).seq = repeated.seq ∧ repeated.cached = some (.closed 7) ∧
    (reqTo repeated 0x10).session.toNat = repeated.id ∧ reqFormOk (reqTo repeated 0x10) = true ∧ (mgmtWith [repeated]).mgmt.work.isNone = true ∧
    (mgmtWith [discarding 14]).session 7 = some (discarding 14) ∧ (discarding 14).discards < 15 ∧
    (mgmtWith [discarding 15]).session 7 = some (discarding 15) ∧ 15 ≤ (discarding 15).discards := by decide +kernel

theorem witness_repeatTag : (reqTo repeated 0x10).tag = repeated.tagFor (reqTo repeated 0x10) 0x10 := rfl

/-- Slots 0 and 7 filled, of an owner's session. -/
def owned : State :=
  let s := mgmtWith [sess 2]
  { s with fuses := { s.fuses with slots := [(0, some { digest := 5, max := 2 }), (7, some { digest := 6, max := 1 })] } }

theorem witness_owner (cmd : Nat) : Serves owned (reqTo (sess 2) cmd) (sess 2) cmd 2 ∧ owned.slotOf 6 = none ∧ owned.fuses.ownerLock = false ∧
    (owned.slotOf 7).isSome = true ∧ owned.ownerLeft 7 = true ∧ owned.ownerLeft 0 = false ∧
    owned.slotOf 7 = some { digest := 6, max := 1 } ∧ owned.claimed = true ∧ (mgmtWith [sess 0]).claimed = false ∧
    (List.replicate 4096 (0 : Byte)).length = 4096 :=
  ⟨serves_of (Nat.le_refl _) (by decide) (by decide +kernel), by decide +kernel, by decide +kernel, by decide +kernel, by decide +kernel,
    by decide +kernel, by decide +kernel, by decide +kernel, by decide +kernel, List.length_replicate⟩

/-- A configuration block that slot 7 of a module with this key signs, where the signature verifies, and one of a slot that is empty. -/
theorem witness_config (cmd : Nat) (key : FalconKey) (sig : FalconSig) :
    let s := slotted { digest := Config.shake256 (keyBytes key), max := 1 } (mgmtWith [sess 2])
    let b : ConfigBlock := { bytes := List.replicate 4096 0, slot := 7, key := key, sig := sig }
    Serves s (reqTo (sess 2) cmd) (sess 2) cmd 2 ∧ b.bytes.length = 4096 ∧ b.slot < 8 ∧
      s.slotOf b.slot = some { digest := Config.shake256 (keyBytes key), max := 1 } ∧ (mgmtWith [sess 2]).slotOf 7 = none :=
  ⟨serves_of (Nat.le_refl _) (by decide) (show ((mgmtWith [sess 2]).mgmtUp && (mgmtWith [sess 2]).session 7 == some (sess 2) &&
      (mgmtWith [sess 2]).mgmt.work.isNone) = true from by decide +kernel), List.length_replicate, by show 7 < 8; decide, rfl, by decide +kernel⟩

theorem witness_stage (sig : FalconSig) :
    ({ magic := 0, rollback := 1, length := 2 ^ 25 - 4096, digest := 0, vendorSig := sig, owner := none, image := List.replicate 12288 0 } :
      StageCopy).length + 4096 ≤ 2 ^ 25 ∧ (List.replicate 12288 (0 : Byte)).length + 4096 ≤ 16384 := by
  rw [List.length_replicate]
  exact ⟨show 2 ^ 25 - 4096 + 4096 ≤ 2 ^ 25 from by decide, by decide⟩

theorem witness_debugger (cmd : Nat) : Serves ((mgmtWith [sess 3]).setRg 24 1 0x100 8) (reqTo (sess 3) cmd) (sess 3) cmd 3 ∧
    ((mgmtWith [sess 3]).setRg 24 1 0x100 8).debugOpen = true :=
  ⟨serves_of (Nat.le_refl _) (by decide) (by decide +kernel), by decide +kernel⟩

/-! ### ResetsRestart -/

theorem witness_resets : ({ State.reset with run := .unpowered } : State).run = .unpowered ∧ 48000 < 48001 ∧ 60000 ≤ 60000 ∧ 60000 < 60001 ∧
    rdy.run ≠ .unpowered ∧ rdy.pins.resetLow = false ∧ ¬(rdy.run = .startUp ∧ rdy.startStep = 0) ∧
    State.reset.run = .startUp ∧ State.reset.startStep = 0 ∧ State.reset.pins.resetLow = false := by decide +kernel

def pinHeld : State := { rdy with run := .pinReset, pins := { resetLow := true } }
theorem witness_release_pin : pinHeld.run = .pinReset ∧ pinHeld.pins.resetLow = true := by decide +kernel

/-- The recovery responder, with its port up. -/
def recovering : State := { mgmtWith [] with run := .recovery, boot := { rdy.boot with responder := true } }
def copyOf (magic : W32) (img : List Byte) (sig : FalconSig) : StageCopy :=
  { magic := magic, rollback := 64, length := img.length, digest := Config.shake256 img, vendorSig := sig, owner := none, image := img }

theorem witness_recovery : recovering.run = .recovery ∧ recovering.portIsUp = true ∧ recovering.verifyCopy (copyOf 0 [] 0) = none := by
  refine ⟨rfl, by decide +kernel, ?_⟩
  unfold State.verifyCopy
  exact if_neg fun h => absurd h.1 (by decide)

/-- Where the vendor's key is the one whose digest the module holds, and a signature verifies, a copy verifies. -/
theorem witness_verified (img : List Byte) (sig : FalconSig) (k : Config.shake256 (keyBytes Config.vendorKey) = Config.vendorDigest)
    (v : Config.sigValid Config.vendorKey (digestBytes (Config.shake256 img)) sig = true) :
    (recovering.verifyCopy (copyOf 0x48533253#32 img sig)).isSome = true := by
  unfold State.verifyCopy
  have e : (copyOf 0x48533253#32 img sig).image.take (copyOf 0x48533253#32 img sig).length = img := List.take_length
  simp only [e]
  rw [if_pos]
  · rfl
  · refine ⟨rfl, rfl, ?_, Nat.zero_le _, Nat.le_refl 64, rfl⟩
    rw [Bool.and_eq_true, beq_iff_eq]
    exact ⟨k, v⟩

/-! ### StartUpRunsItsSteps -/

def startAt (k : Nat) : State := { State.reset with startStep := k }

theorem witness_startUp : (startAt 1).run = .startUp ∧ ({ failed := true } : StartFacts).failed = true ∧ (startAt 1).elog.length < 4096 ∧
    (startAt 1).bootCopy (startAt 1).flash.copyA (({} : StartFacts).shipped.getD 0 none) = none ∧
    (startAt 1).bootCopy (startAt 1).flash.copyB (({} : StartFacts).shipped.getD 1 none) = none ∧
    (startAt 4).flag 24 elogBlk 0x184 0 = false ∧ (startAt 5).boot.fruBad = false ∧ isGouge 21 = true ∧ (startAt 7).alertOn = false ∧
    (startAt 0).boot.stepAt + stepTicks 1 < ({ startAt 0 with tick := 20000001 } : State).tick ∧
    (startAt 0).tick ≤ (startAt 0).boot.stepAt + stepTicks 1 ∧ (startAt 7).stepLate = false ∧
    ({ startAt 0 with tick := 20000001 } : State).stepLate = true := by decide +kernel

/-- Where the vendor's key is the one whose digest the module holds, and a signature verifies, a shipped copy boots. -/
theorem witness_shipped (img : List Byte) (sig : FalconSig) (k : Config.shake256 (keyBytes Config.vendorKey) = Config.vendorDigest)
    (v : Config.sigValid Config.vendorKey (digestBytes (Config.shake256 img)) sig = true) :
    ((startAt 1).bootCopy (startAt 1).flash.copyA
      (({ shipped := [some (copyOf 0x48533253#32 img sig)] } : StartFacts).shipped.getD 0 none)).isSome = true := by
  show ((startAt 1).verifyCopy (copyOf 0x48533253#32 img sig)).isSome = true
  unfold State.verifyCopy
  have e : (copyOf 0x48533253#32 img sig).image.take (copyOf 0x48533253#32 img sig).length = img := List.take_length
  simp only [e]
  rw [if_pos]
  · rfl
  · refine ⟨rfl, rfl, ?_, Nat.zero_le _, Nat.le_refl 64, rfl⟩
    rw [Bool.and_eq_true, beq_iff_eq]
    exact ⟨k, v⟩

/-- Facts with one lane, or one row, more than the spares; with a point S0 of quarter 0 lost, and with S6. -/
def overLanes : StartFacts := { lanes := [(8, 0, 3)] }
def overRows : StartFacts := { rows := [(23, 31, 31, 9)] }
def late (point : Nat) : StartFacts := { transits := [(0, point, 1, 99)] }

theorem witness_startUpEnds : tripCauses State.reset.gov.sensors = 0 ∧
    tripCauses ({ startAt 2 with gov := { State.reset.gov with sensors := { inlet := 46 } } } : State).gov.sensors ≠ 0 ∧
    (startAt 2).fld 24 0 0x1B8 0 3 = 0 ∧
    ({ startAt 0 with pins := { resetLow := true } } : State).pins.resetLow = true ∧ (startAt 0).pins.resetLow = false ∧
    unrepairable {} = none ∧ unrepairable { lanes := [(8, 0, 2)], rows := [(23, 31, 31, 8)] } = none ∧
    unrepairable overLanes = some (8, 0, 0) ∧ unrepairable overRows = some (23, 31, 31) ∧ bitOf (lostPoints (late 6) 0) 6 = true ∧
    lostPoints (late 0) 0 = 1 ∧ lostPoints {} 31 = 0 ∧ ({} : StartFacts).linkBad = none := by decide +kernel

/-! ### EngineResetsClearTheirDies -/

theorem witness_engineReset (cmd : Nat) : Serves (mgmtWith [sess 1]) (reqTo (sess 1) cmd) (sess 1) cmd 1 ∧ (0x80 : BitVec 8) ≠ 0#8 ∧
    8 ≤ (mgmtWith [sess 1]).startStep ∧ (mgmtWith [sess 1]).engineReset = none ∧
    Serves ({ mgmtWith [sess 1] with run := .startUp, startStep := 7 } : State) (reqTo (sess 1) cmd) (sess 1) cmd 1 ∧ (0x80 : BitVec 8).getLsbD 7 = true :=
  ⟨serves_of (Nat.le_refl _) (by decide) (by decide +kernel), by decide, by decide +kernel, by decide +kernel,
    serves_of (Nat.le_refl _) (by decide) (by decide +kernel), by decide⟩

def resettingDie (keep : Bool) (n : Nat) : State := { rdyAt n with engineReset := some ⟨0x80, keep, 0⟩ }
/-- Quiesced for a fault of die 7 that an engine reset of it ends. -/
def quiescedDie : State :=
  { (resettingDie true 5).setRg 24 elogBlk 0x184 (BitVec.ofNat 32 (1 + 1 * 2 + 0x80 * 2 ^ 3)) with run := .quiesced }

theorem witness_partsLeft :
    ({ resettingDie true 5 with admitted := [⟨0, 7, 1, 1, 7, 1, 0, 0, 0, 1, false, 0, false⟩] } : State).partsLeft 0x80 = true ∧
      (resettingDie true 5).partsLeft 0x80 = false := by decide +kernel

theorem witness_resetEnds (keep : Bool) : (resettingDie keep 11000001).engineReset = some ⟨0x80, keep, 0⟩ ∧
    (resettingDie keep 11000001).run = .ready ∧ (resettingDie keep 11000001).alertOn = false ∧ bitOf 0x80 7 = true ∧ bitOf 0x80 6 = false ∧
    0 + (if keep then 10000000 else 11000000) < (resettingDie keep 11000001).tick ∧ (resettingDie keep 5).engineLate ⟨0x80, keep, 0⟩ = false ∧
    (resettingDie keep 11000001).flag 24 elogBlk 0x184 0 = false ∧ quiescedDie.run = .quiesced ∧
    quiescedDie.fld 24 elogBlk 0x184 1 2 = 1 ∧
    quiescedDie.fld 24 elogBlk 0x184 3 8 &&& 0x80 = quiescedDie.fld 24 elogBlk 0x184 3 8 := by
  revert keep
  decide +kernel

/-! ### CarrierReadsTheModule -/

theorem witness_carrier : rdy.run ≠ .unpowered ∧ ({ rdy with run := .unpowered } : State).run = .unpowered ∧
    ({ rdy with pins := { dynamic := some 9 } } : State).pins.dynamic = some 9 ∧ (0x3D : BitVec 7) ≠ 0x3C#7 ∧
    BusAddr.i3c 0x50 ≠ .i2c 0x50#7 ∧ ([1, 2] : List Byte).length ≠ 1 := by decide +kernel

end Sys2Proof.Witness
end

