-- ==== Sys2Proof/Tests/WitnessNet.lean ====
section
/-!
SUPPORT. Witnesses: states and operands that meet the hypotheses of the statements on the network.
-/
namespace Sys2Proof.Witness
open Sys2Proof.Machine
set_option Elab.async false

/-! ### FramesAreHandled -/

/-- A ready module whose port `p` is up, at a tick. -/
def portUp (p n : Nat) : State := ((rdyAt n).setFlag (portDie p) (portBlk p) 0x120 0 true).setFlag (portDie p) (portBlk p) 0x104 0 true

theorem witness_receives : PortReceives (portUp 103 5) 103 :=
  ⟨by decide +kernel, by decide +kernel, by decide +kernel, by decide +kernel, by decide +kernel, by decide +kernel, by decide +kernel,
    by decide +kernel, by decide +kernel⟩

def frameOf (fcs : Bool) (dst : BitVec 48) (b : FrameBody) : FrameIn :=
  { fcsOk := fcs, len := 64, raw := 7, dst := dst, vlan := none, sec := none, ecn := 3, word := 0, frac := 65535, body := b }
/-- A frame for the port itself. -/
def mineOf (b : FrameBody) : FrameIn := frameOf true (BitVec.ofNat 48 ((portUp 103 5).portMac 103)) b

/-- The same port with PFC on. -/
def portPfc : State := (portUp 103 5).setFlag (portDie 103) (portBlk 103) 0x104 1 true

theorem witness_pfc_receives : PortReceives portPfc 103 :=
  ⟨by decide +kernel, by decide +kernel, by decide +kernel, by decide +kernel, by decide +kernel, by decide +kernel, by decide +kernel,
    by decide +kernel, by decide +kernel⟩

theorem witness_frames :
    let s := portUp 103 5
    (frameOf false 0 .other).fcsOk = false ∧
      ([(4, 1), (s.fld (fpeDie 7) fpeBlk 0x104 22 3, 9)].find? fun q => q.1 == s.fld (fpeDie 7) fpeBlk 0x104 22 3) =
        some (s.fld (fpeDie 7) fpeBlk 0x104 22 3, 9) ∧
      portPfc.flag (portDie 103) (portBlk 103) 0x104 1 = true ∧
      (frameOf true 5 .other).dst.toNat ≠ s.portMac 103 ∧ (frameOf true 5 .other).dst.toNat ≠ broadcastMac ∧
      (frameOf true (BitVec.allOnes 48) .other).dst.toNat = broadcastMac := by decide +kernel

theorem witness_pfcBody (qs : List (Nat × Nat)) : (mineOf .other).body ≠ .pfc qs := FrameBody.noConfusion

/-- A packet for this endpoint under a bad header checksum. -/
theorem witness_badSum : let s := portUp 103 5
    let f := mineOf (.ip 0 (s.flag (fpeDie 7) fpeBlk 0x140 1) false)
    f.fcsOk = true ∧ s.flag (portDie 103) (portBlk 103) 0x104 2 = false ∧ f.dst.toNat = s.portMac 103 ∧ portLathe 103 = 7 ∧
      s.isEndpoint 7 0 (s.flag (fpeDie 7) fpeBlk 0x140 1) = true := by decide +kernel

/-- A data packet of engine 2 of rank 3 for engine 7 of rank 1, with its check (Table 13.6). -/
def hctOf (ms : List ChunkMsg) (psn : Nat) : HctIn :=
  let h := hctHeader 0 ms.length 3 2 1 7 psn
  { hdr := BitVec.ofNat 256 h, msgs := ms, crc := hctCrc h (.data ms), src := 0 }
def flowIn (low : Nat) : RxFlow := { rank := 3, ce := 2, me := 1, low := low }

theorem witness_hct :
    let s := (portUp 103 5).setNet 7 { rx := [flowIn (2 ^ 32 + 5)] }
    let x := hctOf (List.replicate 8 { hdr := 0 }) 5
    let f := mineOf (.udp 0 (s.flag (fpeDie 7) fpeBlk 0x140 1) true (s.fld (fpeDie 7) fpeBlk 0x104 0 16) (.hct x))
    f.fcsOk = true ∧ s.flag (portDie 103) (portBlk 103) 0x104 2 = false ∧ f.dst.toNat = s.portMac 103 ∧ portLathe 103 = 7 ∧
      s.isEndpoint 7 0 (s.flag (fpeDie 7) fpeBlk 0x140 1) = true ∧ s.hasRoom 103 (hctSize x) = true ∧ x.version = 1 ∧ x.type = 0 ∧
      s.rankHere 7 x = true ∧ x.dstCe = 7 ∧ x.count = x.msgs.length ∧ 0 < x.msgs.length ∧ x.msgs.length ≤ 8 ∧
      ((s.net 7).rxFlow x).low % 2 ^ 32 = x.psn ∧ ((s.net 7).rxFlow x).beyond = [] := by decide +kernel

theorem witness_hctCheck (ms : List ChunkMsg) (psn : Nat) (h : hctHeader 0 ms.length 3 2 1 7 psn < 2 ^ 256) :
    (hctOf ms psn).crc = hctCrc (hctOf ms psn).hdr.toNat (.data (hctOf ms psn).msgs) := by
  show hctCrc _ _ = hctCrc (BitVec.ofNat 256 _).toNat _
  rw [BitVec.toNat_ofNat, Nat.mod_eq_of_lt h]
  rfl

theorem witness_hctHeader : hctHeader 0 8 3 2 1 7 5 < 2 ^ 256 := by decide

theorem witness_roceFrame :
    let s := portUp 103 5
    let x : RoceIn := { icrcOk := true, qpn := 1, psn := 2, body := .other }
    x.qpn < 1024 ∧ s.fld (fpeDie 7) fpeBlk 0x104 0 16 ≠ 4791 ∧ s.hasRoom 103 (roceSize x) = true := by decide +kernel

/-- A host receive ring of 192 units, with room for the largest frame. -/
def withRing (s : State) : State := s.setFld 24 mgmtBlk (hrxAt (s.hostOf 7) + 8) 0 18 3

theorem witness_hostRing : (withRing (portUp 103 5)).hrxFits ((withRing (portUp 103 5)).hostOf 7) 9216 = true ∧ (withRing (portUp 103 5)).WaitsTold :=
  ⟨by decide +kernel, fun p h => absurd h List.not_mem_nil⟩

/-- A PTP frame over UDP with a bad checksum, and a frame of another kind. -/
theorem witness_hostBodies : (mineOf (.ptp false)).body = .ptp false ∧ (mineOf .other).body = .other ∧ (mineOf .other).fcsOk = true := ⟨rfl, rfl, rfl⟩

theorem witness_hostRing_receives : PortReceives (withRing (portUp 103 5)) 103 :=
  ⟨by decide +kernel, by decide +kernel, by decide +kernel, by decide +kernel, by decide +kernel, by decide +kernel, by decide +kernel,
    by decide +kernel, by decide +kernel⟩

theorem witness_pause : (((portUp 103 5).setPort 103 { pfcIn := [65535, 0] }).port 103).pfcIn = 65535 :: [0] ∧
    (((portUp 103 5).setPort 103 { pfcIn := [0] }).port 103).pfcIn = 0 :: [] ∧
    (((portUp 103 5).setPort 103 { pfcIn := [0] }).port 103).txq = [] := by decide +kernel

theorem witness_hostFrame :
    (portUp 103 5).hostHeader 7 (BitVec.ofNat 512 (103 + 60 * 2 ^ 7 + 9 * 2 ^ 22 + 3 * 2 ^ 504)).toNat = some (103, 60, false, 9) ∧
      (portUp 103 5).hostHeader 7 (BitVec.ofNat 512 (103 + 59 * 2 ^ 7 + 3 * 2 ^ 504)).toNat = none := by decide +kernel

/-! ### FlowsAreReliable -/

def pktOf (psn retries : Nat) : HctPkt := { psn := psn, dest := 0, me := 1, body := .data [], first := 0, retries := retries, entropy := 3 }
def flowOut (ks : List HctPkt) : TxFlow := { rank := 3, ce := 2, next := 9, unacked := ks }
def sending (n : Nat) (f : TxFlow) : State := (rdyAt n).setNet 7 { tx := [f] }

theorem witness_ack :
    let s := (rdyAt 5).setNet 7 { tx := [flowOut [pktOf 6 0, pktOf 8 0]], acks := [⟨3, 2, 7, 1, 0, 2, 103⟩] }
    (s.net 7).acks = ⟨3, 2, 7, 1, 0, 2, 103⟩ :: [] ∧ s.txFlow 7 3 2 = some (flowOut [pktOf 6 0, pktOf 8 0]) ∧
      (∀ k ∈ (flowOut [pktOf 6 0, pktOf 8 0]).unacked, (⟨3, 2, 7, 1, 0, 2, 103⟩ : AckIn).covers k.psn = true) ∧
      (∀ g ∈ (s.net 7).tx, g.waiting = []) ∧ (⟨3, 2, 7, 1, 0, 2, 103⟩ : AckIn).marked = 0 ∧
      s.flag (portDie 103) (portBlk 103) 0x104 1 = false ∧ (s.port 103).pausing = none := by decide +kernel

/-- A full window, and a flow whose packets have gone at its rate only in the next tick. -/
theorem witness_pump :
    (∀ g ∈ ((sending 5 (flowOut (List.replicate 256 (pktOf 8 0)))).net 7).tx, 256 ≤ g.unacked.length) ∧
      (∀ g ∈ ((sending 5 { flowOut [] with paidTo := 60000 }).net 7).tx,
        ((sending 5 { flowOut [] with paidTo := 60000 }).tick + 1) * 10000 ≤ g.paidTo) := by decide +kernel

theorem witness_ackOwed :
    let f := { flowIn 5 with pend := 8, oldest := 9 }
    let g := { flowIn 5 with pend := 1, oldest := 9 }
    (((rdyAt 9).setNet 7 { rx := [f] }).net 7).rx.find? (fun f => f.is 3 2) = some f ∧ 8 ≤ f.pend ∧ 0 < g.pend ∧
      g.oldest + 200 ≤ (rdyAt 209).tick := by decide +kernel

theorem witness_retransmit :
    let s := sending 5000 (flowOut [pktOf 8 0])
    s.txFlow 7 3 2 = some (flowOut [pktOf 8 0]) ∧
      ((flowOut [pktOf 8 0]).unacked.find? fun k => decide (k.retries < 8) && decide (k.first + retryAt (k.retries + 1) ≤ s.tick)) =
        some (pktOf 8 0) := by decide +kernel

theorem witness_fatal :
    let s := sending 2555000 (flowOut [pktOf 8 8])
    s.txFlow 7 3 2 = some (flowOut [pktOf 8 8]) ∧ pktOf 8 8 ∈ (flowOut [pktOf 8 8]).unacked ∧
      (pktOf 8 8).first + retryAt 9 ≤ s.tick := by decide +kernel

theorem witness_evict :
    let s := sending 10000000 (flowOut [])
    (s.net 7).tx = [flowOut []] ∧ (flowOut []).is 3 2 = true ∧ (flowOut []).waiting = [] ∧ (flowOut []).used + 10000000 ≤ s.tick ∧
      s.txFlow 7 3 2 = some (flowOut []) ∧ (flowOut []).calmFrom + 1000 ≤ s.tick := by decide +kernel

/-! ### RemoteRequestsGoOut -/

/-- A Ready context: path MTU 4,096 B, peer 9, 7 retries, t = 0. -/
def ctxOf (host : Nat) : Nat := 1 + host * 2 ^ 2 + 5 * 2 ^ 4 + 7 * 2 ^ 8 + 9 * 2 ^ 16
/-- Queue pair 1023 of die 7, that of rank 17. -/
def qpAt (n host : Nat) (x : Qp) : State :=
  (((rdyAt n).setTable 3 3 1023 (ctxOf host)).setTable 3 5 1 ((1023 + 2 ^ 15) * 2 ^ 32)).setQp 7 1023 x
def remoteOf (rank : Nat) (write : Bool) : RemoteReq :=
  { id := 4, die := 7, quarter := 0, stream := 0, rank := rank, addr := 0x40, bytes := 4096, write := write, bucket := 0 }
def remoteAt (rank : Nat) : State := { qpAt 5 0 {} with remotes := [remoteOf rank false] }

theorem witness_remote : (remoteAt 17).netTile 7 = none ∧
    ((remoteAt 17).remotes.find? fun r => r.die == 7 && !r.sent) = some (remoteOf 17 false) ∧
    (remoteAt 17).qpOfRank 7 17 = some 1023 ∧ ctxReady ((remoteAt 17).qpCtx 7 1023) = true ∧ (remoteAt 18).qpOfRank 7 18 = none := by
  decide +kernel

/-- A tile of one line at die 7's Net station. -/
def netTileOf (line : Nat) : State :=
  let x : Xfer := { tag := tagOf 1 14, data := line, poison := 0 }
  (rdyAt 5).setStation 7 14 { left := [(0, [x])] }

theorem witness_netTile :
    let line := 3 + 1 * 2 ^ 504
    ((netTileOf line).netTile 7).map (fun r => (netKind r.1, requestBad (r.1.headD (0, 0)).1)) = some (1, true) ∧
      ((netTileOf (4 * 2 ^ 504)).netTile 7).map (fun r => netKind r.1) = some 4 ∧ (netTileOf line).elog.length < 4096 := by decide +kernel

def workOf (op psn count got : Nat) : QpReq :=
  { owner := .remote 4, rank := 17, op := op, addr := 0x40, bytes := 4096, data := 0, bad := 0, psn := psn, count := count, got := got }
def roceIn (psn : Nat) (b : RoceBody) : RocePkt := { pkt := { icrcOk := true, qpn := 1023, psn := psn, body := b }, port := 103 }
def answered (n : Nat) (w : QpReq) (x : RocePkt) : State :=
  { (qpAt n 0 { work := [w] }).setNet 7 { roce := [x] } with remotes := [remoteOf 17 false] }

theorem witness_response :
    let x := roceIn 1 (.done 0 0)
    ((answered 5 (workOf 1 (2 ^ 24 - 1) 3 0) x).net 7).roce = x :: [] ∧
      ((answered 5 (workOf 1 (2 ^ 24 - 1) 3 0) x).qp 7 1023).work = [workOf 1 (2 ^ 24 - 1) 3 0] ∧
      x.pkt.psn = ((workOf 1 (2 ^ 24 - 1) 3 0).psn + (workOf 1 (2 ^ 24 - 1) 3 0).count - 1) % 2 ^ 24 ∧
      ctxReady ((answered 5 (workOf 1 (2 ^ 24 - 1) 3 0) x).qpCtx 7 (x.pkt.qpn % 1024)) = true ∧
      x.pkt.psn = ((workOf 0 0 2 1).psn + (workOf 0 0 2 1).got) % 2 ^ 24 ∧ (workOf 0 0 2 1).got + 1 = (workOf 0 0 2 1).count ∧
      (roceIn 1 (.nak 2)).pkt.body = .nak 2 ∧ (roceIn 1 (.nak 0)).pkt.body = .nak 0 ∧
      (∀ r ∈ ((answered 5 (workOf 1 0 3 0) (roceIn 1 (.nak 0))).qp 7 1023).work, r.op ≠ 0) := by decide +kernel

theorem witness_timeout :
    let s := qpAt 410 0 { work := [workOf 0 0 1 0], retries := 6 }
    let t := qpAt 410 0 { work := [workOf 0 0 1 0], retries := 7 }
    (s.qp 7 1023).work = [workOf 0 0 1 0] ∧ ctxReady (s.qpCtx 7 1023) = true ∧
      4096 * 2 ^ ctxT (s.qpCtx 7 1023) ≤ 10 * (s.tick - (s.qp 7 1023).since) ∧ (s.qp 7 1023).retries < ctxRetries (s.qpCtx 7 1023) ∧
      ctxRetries (t.qpCtx 7 1023) ≤ (t.qp 7 1023).retries ∧ t.elog.length < 4096 := by decide +kernel

theorem witness_tblStore :
    (rdy.setRg 31 fpeBlk 0x150 (BitVec.ofNat 32 (3 + 1023 * 2 ^ 3))).tblSel (3 : Fin 4) = some (3, 1023) ∧
      (rdy.setRg 31 fpeBlk 0x150 (BitVec.ofNat 32 (0 + 63 * 2 ^ 3))).tblSel (3 : Fin 4) = some (0, 63) := by decide +kernel

/-! ### IncomingRequestsAreServed -/

/-- A window over the first 4,096 B of Sapwood for reads and writes, and a packet for queue pair 1023. -/
def incoming (host psn : Nat) (b : RoceBody) : State :=
  ((qpAt 5 host { recvPsn := 2 ^ 24 - 1 }).setTable 3 1 63 (sapBase + 4096 * 2 ^ 48 + 7 * 2 ^ 88)).setNet 7 { roce := [roceIn psn b] }

theorem witness_incoming :
    let s := incoming 0 (2 ^ 24 - 1) (.read 0 sapBase 4096)
    (s.net 7).roce = roceIn (2 ^ 24 - 1) (.read 0 sapBase 4096) :: [] ∧ ctxReady (s.qpCtx 7 1023) = true ∧
      psnPlace (s.qp 7 1023).recvPsn (2 ^ 24 - 1) = .next ∧ psnPlace (s.qp 7 1023).recvPsn (2 ^ 24 - 2) = .again ∧
      psnPlace (s.qp 7 1023).recvPsn 0 = .gap ∧ s.roceKey 7 = 0 ∧ s.granted 7 sapBase 4096 false = true ∧
      s.granted 7 sapBase 4096 true = true ∧ s.granted 7 sapBase 4097 false = false ∧ 4096 ≤ ctxMtu (s.qpCtx 7 1023) ∧
      (1 : W32) ≠ s.roceKey 7 := by decide +kernel

theorem witness_incomingSend :
    let s := withRing (incoming 1 (2 ^ 24 - 1) (.send 64 7))
    (s.net 7).roce = roceIn (2 ^ 24 - 1) (.send 64 7) :: [] ∧ ctxHost (s.qpCtx 7 1023) = true ∧ s.hrxFits (s.hostOf 7) 64 = true ∧
      (incoming 1 (2 ^ 24 - 1) (.send 64 7)).hrxFits ((incoming 1 (2 ^ 24 - 1) (.send 64 7)).hostOf 7) 64 = false ∧
      ctxHost ((incoming 0 (2 ^ 24 - 1) (.send 64 7)).qpCtx 7 1023) = false := by decide +kernel

/-- Two answers owed on one queue pair, whose accesses are done. -/
def owed (psn : Nat) : PeerJob := { qp := 1023, span := { addr := sapBase, bytes := 4096 }, psn := psn, code := 4, mtu := 4096 }

theorem witness_peerReady : let s := (rdyAt 5).setNet 7 { jobs := [owed 0, owed 1] }
    s.peerReady [] (s.net 7).jobs = some (owed 0) ∧ (owed 0).code = 4 ∧ 0 < (owed 0).span.bytes ∧ (owed 0).span.bytes ≤ (owed 0).mtu := by
  decide +kernel

/-! ### NativeBlocksCross -/

/-- Port 81 of die 6, the last bypass port, in ring-native framing, and a kind-2 tile of two transfers. -/
def nativePort (x : Port) : State := ((portUp 81 5).setFlag (portDie 81) (bypBlk 81) 0x104 1 true).setPort 81 { x with ringNative := true }
def nativeTile (line : Nat) (x : Port) : State :=
  let part (i : Nat) : Xfer := { tag := { tagOf 1 14 with xfer := i, xferLast := 2 }, data := if i = 0 then line else i, poison := 0 }
  (nativePort x).setStation 6 14 { left := [(0, (List.range 3).map part)] }
def nativeLine : Nat := 81 + 2 * 2 ^ 504

theorem witness_native :
    let s := nativeTile nativeLine { credit := 2, unacked := List.replicate 255 ⟨0, 0, 0, []⟩ }
    ((s.netTile 6).map fun r => (netKind r.1, (r.1.headD (0, 0)).1, (r.1.drop 1).length)) = some (2, nativeLine, 2) ∧
      bitsOf nativeLine 7 57 = 0 ∧ bitsOf nativeLine 128 376 = 0 ∧ (portsOf 6).contains 81 = true ∧ isBypass 81 = true ∧
      s.flag (portDie 81) (bypBlk 81) 0x104 1 = true ∧ s.linkUp 81 = true ∧ (s.port 81).ringNative = true ∧ s.portSends 81 = true ∧
      s.flag (portDie 81) (portBlk 81) 0x200 0 = false ∧ (s.port 81).heldBlocksTx = [] ∧ 2 ≤ (s.port 81).credit ∧ (s.port 81).unacked.length + ceilDiv 2 4 ≤ 256 ∧
      (((nativeTile nativeLine { credit := 1 }).port 81).credit) < 2 ∧ bitsOf (nativeLine + 2 ^ 7) 7 57 ≠ 0 := by decide +kernel

def blockOf (crc : Bool) (seq : Nat) : NativeIn :=
  { crcOk := crc, seq := seq, ack := 0, credit := 0, again := false, farTag := BitVec.ofNat 64 (tagOf 0 1).bits, first := 0, xfers := [(5, 0)] }

theorem witness_nativeBlock :
    let s := nativePort { rxSeq := 5 }
    s.linkUp 81 = true ∧ (s.port 81).ringNative = true ∧ s.portSends 81 = true ∧ s.flag (portDie 81) (portBlk 81) 0x200 0 = false ∧
      (s.port 81).heldBlocksRx = [] ∧ (blockOf true 5).again = false ∧ (blockOf false 5).crcOk = false ∧ (s.port 81).rxSeq < (blockOf true 6).seq ∧
      (blockOf true 4).seq < (s.port 81).rxSeq ∧ (blockOf true 5).seq = (s.port 81).rxSeq ∧ (blockOf true 5).xfers ≠ [] ∧
      (coreOfStation (HopTag.ofBits (blockOf true 5).farTag.toNat).retire).isSome = true := by decide +kernel

/-! ### LinksFollowTheirLight -/

/-- Bay `d` ready with a module in it. -/
def lit (d : Nat) : State := { rdy.setBay d 3 with bays := Sparse.put nat0 [] d 1 }

theorem witness_train : isBypass 103 = false ∧ ((lit 7).setFlag (portDie 103) (portBlk 103) 0x104 0 true).canTrain 103 = true ∧
    (portUp 103 5).flag (portDie 103) (portBlk 103) 0x120 0 = true ∧ (⟨true, 0⟩ : TrainFacts).native = true ∧
    (⟨false, 0⟩ : TrainFacts).native = false := by decide +kernel

theorem witness_lasers : Sparse.get nat0 rdy.bays 7 = 0 ∧ Sparse.get nat0 (lit 6).bays 6 ≠ 0 ∧ (lit 6).bayBit 6 1 = true ∧
    (lit 6).elog.length < 4096 := by decide +kernel

theorem witness_dither : (lit 7).bayBit (portLathe 103) 1 = true ∧ (lit 7).flag (portDie 103) (portBlk 103) 0x120 5 = false ∧
    nearEnd 0x55555555 = false ∧ nearEnd 0x45555555 = true := by decide +kernel

/-! ### ElementsAndDeliberateFaults -/

def pairWith (switch ctrl : W32) : State := ((lit 6).setRg (pairDie 7) (pairBlk 7) 0x108 switch).setRg (pairDie 7) (pairBlk 7) 0x104 ctrl

theorem witness_elements :
    (pairWith 1 0).flag (pairDie 7) (pairBlk 7) 0x108 0 = true ∧ (pairWith 1 0).mayOpen 7 = true ∧
      (pairWith 0 0).flag (pairDie 7) (pairBlk 7) 0x108 0 = false ∧ (pairWith 3 1).flag (pairDie 7) (pairBlk 7) 0x108 1 = true ∧
      (pairWith 3 1).flag (pairDie 7) (pairBlk 7) 0x104 0 = true ∧ (pairWith 3 1).mayOpen 7 = true ∧
      (pairWith 2 0).flag (pairDie 7) (pairBlk 7) 0x108 1 = true ∧ (pairWith 2 0).flag (pairDie 7) (pairBlk 7) 0x104 0 = false := by
  decide +kernel

theorem witness_linkRefuse :
    let s := withStation 29 { arrived := [xferOf 0 7], refusals := 14 }
    let t := withStation 29 { arrived := [xferOf 0 7], refusals := 15 }
    (29 : Fin 30).val ∈ linkStations ∧ (s.station 0 29).arrived ≠ [] ∧ (s.station 0 29).refusals + 1 < 16 ∧
      (t.station 0 29).refusals + 1 = 16 ∧ t.flag 24 elogBlk 0x184 0 = false := by decide +kernel

theorem witness_debug : rdy.debugOpen = false ∧ (rdy.setRg 24 1 0x100 8).debugOpen = true ∧ stationKind 29 ≠ 0 ∧ isGouge 19 = true ∧
    isSkew 22 = true ∧ bitsOf (4 : W32).toNat 2 2 = 1 ∧ bitsOf (32 : W32).toNat 4 2 = 2 ∧ (4 : W32).getLsbD 2 = true := by decide +kernel

end Sys2Proof.Witness
end

/-! ## Whittle-path endpoints (R159, Table 6.9) -/

namespace Sys2Proof.Machine

/-- The row of the Parting cores: quarter `q` of die `d` stands at 4d + q. -/
theorem endpointOf_parting (d : Fin 8) (q : Fin 4) : endpointOf (4 * d + q) = .parting d q := by
  have inRow : 4 * d.val + q.val < 0x20 := by omega
  have die : (4 * d.val + q.val) / 4 = d := by omega
  have quarter : (4 * d.val + q.val) % 4 = q := by omega
  rw [endpointOf, if_pos inRow, die, quarter]

/-- The row of the collective engines. -/
theorem endpointOf_engine (d : Fin 8) : endpointOf (0x20 + d) = .engine d := by
  have notParting : ¬ 0x20 + d.val < 0x20 := by omega
  have inRow : 0x20 + d.val < 0x28 := by omega
  rw [endpointOf, if_neg notParting, if_pos inRow, Nat.add_sub_cancel_left]

/-- The rows of both Headstocks, which meet at 0x60. -/
theorem endpointOf_headstock {a : Nat} (lo : 0x40 ≤ a) (hi : a < 0x80) : endpointOf a = .headstock a := by
  have notParting : ¬ a < 0x20 := by omega
  have notEngine : ¬ a < 0x28 := by omega
  rw [endpointOf, if_neg notParting, if_neg notEngine, if_pos ⟨lo, hi⟩]

/-- The row of the others, as a single fact: what lies above the engines and in neither Headstock. -/
theorem endpointOf_reserved {a : Nat} (lo : 0x28 ≤ a) (outside : ¬ (0x40 ≤ a ∧ a < 0x80)) : endpointOf a = .reserved := by
  have notParting : ¬ a < 0x20 := by omega
  have notEngine : ¬ a < 0x28 := by omega
  rw [endpointOf, if_neg notParting, if_neg notEngine, if_neg outside]

section Reserved
variable {m : WMsg} (s : State) (reserved : endpointOf m.dst = .reserved)
include reserved

theorem State.mailArrives_reserved : s.mailArrives m = s.refuseMsg m 2 := by
  rw [State.mailArrives, reserved]

theorem State.slotAddArrives_reserved : s.slotAddArrives m = s.refuseMsg m 2 := by
  rw [State.slotAddArrives, reserved]

theorem State.writeArrives_reserved : s.writeArrives m = s.refuseMsg m 2 := by
  rw [State.writeArrives, reserved]

/-- With the open message, the refusal covers every type that a sender can choose (Table 6.10). -/
theorem State.ceOpenArrives_reserved : s.ceOpenArrives m = s.refuseMsg m 2 := by
  rw [State.ceOpenArrives, reserved]

end Reserved

/-- Settles O26, a row of Table 6.9 at a time; each type's arrival asks the endpoint first, so a reserved one is refused whatever the
message holds. -/
theorem endpointsOfTheWhittlePath : Obligations.EndpointsOfTheWhittlePath := by
  unfold Obligations.EndpointsOfTheWhittlePath
  refine ⟨endpointOf_parting, endpointOf_engine, fun c => ⟨?hs0, ?hs1⟩, fun a lo hi => ?gap, fun a lo _ => ?top,
    fun s m reserved => ⟨s.mailArrives_reserved reserved, s.slotAddArrives_reserved reserved, s.writeArrives_reserved reserved⟩⟩
  case hs0 => exact endpointOf_headstock (by omega) (by omega)
  case hs1 => exact endpointOf_headstock (by omega) (by omega)
  case gap => exact endpointOf_reserved lo (by omega)
  case top => exact endpointOf_reserved (by omega) (by omega)

end Sys2Proof.Machine

/-! ## Comparison masks (R218, Table 8.7) -/

namespace Sys2Proof.Machine

/-! ### The forms -/

/-- A packed form's result is a half of a word: of a mask, it is the mask of a half. -/
theorem toNat_maskOf_half (b : Bool) : (maskOf b).toNat % 2 ^ 16 = if b then 0xFFFF else 0 := by
  cases b <;> rfl

/-- A packed comparison is the FP32 comparison of the widened elements, cut to a half; every other form rounds to BF16 instead. -/
theorem bfForm_comparison {func : Nat} (lo : 6 ≤ func) (hi : func ≤ 8) (a b c : Nat) :
    bfForm func a b c = (fpForm func (widen a) (widen b) (widen c)).toNat % 2 ^ 16 := by
  rw [bfForm, if_pos ⟨lo, hi⟩]

/-! ### Lane words and packed elements of a Skew register -/

/-- Lanes written one after the other are a range of the register's words. -/
theorem Core.lanesFrom_eq (r : Nat) (vs : List W32) : ∀ (x : Core) (i : Nat),
    x.lanesFrom r vs i = { x with vregs := Sparse.putRange w320 x.vregs (vKey r i) vs } := by
  induction vs with
  | nil => intro x i; rfl
  | cons v vs ih => intro x i; exact ih (x.setLane r i v) (i + 1)

/-- The word of lane `i` after the first lanes are written. -/
theorem Core.lane_lanesFrom (x : Core) (r : Nat) (vs : List W32) {i : Nat} (h : i < vs.length) :
    (x.lanesFrom r vs 0).lane r i = vs[i] := by
  rw [Core.lanesFrom_eq]
  exact Sparse.get_putRange_mem vs x.vregs (vKey r 0) i h

@[simp] theorem Core.lane_setLane_same (x : Core) (r i : Nat) (v : W32) : (x.setLane r i v).lane r i = v :=
  Sparse.get_put_same _ _ _

theorem Core.lane_setLane_ne (x : Core) (r : Nat) {i j : Nat} (v : W32) (h : j ≠ i) : (x.setLane r i v).lane r j = x.lane r j :=
  Sparse.get_put_ne _ _ fun e => h (Nat.add_left_cancel e)

/-- Two packed elements share a lane word: element `i` is a half of word i / 2. -/
theorem Core.elem_packed (x : Core) (r i : Nat) : x.elem r 16 i = bitsOf (x.lane r (i / 2)).toNat (16 * (i % 2)) 16 := by
  have word : i * 16 / 32 = i / 2 := by omega
  have half : i * 16 % 32 = 16 * (i % 2) := by omega
  have fits : 16 * (i % 2) + 16 ≤ 32 := by omega
  simp only [Core.elem, word, half, if_pos fits, Nat.add_zero, bitsOf]

/-- The low word of a number with a field replaced does not depend on the words above it. -/
theorem withBits_low_word (n m lo len v : Nat) :
    BitVec.ofNat 32 (withBits (n + m * 2 ^ 32) lo len v) = BitVec.ofNat 32 (withBits n lo len v) := by
  apply BitVec.eq_of_getLsbD_eq
  intro j hj
  have low : (n + m * 2 ^ 32).testBit j = n.testBit j := by
    have rest := congrArg (Nat.testBit · j) (Nat.add_mul_mod_self_right n m (2 ^ 32))
    simpa only [Nat.testBit_mod_two_pow, hj, decide_true, Bool.true_and] using rest
  simp only [BitVec.getLsbD_ofNat, hj, decide_true, Bool.true_and, testBit_withBits, low]

/-- A write of a packed element is a write of its word with one half replaced. -/
theorem Core.setElem_packed (x : Core) (r i v : Nat) :
    x.setElem r 16 i v = x.setLane r (i / 2) (BitVec.ofNat 32 (withBits (x.lane r (i / 2)).toNat (16 * (i % 2)) 16 v)) := by
  have word : i * 16 / 32 = i / 2 := by omega
  have half : i * 16 % 32 = 16 * (i % 2) := by omega
  have fits : 16 * (i % 2) + 16 ≤ 32 := by omega
  simp only [Core.setElem, word, half, if_pos fits, withBits_low_word]

theorem Core.elem_setElem_packed_same (x : Core) (r i v : Nat) : (x.setElem r 16 i v).elem r 16 i = v % 2 ^ 16 := by
  have fits : 16 * (i % 2) + 16 ≤ 32 := by omega
  have word := withBits_lt (x.lane r (i / 2)).toNat (16 * (i % 2)) 16 v 32 (x.lane r (i / 2)).isLt fits
  rw [Core.setElem_packed, Core.elem_packed, Core.lane_setLane_same, BitVec.toNat_ofNat, Nat.mod_eq_of_lt word, bitsOf_withBits_same]

/-- Another element keeps its value, in another word or in the other half of the same one. -/
theorem Core.elem_setElem_packed_ne (x : Core) (r : Nat) {i j : Nat} (v : Nat) (h : j ≠ i) :
    (x.setElem r 16 i v).elem r 16 j = x.elem r 16 j := by
  rw [Core.setElem_packed, Core.elem_packed, Core.elem_packed]
  by_cases same : j / 2 = i / 2
  · have fits : 16 * (i % 2) + 16 ≤ 32 := by omega
    have word := withBits_lt (x.lane r (i / 2)).toNat (16 * (i % 2)) 16 v 32 (x.lane r (i / 2)).isLt fits
    rw [same, Core.lane_setLane_same, BitVec.toNat_ofNat, Nat.mod_eq_of_lt word, bitsOf_withBits_ne _ _ _ _ _ _ (by omega)]
  · rw [Core.lane_setLane_ne _ _ _ same]

/-- Packed elements below the first written one are left. -/
theorem Core.elem_elemsFrom_lt (r : Nat) (vs : List Nat) : ∀ (x : Core) {i j : Nat}, j < i →
    (x.elemsFrom r 16 vs i).elem r 16 j = x.elem r 16 j := by
  induction vs with
  | nil => intro x i j _; rfl
  | cons v vs ih =>
    intro x i j h
    rw [Core.elemsFrom, ih _ (Nat.lt_succ_of_lt h), Core.elem_setElem_packed_ne _ _ _ (Nat.ne_of_lt h)]

/-- The `k`-th packed element written. -/
theorem Core.elem_elemsFrom (r : Nat) (vs : List Nat) : ∀ (x : Core) (i k : Nat) (h : k < vs.length),
    (x.elemsFrom r 16 vs i).elem r 16 (i + k) = vs[k] % 2 ^ 16 := by
  induction vs with
  | nil => intro x i k h; exact absurd h (Nat.not_lt_zero _)
  | cons v vs ih =>
    intro x i k h
    cases k with
    | zero =>
      rw [Core.elemsFrom, Core.elem_elemsFrom_lt _ _ _ (show i + 0 < i + 1 by omega)]
      exact Core.elem_setElem_packed_same ..
    | succ k =>
      have next : i + (k + 1) = i + 1 + k := by omega
      rw [Core.elemsFrom, next]
      exact ih _ _ k (Nat.lt_of_succ_lt_succ h)

/-- Poison stands apart from the values of the registers. -/
@[simp] theorem Core.markElems_vregs (x : Core) (r w : Nat) (bads : List Bool) : (x.markElems r w bads).vregs = x.vregs := by
  unfold Core.markElems
  exact List.foldlRecOn (motive := fun y : Core => y.vregs = x.vregs) _ _ rfl fun _ kept _ _ => kept

/-- What lane `i` holds after the first lanes are written with their poison. -/
theorem Core.lane_setLanes (x : Core) (r : Nat) (vs : List (W32 × Bool)) {i : Nat} (h : i < vs.length) :
    (x.setLanes r vs).lane r i = vs[i].1 := by
  have written := x.lane_lanesFrom r (vs.map (·.1)) (i := i) (by simpa using h)
  rw [List.getElem_map] at written
  rw [← written, Core.setLanes, Core.lane, Core.markElems_vregs, Core.lane]

/-- What packed element `i` holds after the first elements are written with their poison. -/
theorem Core.elem_setElems_packed (x : Core) (r : Nat) (vs : List (Nat × Bool)) {i : Nat} (h : i < vs.length) :
    (x.setElems r 16 vs).elem r 16 i = vs[i].1 % 2 ^ 16 := by
  have written := Core.elem_elemsFrom r (vs.map (·.1)) x 0 i (by simpa using h)
  rw [Nat.zero_add, List.getElem_map, Core.elem_packed] at written
  rw [← written, Core.elem_packed, Core.setElems, Core.lane, Core.markElems_vregs, Core.lane]

/-! ### What reading poison leaves of the cores -/

@[simp] theorem State.elogWindow_cores (s : State) : s.elogWindow.cores = s.cores := by
  unfold State.elogWindow
  exact List.foldlRecOn (motive := fun t : State => t.cores = s.cores) _ _ (by simp) fun t kept j _ => by simp [kept]

/-- A record changes the log and, in every case, registers of its page alone. -/
@[simp] theorem State.logRec_cores (s : State) (die block cls ev response cause syndrome : Nat) :
    (s.logRec die block cls ev response cause syndrome).2.cores = s.cores := by
  simp only [State.logRec, State.elogWindow_cores, apply_ite State.cores, State.setRg_cores, State.setFlag_cores, State.bump_cores, ite_self]

@[simp] theorem State.event_cores (s : State) (die block cls ev response cause syndrome : Nat) :
    (s.event die block cls ev response cause syndrome).cores = s.cores := s.logRec_cores ..

@[simp] theorem State.poisonRead_cores (s : State) (d c : Nat) (b : Bool) : (s.poisonRead d c b).cores = s.cores := by
  cases b
  · rfl
  · exact s.setFlag_cores ..

@[simp] theorem State.poisonEnters_cores (s : State) (d c addr : Nat) : (s.poisonEnters d c addr).cores = s.cores := by
  rw [State.poisonEnters, State.event_cores, State.errBit, State.setFlag_cores]

/-- A core is what the store of cores holds for it. -/
theorem State.core_congr {s t : State} (h : t.cores = s.cores) (d c : Nat) : t.core d c = s.core d c := by
  rw [State.core, State.core, h]

/-- Reading a register's elements arms no check. -/
theorem State.useVec_inject (s : State) (d c r w n : Nat) : ((s.useVec d c r w n).core d c).inject = (s.core d c).inject := by
  unfold State.useVec
  refine List.foldlRecOn (motive := fun t : State => (t.core d c).inject = (s.core d c).inject) _ _ ?start fun t kept u _ => ?unit
  case start => rw [State.core_congr (s.poisonRead_cores ..)]
  case unit => rw [State.core_congr (State.poisonEnters_cores ..), State.onCore, State.core_setCore, kept]

theorem State.useVecs_inject (s : State) (d c w n : Nat) (rs : List Nat) :
    ((s.useVecs d c w n rs).core d c).inject = (s.core d c).inject :=
  List.foldlRecOn (motive := fun t : State => (t.core d c).inject = (s.core d c).inject) _ _ rfl
    fun t kept r _ => (t.useVec_inject d c r w n).trans kept

/-! ### Results of a form whose checks find nothing -/

/-- With no mismatch in the surroundings and none armed, a form's result is what the core holds (R311). -/
theorem State.finishForm_clean (s : State) (d c words tile : Nat) (regs : List Dest) (new : Core) (h : (s.core d c).inject = []) :
    s.finishForm d c {} words tile regs new = s.setCore d c { new with inject := [] } := by
  simp only [State.finishForm, h, sliceFaults, List.filter_nil, List.map_nil, List.append_nil, List.eraseDups_nil, List.foldl_nil]

section Form
variable (s : State) (d c vd n : Nat) (srcs : List Nat) (clean : (s.core d c).inject = [])
include clean

theorem State.lane_runLanes (op : Core → Nat → W32) {i : Nat} (hi : i < n) :
    ((s.runLanes d c vd n srcs {} op).core d c).lane vd i = op (s.core d c) i := by
  have unarmed := (s.useVecs_inject d c 32 n srcs).trans clean
  rw [State.runLanes, State.finishForm_clean _ _ _ _ _ _ _ unarmed, State.core_setCore]
  refine (Core.lane_setLanes _ vd _ (by simpa using hi)).trans ?_
  rw [List.getElem_map, List.getElem_range]

theorem State.elem_runPacked (op : Core → Nat → Nat) {i : Nat} (hi : i < n) :
    ((s.runPacked d c vd n srcs {} op).core d c).elem vd 16 i = op (s.core d c) i % 2 ^ 16 := by
  have unarmed := (s.useVecs_inject d c 16 n srcs).trans clean
  rw [State.runPacked, State.finishForm_clean _ _ _ _ _ _ _ unarmed, State.core_setCore]
  refine (Core.elem_setElems_packed _ vd _ (by simpa using hi)).trans ?_
  rw [List.getElem_map, List.getElem_range]

end Form

/-- Settles O60: each comparison is a mask of its condition, in packed BF16 cut to a half, and an elementwise form writes the operation's
result to every element. -/
theorem comparisonsWriteMasks : Obligations.ComparisonsWriteMasks := by
  unfold Obligations.ComparisonsWriteMasks
  refine ⟨fun a b c => ⟨rfl, rfl, rfl⟩, fun sat a b => ⟨?equal, ?less⟩, fun a b c => ⟨?_, ?_, ?_⟩,
    fun d c s vd n srcs op _ clean i hi => s.lane_runLanes d c vd n srcs clean op hi,
    fun d c s vd n srcs op _ clean i hi => s.elem_runPacked d c vd n srcs clean op hi⟩
  case equal => simp [intForm, maskOf]
  case less => simp [intForm, maskOf]
  all_goals
    rw [bfForm_comparison (by decide) (by decide)]
    exact toNat_maskOf_half _

end Sys2Proof.Machine

/-! ## Residues modulo 15 (R303) -/

namespace Sys2Proof.Machine

/-! ### Powers of two modulo 15 -/

/-- The powers of two repeat every four modulo 15, which is why R303 reads `e mod 4` alone. -/
theorem two_pow_emod_period (n : Nat) : (2 : Int) ^ n % 15 = 2 ^ (n % 4) % 15 := by
  have split : (2 : Int) ^ n = 2 ^ (n % 4) * (2 ^ 4) ^ (n / 4) := by
    rw [← Int.pow_mul, ← Int.pow_add, Nat.mod_add_div]
  have cycle : ((2 : Int) ^ 4) ^ (n / 4) % 15 = 1 := by
    induction n / 4 with
    | zero => rfl
    | succ k ih => rw [Int.pow_succ, Int.mul_emod, ih]; rfl
  rw [split, Int.mul_emod, cycle, Int.mul_one, Int.emod_emod]

/-- No power of two is divisible by 15. -/
theorem two_pow_emod_ne_zero (n : Nat) : (2 : Int) ^ n % 15 ≠ 0 := by
  have classes : ∀ r < 4, (2 : Int) ^ r % 15 ≠ 0 := by decide
  rw [two_pow_emod_period]
  exact classes _ (Nat.mod_lt _ (by decide))

/-! ### The formula, for the integer and for any exponent of its class -/

/-- `residue` answers for a negative value the complement of its magnitude's residue. -/
theorem residue_neg (mag : Nat) (e : Int) : residue true mag e = (15 - residue false mag e) % 15 := rfl

theorem residue_natCast (mag : Nat) (e : Int) : residue false mag e = ((mag : Int) % 15).toNat * 2 ^ (e % 4).toNat % 15 := by
  have low : ((mag : Int) % 15).toNat = mag % 15 := by omega
  rw [low]
  rfl

/-- The classes of a magnitude and of its negative add up to a multiple of 15, and so do their products with one factor. -/
theorem complement_mod_eq_neg_mod (mag p : Nat) :
    (15 - ((mag : Int) % 15).toNat * p % 15) % 15 = ((-(mag : Int)) % 15).toNat * p % 15 := by
  have classes : 15 ∣ ((mag : Int) % 15).toNat + ((-(mag : Int)) % 15).toNat := by omega
  have multiples := Nat.dvd_mul_right_of_dvd classes p
  rw [Nat.add_mul] at multiples
  omega

/-- R303's formula holds of the integer itself, though `residue` works on its magnitude and its sign. -/
theorem residueInt_eq (m e : Int) : residueInt m e = (m % 15).toNat * 2 ^ (e % 4).toNat % 15 := by
  unfold residueInt
  by_cases neg : m < 0
  · have magnitude : m = -(m.natAbs : Int) := by omega
    rw [decide_eq_true neg, residue_neg, residue_natCast, complement_mod_eq_neg_mod, ← magnitude]
  · have magnitude : (m.natAbs : Int) = m := by omega
    rw [decide_eq_false neg, residue_natCast, magnitude]

theorem residueInt_lt (m e : Int) : residueInt m e < 15 := by
  rw [residueInt_eq]
  exact Nat.mod_lt _ (by decide)

/-- Any natural exponent congruent to `e` modulo 4 gives the residue, as an integer remainder. -/
theorem residueInt_cast (m : Int) {e : Int} {n : Nat} (h : (n : Int) % 4 = e % 4) : (residueInt m e : Int) = m * 2 ^ n % 15 := by
  have low : (((m % 15).toNat : Nat) : Int) = m % 15 := Int.toNat_of_nonneg (Int.emod_nonneg m (by decide))
  have exponent : (e % 4).toNat = n % 4 := by omega
  have formula : (residueInt m e : Int) = m % 15 * 2 ^ (n % 4) % 15 := by
    rw [residueInt_eq, exponent, ← low, Int.natCast_emod, Int.natCast_mul, Int.natCast_pow]
    rfl
  rw [formula, Int.mul_emod, Int.emod_emod, ← two_pow_emod_period, ← Int.mul_emod]

/-- Every exponent, a negative one too, has a natural one of its class. -/
theorem toNat_emod_four (e : Int) : ((e % 4).toNat : Int) % 4 = e % 4 := by omega

/-! ### The laws -/

/-- Scaling the integer up and the exponent down by the same power of two leaves the value, and so the residue. -/
theorem residueInt_mul_two_pow (m e : Int) (k : Nat) : residueInt (m * 2 ^ k) (e - k) = residueInt m e := by
  have lowered := toNat_emod_four (e - k)
  have restored : ((k + ((e - k) % 4).toNat : Nat) : Int) % 4 = e % 4 := by omega
  apply Int.ofNat.inj
  calc (residueInt (m * 2 ^ k) (e - k) : Int)
    _ = m * 2 ^ k * 2 ^ ((e - k) % 4).toNat % 15 := residueInt_cast _ lowered
    _ = m * 2 ^ (k + ((e - k) % 4).toNat) % 15 := by rw [Int.pow_add, Int.mul_assoc]
    _ = residueInt m e := (residueInt_cast m restored).symm

theorem residueInt_add (a b e : Int) : residueInt (a + b) e = (residueInt a e + residueInt b e) % 15 := by
  have exponent := toNat_emod_four e
  have sum : (residueInt (a + b) e : Int) = (residueInt a e + residueInt b e) % 15 := by
    rw [residueInt_cast _ exponent, residueInt_cast a exponent, residueInt_cast b exponent, Int.add_mul, Int.add_emod]
  omega

theorem residueInt_mul (a b e f : Int) : residueInt (a * b) (e + f) = residueInt a e * residueInt b f % 15 := by
  have left := toNat_emod_four e
  have right := toNat_emod_four f
  have both : (((e % 4).toNat + (f % 4).toNat : Nat) : Int) % 4 = (e + f) % 4 := by omega
  apply Int.ofNat.inj
  calc (residueInt (a * b) (e + f) : Int)
    _ = a * b * 2 ^ ((e % 4).toNat + (f % 4).toNat) % 15 := residueInt_cast _ both
    _ = a * 2 ^ (e % 4).toNat * (b * 2 ^ (f % 4).toNat) % 15 := by rw [Int.pow_add]; ac_rfl
    _ = (residueInt a e : Int) * residueInt b f % 15 := by rw [Int.mul_emod, residueInt_cast a left, residueInt_cast b right]
    _ = ((residueInt a e * residueInt b f % 15 : Nat) : Int) := rfl

/-- A power of two times 2^e has the class of a power of two. -/
theorem residueInt_two_pow_ne_zero (j : Nat) (e : Int) : residueInt (2 ^ j) e ≠ 0 := by
  have power := residueInt_cast (2 ^ j) (toNat_emod_four e)
  have nonzero := two_pow_emod_ne_zero (j + (e % 4).toNat)
  rw [Int.pow_add, ← power] at nonzero
  exact fun zero => nonzero (congrArg Int.ofNat zero)

/-- Adding a power of two adds a residue that is not 0. -/
theorem residueInt_add_two_pow_ne (a e : Int) (j : Nat) : residueInt (a + 2 ^ j) e ≠ residueInt a e := by
  have bound := residueInt_lt a e
  have step := residueInt_lt (2 ^ j) e
  have nonzero := residueInt_two_pow_ne_zero j e
  rw [residueInt_add]
  omega

/-- Taking away a power of two is adding it read backwards. -/
theorem residueInt_sub_two_pow_ne (a e : Int) (j : Nat) : residueInt (a - 2 ^ j) e ≠ residueInt a e := by
  have back := residueInt_add_two_pow_ne (a - 2 ^ j) e j
  rw [Int.sub_add_cancel] at back
  exact back.symm

/-- Settles O59: modulo 15 the powers of two repeat every four and none is 0, so a residue is the remainder of m × 2^n for any n of the
exponent's class. -/
theorem residuesOfExactValues : Obligations.ResiduesOfExactValues := by
  unfold Obligations.ResiduesOfExactValues
  exact ⟨residueInt_eq, residueInt_mul_two_pow, residueInt_add, residueInt_mul,
    fun a e j => ⟨residueInt_add_two_pow_ne a e j, residueInt_sub_two_pow_ne a e j⟩⟩

end Sys2Proof.Machine
